-- ==== Sys2Proof/Syntax.lean ====
section
/-! DEFINITION. The instruction set as syntax: one constructor of `Instr` per row of the opcode table. An
encoded syllable carries its fields in one record per field layout (R59, R60); an event row carries what the event is
about (a bench, a context, a queue). -/

namespace Sys2Proof

/-- TRI: destination and two sources (R60). -/
structure Tri where
  s : Nat  -- bit 31
  g : Nat  -- bits 23..20
  d : Nat  -- bits 19..14
  a : Nat  -- bits 13..8
  b : Nat  -- bits 7..2
  deriving DecidableEq, Repr

/-- TRI with the B field unused. -/
structure Bin where
  s : Nat  -- bit 31
  g : Nat  -- bits 23..20
  d : Nat  -- bits 19..14
  a : Nat  -- bits 13..8
  deriving DecidableEq, Repr

/-- IMM: an eight-bit immediate (R60). -/
structure Imm8 where
  s : Nat  -- bit 31
  g : Nat  -- bits 23..20
  d : Nat  -- bits 19..14
  a : Nat  -- bits 13..8
  i : Nat  -- bits 7..0
  deriving DecidableEq, Repr

/-- WIDE: a fourteen-bit immediate. -/
structure Wide where
  s : Nat  -- bit 31
  g : Nat  -- bits 23..20
  d : Nat  -- bits 19..14
  i : Nat  -- bits 13..0
  deriving DecidableEq, Repr

/-- IMMX and MEMF: a six-bit immediate beside a minor. -/
structure Imm6 where
  s : Nat  -- bit 31
  g : Nat  -- bits 23..20
  d : Nat  -- bits 19..14
  a : Nat  -- bits 13..8
  i : Nat  -- bits 7..2
  deriving DecidableEq, Repr

/-- LEA: the minor is the scale (R90). -/
structure Lea where
  s : Nat  -- bit 31
  g : Nat  -- bits 23..20
  d : Nat  -- bits 19..14
  a : Nat  -- bits 13..8
  b : Nat  -- bits 7..2
  c : Nat  -- bits 1..0
  deriving DecidableEq, Repr

/-- JUMP: a twenty-bit offset in syllables. -/
structure Jump where
  s : Nat  -- bit 31
  g : Nat  -- bits 23..20
  i : Nat  -- bits 19..0
  deriving DecidableEq, Repr

/-- Field layout of JR, RET, HJOIN and others. -/
structure UnA where
  s : Nat  -- bit 31
  g : Nat  -- bits 23..20
  a : Nat  -- bits 13..8
  deriving DecidableEq, Repr

/-- Field layout of LOOPK. -/
structure Loopk where
  s : Nat  -- bit 31
  d : Nat  -- bits 16..14
  a : Nat  -- bits 13..8
  i : Nat  -- bits 7..0
  deriving DecidableEq, Repr

/-- Field layout of LOOPE. -/
structure Bare where
  s : Nat  -- bit 31
  deriving DecidableEq, Repr

/-- Field layout of SETE, SYSWR. -/
structure AImm where
  s : Nat  -- bit 31
  g : Nat  -- bits 23..20
  a : Nat  -- bits 13..8
  i : Nat  -- bits 7..2
  deriving DecidableEq, Repr

/-- Field layout of FENCE_ACQ, FENCE_REL, FENCE_SC and others. -/
structure UnB where
  s : Nat  -- bit 31
  g : Nat  -- bits 23..20
  b : Nat  -- bits 7..2
  deriving DecidableEq, Repr

/-- Field layout of LDL, STL, LDLD and others. -/
structure Local where
  s : Nat  -- bit 31
  g : Nat  -- bits 23..20
  d : Nat  -- bits 19..14
  a : Nat  -- bits 13..8
  i : Nat  -- bits 7..2
  m : Nat  -- bits 1..0
  deriving DecidableEq, Repr

/-- Field layout of HSELF, GRANK, LSTAT and others. -/
structure UnD where
  s : Nat  -- bit 31
  g : Nat  -- bits 23..20
  d : Nat  -- bits 19..14
  deriving DecidableEq, Repr

/-- Field layout of GWAIT, SIGNAL, TENON_V and others. -/
structure AB where
  s : Nat  -- bit 31
  g : Nat  -- bits 23..20
  a : Nat  -- bits 13..8
  b : Nat  -- bits 7..2
  deriving DecidableEq, Repr

/-- Field layout of REPF. -/
structure Repf where
  s : Nat  -- bit 31
  g : Nat  -- bits 23..20
  f : Nat  -- bits 16..14
  a : Nat  -- bits 13..8
  l : Nat  -- bits 7..4
  t : Nat  -- bits 3..2
  deriving DecidableEq, Repr

/-- Field layout of DONE, YIELD, LSWAP and others. -/
structure Nul where
  s : Nat  -- bit 31
  g : Nat  -- bits 23..20
  deriving DecidableEq, Repr

/-- Field layout of YCVT_F32_BF16. -/
structure BinH2 where
  s : Nat  -- bit 31
  g : Nat  -- bits 23..20
  d : Nat  -- bits 19..14
  a : Nat  -- bits 13..8
  h : Nat  -- bit 2
  deriving DecidableEq, Repr

/-- Field layout of VCVT_F32_BF16, VCVT_F32_F16, VCVT_I16_I32 and others. -/
structure BinH7 where
  s : Nat  -- bit 31
  g : Nat  -- bits 23..20
  d : Nat  -- bits 19..14
  a : Nat  -- bits 13..8
  h : Nat  -- bit 7
  deriving DecidableEq, Repr

/-- Field layout of VCVT_BF16_F32, VCVT_F16_F32. -/
structure CvtHR where
  s : Nat  -- bit 31
  g : Nat  -- bits 23..20
  d : Nat  -- bits 19..14
  a : Nat  -- bits 13..8
  h : Nat  -- bit 7
  r : Nat  -- bits 4..2
  deriving DecidableEq, Repr

/-- Field layout of VCVT_F32_I32, VCVT_I32_F32. -/
structure CvtR where
  s : Nat  -- bit 31
  g : Nat  -- bits 23..20
  d : Nat  -- bits 19..14
  a : Nat  -- bits 13..8
  r : Nat  -- bits 4..2
  deriving DecidableEq, Repr

/-- Field layout of VROT, VBCST, VFILL and others. -/
structure BinN where
  s : Nat  -- bit 31
  g : Nat  -- bits 23..20
  d : Nat  -- bits 19..14
  a : Nat  -- bits 13..8
  n : Nat  -- bits 7..2
  deriving DecidableEq, Repr

/-- Field layout of VMASK. -/
structure GuardN where
  s : Nat  -- bit 31
  g : Nat  -- bits 23..20
  d : Nat  -- bits 17..14
  a : Nat  -- bits 13..8
  n : Nat  -- bits 7..2
  deriving DecidableEq, Repr

/-- Field layout of MM_B8, MM_I8, MM_I4 and others. -/
structure Mm where
  s : Nat  -- bit 31
  g : Nat  -- bits 23..20
  d : Nat  -- bits 17..14
  a : Nat  -- bits 13..8
  n : Nat  -- bit 7
  k : Nat  -- bits 4..2
  deriving DecidableEq, Repr

/-- Field layout of SPSEL. -/
structure BinN2 where
  s : Nat  -- bit 31
  g : Nat  -- bits 23..20
  d : Nat  -- bits 19..14
  a : Nat  -- bits 13..8
  n : Nat  -- bit 2
  deriving DecidableEq, Repr

/-- Field layout of AREL, AZERO, OSM_FIN and others. -/
structure HandleD where
  s : Nat  -- bit 31
  g : Nat  -- bits 23..20
  d : Nat  -- bits 17..14
  deriving DecidableEq, Repr

/-- Field layout of ARD. -/
structure HandleRd where
  s : Nat  -- bit 31
  g : Nat  -- bits 23..20
  d : Nat  -- bits 19..14
  a : Nat  -- bits 11..8
  b : Nat  -- bits 7..2
  deriving DecidableEq, Repr

/-- Field layout of AWR, WIN_CMP. -/
structure HandleAB where
  s : Nat  -- bit 31
  g : Nat  -- bits 23..20
  d : Nat  -- bits 17..14
  a : Nat  -- bits 13..8
  b : Nat  -- bits 7..2
  deriving DecidableEq, Repr

/-- Field layout of OSM_UPD. -/
structure OsmUpd where
  s : Nat  -- bit 31
  g : Nat  -- bits 23..20
  d : Nat  -- bits 17..14
  a : Nat  -- bits 11..8
  b : Nat  -- bits 7..2
  deriving DecidableEq, Repr

/-- Field layout of OSM_MRG. -/
structure OsmMrg where
  s : Nat  -- bit 31
  g : Nat  -- bits 23..20
  d : Nat  -- bits 17..14
  a : Nat  -- bits 11..8
  deriving DecidableEq, Repr

/-- Field layout of LLOAD. -/
structure Lload where
  s : Nat  -- bit 31
  g : Nat  -- bits 23..20
  a : Nat  -- bits 13..8
  k : Nat  -- bits 4..2
  deriving DecidableEq, Repr

/-- Field layout of WIN_SIG, WIN_MAP. -/
structure DB where
  s : Nat  -- bit 31
  g : Nat  -- bits 23..20
  d : Nat  -- bits 19..14
  b : Nat  -- bits 7..2
  deriving DecidableEq, Repr

/-- Field layout of BAR_WAIT. -/
structure BarWait where
  s : Nat  -- bit 31
  g : Nat  -- bits 23..20
  a : Nat  -- bits 13..8
  p : Nat  -- bit 2
  deriving DecidableEq, Repr

/-- Field layout of BAR_TEST. -/
structure BarTest where
  s : Nat  -- bit 31
  g : Nat  -- bits 23..20
  d : Nat  -- bits 19..14
  a : Nat  -- bits 13..8
  p : Nat  -- bit 2
  deriving DecidableEq, Repr

/-- Field layout of ANCHOR. -/
structure Anchor where
  s : Nat  -- bit 31
  i : Nat  -- bits 7..2
  deriving DecidableEq, Repr

/-- Field layout of MLATCH, SYSRD. -/
structure DImm where
  s : Nat  -- bit 31
  g : Nat  -- bits 23..20
  d : Nat  -- bits 19..14
  i : Nat  -- bits 7..2
  deriving DecidableEq, Repr

/-- Field layout of SEQL. -/
structure SeqlWr where
  s : Nat  -- bit 31
  g : Nat  -- bits 23..20
  d : Nat  -- bits 16..14
  a : Nat  -- bits 13..8
  deriving DecidableEq, Repr

/-- Field layout of SEQL_READ. -/
structure SeqlRd where
  s : Nat  -- bit 31
  g : Nat  -- bits 23..20
  d : Nat  -- bits 19..14
  a : Nat  -- bits 10..8
  deriving DecidableEq, Repr

/-- Field layout of PAUSE. -/
structure Pause where
  s : Nat  -- bit 31
  c : Nat  -- bits 19..2
  deriving DecidableEq, Repr

/-- HDR: the bundle header (R63): `p` PRES, `w` W0, `v` W1, `k` PP, `n` ANC, `x` XP. -/
structure Bhdr where
  s : Nat  -- bit 31
  p : Nat  -- bits 23..16
  w : Nat  -- bits 15..14
  v : Nat  -- bits 13..12
  k : Nat  -- bit 11
  n : Nat  -- bit 10
  x : Nat  -- bits 9..2
  deriving DecidableEq, Repr

/-- Field layout of TRAP. -/
structure TrapImm where
  s : Nat  -- bit 31
  g : Nat  -- bits 23..20
  i : Nat  -- bits 7..2
  deriving DecidableEq, Repr

/-- Field layout of EXT. -/
structure ExtImm where
  i : Nat  -- bits 23..0
  deriving DecidableEq, Repr

/-- A request that another package's endpoint makes of this one (R348): operation as in the work request of R346,
the connection it comes through, the target address, and the bytes or operands it carries. -/
structure RemoteRequest where
  op : Nat
  aop : Nat
  conn : Nat
  addr : Nat
  len : Nat
  data : List Nat
  opnd1 : Nat
  opnd2 : Nat
  deriving DecidableEq, Repr

/-- A contribution as it reaches a Spline switch (R343, R402): `vals` are the F32 bit patterns already widened. -/
structure Contribution where
  gid : Nat
  seq : Nat
  nmem : Nat
  midx : Nat
  ty : Nat
  ord : Bool
  count : Nat
  tmo : Nat
  vals : List Nat
  deriving DecidableEq, Repr

/-- What the boot flash holds when power comes on (R415): whether an image is there, verifies and is well formed, and
its contents: package number, the registers of R270, the Spline ports it enables, and compander words (a word's index is
64 × table + word). -/
structure BootImage where
  present : Bool
  verifies : Bool
  wellFormed : Bool
  pkg : Nat
  asidtb : Nat
  cmplo : Nat
  cmphi : Nat
  mdbase : Nat
  ports : List Nat
  tables : List (Nat × Nat)
  deriving DecidableEq, Repr

/-- A host access through a PCIe port (R407): `kind` 0 read, 1 write, 2 to 4 the AtomicOps FetchAdd, Swap and CAS. -/
structure HostAccess where
  port : Nat
  kind : Nat
  addr : Nat
  size : Nat
  value : Nat
  compare : Nat
  deriving DecidableEq, Repr

/-- What the timing flits of an alignment find at one port (R394): the peer that they reach, and the largest measured round trip in
ticks. -/
structure AlignedPort where
  port : Nat
  peer : Nat
  trip : Nat
  deriving DecidableEq, Repr

/-- The instruction set: rows 337 to 443 of the opcode table are the machine's events, which come first here; rows 0 to
336 are syllables. (Lean's runtime builds objects for the first 245 constructors of a type alone, so what builds a
syllable, the decoder and the issue of groups and bundles, is marked noncomputable; the kernel evaluates it.) -/
inductive Instr where
  | segmentReady (b : Nat)  -- SEGMENT_READY, R159
  | blockRelease (e : Nat)  -- BLOCK_RELEASE, R166
  | anchorLate (b : Nat)  -- ANCHOR_LATE, R171
  | holdEnd  -- HOLD_END, R170
  | holdTimeout  -- HOLD_TIMEOUT, R173
  | resultLanding (b : Nat)  -- RESULT_LANDING, R81
  | matrixResultLanding (b : Nat)  -- MATRIX_RESULT_LANDING, R224
  | latchLanding (b : Nat)  -- LATCH_LANDING, R221
  | copyGranuleRequest (b : Nat) (id : Nat)  -- COPY_GRANULE_REQUEST, R312
  | frameSlotStart (k : Nat)  -- FRAME_SLOT_START, R268
  | copyLanding (b : Nat) (id : Nat)  -- COPY_LANDING, R312
  | eccRereadComplete (b : Nat) (id : Nat) (n : Nat)  -- ECC_REREAD_COMPLETE, R269
  | channelEntryLanding (ch : Nat) (arriving : Option (Nat × Nat))  -- CHANNEL_ENTRY_LANDING, R324
  | lpassLanding (b : Nat)  -- LPASS_LANDING, R233
  | winnowCopyLanding (b : Nat)  -- WINNOW_COPY_LANDING, R254
  | jigIteration (b : Nat)  -- JIG_ITERATION, R322
  | mortiseOpen (m : Nat)  -- MORTISE_OPEN, R179
  | mortiseClose (m : Nat)  -- MORTISE_CLOSE, R181
  | holdLatch (m : Nat)  -- HOLD_LATCH, R182
  | frameLaunchSetup (q : Nat)  -- FRAME_LAUNCH_SETUP, R165
  | frameLaunchComplete  -- FRAME_LAUNCH_COMPLETE, R166
  | framePause  -- FRAME_PAUSE, R378
  | nopause  -- NOPAUSE, R378
  | launchRecordReady (l : Nat)  -- LAUNCH_RECORD_READY, R125
  | dispatchStep (die : Nat)  -- DISPATCH_STEP, R127
  | priorityAgeing (l : Nat)  -- PRIORITY_AGEING, R127
  | deferralExpiry (l : Nat)  -- DEFERRAL_EXPIRY, R128
  | weaveLaunchComplete (l : Nat)  -- WEAVE_LAUNCH_COMPLETE, R125
  | storeBufferDrain (core : Nat)  -- STORE_BUFFER_DRAIN, R286
  | weavePortAccess (b : Nat)  -- WEAVE_PORT_ACCESS, R260
  | wfeWake (c : Nat)  -- WFE_WAKE, R102
  | wfeTimeout (c : Nat)  -- WFE_TIMEOUT, R102
  | yieldResume (c : Nat)  -- YIELD_RESUME, R147
  | pipeStallResume (c : Nat)  -- PIPE_STALL_RESUME, R117
  | hjoinWake (c : Nat)  -- HJOIN_WAKE, R137
  | gwaitWake (c : Nat)  -- GWAIT_WAKE, R141
  | waitevWake (c : Nat)  -- WAITEV_WAKE, R148
  | barWaitWake (c : Nat)  -- BAR_WAIT_WAKE, R337
  | ldsFillWake (c : Nat)  -- LDS_FILL_WAKE, R298
  | watermarkStallResume (c : Nat)  -- WATERMARK_STALL_RESUME, R318
  | engineSlotFree (c : Nat)  -- ENGINE_SLOT_FREE, R302
  | splPendingWake (c : Nat)  -- SPL_PENDING_WAKE, R343
  | rmaWaitWake (c : Nat)  -- RMA_WAIT_WAKE, R347
  | replayExecution (c : Nat)  -- REPLAY_EXECUTION, R144
  | bteCopyPart (cl : Nat) (id : Nat)  -- BTE_COPY_PART, R316
  | bteCopyComplete (cl : Nat) (id : Nat)  -- BTE_COPY_COMPLETE, R335
  | rmaCompletion (id : Nat) (status : Nat) (data : (List Nat))  -- RMA_COMPLETION, R348
  | rmaIncomingRequest (rq : RemoteRequest)  -- RMA_INCOMING_REQUEST, R348
  | rmaSendMatch (conn : Nat) (tag : Nat) (data : (List Nat))  -- RMA_SEND_MATCH, R349
  | rmaSendRetry (id : Nat)  -- RMA_SEND_RETRY, R349
  | connectionContextFetch (conn : Nat) (ok : Bool)  -- CONNECTION_CONTEXT_FETCH, R404
  | switchContribution (cb : Contribution)  -- SWITCH_CONTRIBUTION, R402
  | switchGroupTimeout (gid : Nat) (sq : Nat)  -- SWITCH_GROUP_TIMEOUT, R402
  | splResultArrival (gr : Nat) (gid : Nat) (sq : Nat) (data : (List Nat))  -- SPL_RESULT_ARRIVAL, R343
  | collectiveOrder (gr : Nat) (gid : Nat) (sq : Nat)  -- COLLECTIVE_ORDER, R343
  | shootdownRange (die : Nat) (asid : Nat) (ectr : Nat) (npages : Nat)  -- SHOOTDOWN_RANGE, R279
  | shootdownAsid (die : Nat) (asid : Nat) (ectr : Nat)  -- SHOOTDOWN_ASID, R279
  | shootdownAll (die : Nat) (ectr : Nat)  -- SHOOTDOWN_ALL, R279
  | shootdownComplete (die : Nat)  -- SHOOTDOWN_COMPLETE, R280
  | eventCounterWrite (n : Nat) (v : Nat)  -- EVENT_COUNTER_WRITE, R416
  | queueDoorbell (q : Nat) (v : Nat)  -- QUEUE_DOORBELL, R408
  | queueEnable (q : Nat) (v : Nat)  -- QUEUE_ENABLE, R408
  | queueArm (q : Nat) (v : Nat)  -- QUEUE_ARM, R412
  | completionHeadWrite (q : Nat) (v : Nat)  -- COMPLETION_HEAD_WRITE, R412
  | preempt (q : Nat) (save : Nat)  -- PREEMPT, R413
  | resume (q : Nat) (save : Nat)  -- RESUME, R413
  | destroy (q : Nat)  -- DESTROY, R374
  | destroyForce (q : Nat)  -- DESTROY_FORCE, R374
  | roleHalt (gang : Nat) (role : Nat)  -- ROLE_HALT, R382
  | gangSave (gang : Nat)  -- GANG_SAVE, R382
  | completionEntryWrite (q : Nat)  -- COMPLETION_ENTRY_WRITE, R411
  | interruptWindowClose (q : Nat)  -- INTERRUPT_WINDOW_CLOSE, R412
  | connectionOpen (asid : Nat) (conn : Nat)  -- CONNECTION_OPEN, R418
  | connectionClose (asid : Nat) (conn : Nat)  -- CONNECTION_CLOSE, R418
  | companderTableWrite (t : Nat) (w : Nat) (v : Nat)  -- COMPANDER_TABLE_WRITE, R44
  | pcapWrite (v : Nat)  -- PCAP_WRITE, R417
  | frameClockRequest (r : Nat × Option Nat)  -- FRAME_CLOCK_REQUEST, R417: FCLKREQ, and the member that received it (none: this package)
  | frameClockChange  -- FRAME_CLOCK_CHANGE, R401
  | registerWrite (off : Nat) (v : Nat)  -- REGISTER_WRITE, R270
  | ebudgetUpdate (die : Nat)  -- EBUDGET_UPDATE, R414
  | lifetimeRecordUpdate  -- LIFETIME_RECORD_UPDATE, R385
  | orderlyPowerDown  -- ORDERLY_POWER_DOWN, R385
  | boot (img : BootImage)  -- BOOT, R415
  | alignGo (members : Nat) (dtag : Nat)  -- ALIGN_GO, R394
  | alignDissolve (members : Nat)  -- ALIGN_DISSOLVE, R395
  | alignmentTimeout  -- ALIGNMENT_TIMEOUT, R394
  | alignReadyNotice (pkg : Nat) (dtag : Nat) (flen : Nat) (nframes : Nat)  -- ALIGN_READY_NOTICE, R396
  | startInstantNotice (after : Option Nat)  -- START_INSTANT_NOTICE, R396
  | alignedStart  -- ALIGNED_START, R396
  | holdNotice (m : Nat) (e : Nat) (port : Nat)  -- HOLD_NOTICE, R397
  | remoteHold  -- REMOTE_HOLD, R397
  | faultNotice (f : Nat) (port : Nat)  -- FAULT_NOTICE, R400
  | preemptForward (p : Nat) (save : Nat) (chosen : Option Nat)  -- PREEMPT_FORWARD, R400
  | linkReplay (e : Nat × Nat)  -- LINK_REPLAY, R392: channel and due tick of the entry
  | portRetrain (k : Nat)  -- PORT_RETRAIN, R393
  | illegalEncoding (c : Nat)  -- ILLEGAL_ENCODING, R69
  | fetchNonexec (c : Nat)  -- FETCH_NONEXEC, R27
  | link (conn : Nat)  -- LINK, R347
  | powerLoss  -- POWER_LOSS, R385
  | hostAccess (acc : HostAccess)  -- HOST_ACCESS, R407
  | contributionResend (gr : Nat)  -- CONTRIBUTION_RESEND, R402
  | groupIncomplete (gr : Nat) (gid : Nat) (sq : Nat)  -- GROUP_INCOMPLETE, R343
  | translationEviction (where_ : Nat) (idx : Nat)  -- TRANSLATION_EVICTION, R279
  | cacheLineEviction (where_ : Nat) (line : Nat)  -- CACHE_LINE_EVICTION, R261
  | alignmentDone (answers : (List (Nat × Nat × Nat))) (routes : (List (List Nat))) (ports : (List AlignedPort))  -- ALIGNMENT_DONE, R394
  | ueLinkRetrain (p : Nat)  -- UE_LINK_RETRAIN, R417
  | frameStart  -- FRAME_START, R327
  | add (f : Tri)  -- ADD, R83
  | sub (f : Tri)  -- SUB, R83
  | addw (f : Tri)  -- ADDW, R83
  | subw (f : Tri)  -- SUBW, R83
  | and_ (f : Tri)  -- AND, R83
  | or_ (f : Tri)  -- OR, R83
  | xor_ (f : Tri)  -- XOR, R83
  | andn (f : Tri)  -- ANDN, R83
  | shl (f : Tri)  -- SHL, R83
  | shr (f : Tri)  -- SHR, R83
  | sar (f : Tri)  -- SAR, R83
  | rot (f : Tri)  -- ROT, R83
  | mul (f : Tri)  -- MUL, R83
  | mulh (f : Tri)  -- MULH, R83
  | mulhu (f : Tri)  -- MULHU, R83
  | mulw (f : Tri)  -- MULW, R83
  | div (f : Tri)  -- DIV, R84
  | divu (f : Tri)  -- DIVU, R84
  | rem (f : Tri)  -- REM, R84
  | remu (f : Tri)  -- REMU, R84
  | min_ (f : Tri)  -- MIN, R83
  | max_ (f : Tri)  -- MAX, R83
  | minu (f : Tri)  -- MINU, R83
  | maxu (f : Tri)  -- MAXU, R83
  | seq (f : Tri)  -- SEQ, R83
  | slt (f : Tri)  -- SLT, R83
  | sltu (f : Tri)  -- SLTU, R83
  | sne (f : Tri)  -- SNE, R83
  | clz (f : Bin)  -- CLZ, R83
  | ctz (f : Bin)  -- CTZ, R83
  | popc (f : Bin)  -- POPC, R83
  | brev (f : Bin)  -- BREV, R83
  | addi (f : Imm8)  -- ADDI, R85
  | andi (f : Imm8)  -- ANDI, R85
  | ori (f : Imm8)  -- ORI, R85
  | xori (f : Imm8)  -- XORI, R85
  | shli (f : Imm8)  -- SHLI, R85
  | shri (f : Imm8)  -- SHRI, R85
  | sari (f : Imm8)  -- SARI, R85
  | slti (f : Imm8)  -- SLTI, R85
  | sltiu (f : Imm8)  -- SLTIU, R85
  | li (f : Wide)  -- LI, R86
  | lih (f : Wide)  -- LIH, R86
  | cmpEq (f : Tri)  -- CMP_EQ, R87
  | cmpLt (f : Tri)  -- CMP_LT, R87
  | cmpLtu (f : Tri)  -- CMP_LTU, R87
  | cmpNe (f : Tri)  -- CMP_NE, R87
  | cmpiEq (f : Imm6)  -- CMPI_EQ, R87
  | cmpiLt (f : Imm6)  -- CMPI_LT, R87
  | cmpiLtu (f : Imm6)  -- CMPI_LTU, R87
  | cmpiNe (f : Imm6)  -- CMPI_NE, R87
  | pand (f : Tri)  -- PAND, R88
  | por (f : Tri)  -- POR, R88
  | pxor (f : Tri)  -- PXOR, R88
  | pnot (f : Bin)  -- PNOT, R88
  | sel (f : Tri)  -- SEL, R89
  | lea (f : Lea)  -- LEA, R90
  | extr (f : Imm6)  -- EXTR, R91
  | ins (f : Imm6)  -- INS, R91
  | br (f : Jump)  -- BR, R92
  | call (f : Jump)  -- CALL, R92
  | jr (f : UnA)  -- JR, R93
  | jalr (f : Bin)  -- JALR, R93
  | ret (f : UnA)  -- RET, R93
  | loopk (f : Loopk)  -- LOOPK, R97
  | loope (f : Bare)  -- LOOPE, R98
  | wfe (f : Tri)  -- WFE, R102
  | ldB (f : Imm6)  -- LD_B, R104
  | ldH (f : Imm6)  -- LD_H, R104
  | ldW (f : Imm6)  -- LD_W, R104
  | ldD (f : Imm6)  -- LD_D, R104
  | lduB (f : Imm6)  -- LDU_B, R104
  | lduH (f : Imm6)  -- LDU_H, R104
  | lduW (f : Imm6)  -- LDU_W, R104
  | stB (f : Imm6)  -- ST_B, R104
  | stH (f : Imm6)  -- ST_H, R104
  | stW (f : Imm6)  -- ST_W, R104
  | stD (f : Imm6)  -- ST_D, R104
  | ldy (f : Imm6)  -- LDY, R104
  | sty (f : Imm6)  -- STY, R104
  | ldyb (f : Imm6)  -- LDYB, R104
  | ldyf (f : Imm6)  -- LDYF, R299
  | ldsW (f : Imm6)  -- LDS_W, R298
  | ldsD (f : Imm6)  -- LDS_D, R298
  | ldseW (f : Imm6)  -- LDSE_W, R298
  | ldseD (f : Imm6)  -- LDSE_D, R298
  | stfW (f : Imm6)  -- STF_W, R298
  | stfD (f : Imm6)  -- STF_D, R298
  | sete (f : AImm)  -- SETE, R298
  | aadd (f : Tri)  -- AADD, R297
  | aand (f : Tri)  -- AAND, R297
  | aor (f : Tri)  -- AOR, R297
  | axor (f : Tri)  -- AXOR, R297
  | aswp (f : Tri)  -- ASWP, R297
  | acas (f : Tri)  -- ACAS, R297
  | amax (f : Tri)  -- AMAX, R297
  | amin (f : Tri)  -- AMIN, R297
  | fenceAcq (f : UnB)  -- FENCE_ACQ, R296
  | fenceRel (f : UnB)  -- FENCE_REL, R296
  | fenceSc (f : UnB)  -- FENCE_SC, R296
  | tfence (f : UnB)  -- TFENCE, R294
  | cflush (f : Imm6)  -- CFLUSH, R300
  | cinv (f : Imm6)  -- CINV, R300
  | cpref (f : Imm6)  -- CPREF, R300
  | ldl (f : Local)  -- LDL, R301
  | stl (f : Local)  -- STL, R301
  | ldld (f : Local)  -- LDLD, R301
  | stld (f : Local)  -- STLD, R301
  | hstart (f : Tri)  -- HSTART, R136
  | hjoin (f : UnA)  -- HJOIN, R137
  | hkill (f : UnA)  -- HKILL, R137
  | hself (f : UnD)  -- HSELF, R138
  | qpeek (f : Bin)  -- QPEEK, R139
  | qdepth (f : Bin)  -- QDEPTH, R139
  | qclose (f : UnA)  -- QCLOSE, R140
  | qdrop (f : Tri)  -- QDROP, R140
  | gbar (f : Tri)  -- GBAR, R141
  | garrive (f : Tri)  -- GARRIVE, R141
  | gwait (f : AB)  -- GWAIT, R141
  | grank (f : UnD)  -- GRANK, R138
  | repf (f : Repf)  -- REPF, R144
  | done (f : Nul)  -- DONE, R146
  | signal (f : AB)  -- SIGNAL, R148
  | yield (f : Nul)  -- YIELD, R147
  | waitev (f : Tri)  -- WAITEV, R148
  | tenonV (f : AB)  -- TENON_V, R150
  | tenonW (f : AB)  -- TENON_W, R151
  | tenonQ (f : Bin)  -- TENON_Q, R152
  | rmaPut (f : Bin)  -- RMA_PUT, R348
  | rmaGet (f : Bin)  -- RMA_GET, R348
  | rmaFlush (f : Bin)  -- RMA_FLUSH, R348
  | rmaArm (f : Tri)  -- RMA_ARM, R349
  | rmaAmo (f : Bin)  -- RMA_AMO, R348
  | rmaWait (f : Bin)  -- RMA_WAIT, R347
  | rmaSend (f : Bin)  -- RMA_SEND, R348
  | yaddF32 (f : Tri)  -- YADD_F32, R153
  | ysubF32 (f : Tri)  -- YSUB_F32, R153
  | ymulF32 (f : Tri)  -- YMUL_F32, R153
  | yfmaF32 (f : Tri)  -- YFMA_F32, R153
  | yaddBf16 (f : Tri)  -- YADD_BF16, R153
  | ysubBf16 (f : Tri)  -- YSUB_BF16, R153
  | ymulBf16 (f : Tri)  -- YMUL_BF16, R153
  | yfmaBf16 (f : Tri)  -- YFMA_BF16, R153
  | yaddI32 (f : Tri)  -- YADD_I32, R153
  | ysubI32 (f : Tri)  -- YSUB_I32, R153
  | ymulI32 (f : Tri)  -- YMUL_I32, R153
  | ymacI32 (f : Tri)  -- YMAC_I32, R153
  | yminF32 (f : Tri)  -- YMIN_F32, R153
  | ymaxF32 (f : Tri)  -- YMAX_F32, R153
  | yminI32 (f : Tri)  -- YMIN_I32, R153
  | ymaxI32 (f : Tri)  -- YMAX_I32, R153
  | ycvtBf16F32 (f : Tri)  -- YCVT_BF16_F32, R153
  | ycvtF32Bf16 (f : BinH2)  -- YCVT_F32_BF16, R153
  | ycvtI32F32 (f : Bin)  -- YCVT_I32_F32, R153
  | ycvtF32I32 (f : Bin)  -- YCVT_F32_I32, R153
  | yand (f : Tri)  -- YAND, R153
  | yor (f : Tri)  -- YOR, R153
  | yxor (f : Tri)  -- YXOR, R153
  | yshf (f : Tri)  -- YSHF, R153
  | yrsumF32 (f : Bin)  -- YRSUM_F32, R153
  | yrmaxF32 (f : Bin)  -- YRMAX_F32, R153
  | yrsumI32 (f : Bin)  -- YRSUM_I32, R153
  | yrmaxI32 (f : Bin)  -- YRMAX_I32, R153
  | ybcast (f : Bin)  -- YBCAST, R153
  | yext (f : Tri)  -- YEXT, R153
  | yins (f : Tri)  -- YINS, R153
  | ysel (f : Tri)  -- YSEL, R153
  | vaddF32 (f : Tri)  -- VADD_F32, R190
  | vsubF32 (f : Tri)  -- VSUB_F32, R190
  | vmulF32 (f : Tri)  -- VMUL_F32, R190
  | vfmaF32 (f : Tri)  -- VFMA_F32, R190
  | vminF32 (f : Tri)  -- VMIN_F32, R190
  | vmaxF32 (f : Tri)  -- VMAX_F32, R190
  | vabsF32 (f : Bin)  -- VABS_F32, R190
  | vnegF32 (f : Bin)  -- VNEG_F32, R190
  | vaddBf16 (f : Tri)  -- VADD_BF16, R190
  | vsubBf16 (f : Tri)  -- VSUB_BF16, R190
  | vmulBf16 (f : Tri)  -- VMUL_BF16, R190
  | vfmaBf16 (f : Tri)  -- VFMA_BF16, R190
  | vminBf16 (f : Tri)  -- VMIN_BF16, R190
  | vmaxBf16 (f : Tri)  -- VMAX_BF16, R190
  | vabsBf16 (f : Bin)  -- VABS_BF16, R190
  | vnegBf16 (f : Bin)  -- VNEG_BF16, R190
  | vaddF16 (f : Tri)  -- VADD_F16, R190
  | vsubF16 (f : Tri)  -- VSUB_F16, R190
  | vmulF16 (f : Tri)  -- VMUL_F16, R190
  | vfmaF16 (f : Tri)  -- VFMA_F16, R190
  | vminF16 (f : Tri)  -- VMIN_F16, R190
  | vmaxF16 (f : Tri)  -- VMAX_F16, R190
  | vabsF16 (f : Bin)  -- VABS_F16, R190
  | vnegF16 (f : Bin)  -- VNEG_F16, R190
  | vaddI32 (f : Tri)  -- VADD_I32, R191
  | vsubI32 (f : Tri)  -- VSUB_I32, R191
  | vmulI32 (f : Tri)  -- VMUL_I32, R191
  | vmacI32 (f : Tri)  -- VMAC_I32, R191
  | vminI32 (f : Tri)  -- VMIN_I32, R191
  | vmaxI32 (f : Tri)  -- VMAX_I32, R191
  | vabsI32 (f : Bin)  -- VABS_I32, R191
  | vnegI32 (f : Bin)  -- VNEG_I32, R191
  | vaddI16 (f : Tri)  -- VADD_I16, R191
  | vsubI16 (f : Tri)  -- VSUB_I16, R191
  | vmulI16 (f : Tri)  -- VMUL_I16, R191
  | vmacI16 (f : Tri)  -- VMAC_I16, R191
  | vminI16 (f : Tri)  -- VMIN_I16, R191
  | vmaxI16 (f : Tri)  -- VMAX_I16, R191
  | vabsI16 (f : Bin)  -- VABS_I16, R191
  | vnegI16 (f : Bin)  -- VNEG_I16, R191
  | vaddI8 (f : Tri)  -- VADD_I8, R191
  | vsubI8 (f : Tri)  -- VSUB_I8, R191
  | vmulI8 (f : Tri)  -- VMUL_I8, R191
  | vmacI8 (f : Tri)  -- VMAC_I8, R191
  | vminI8 (f : Tri)  -- VMIN_I8, R191
  | vmaxI8 (f : Tri)  -- VMAX_I8, R191
  | vabsI8 (f : Bin)  -- VABS_I8, R191
  | vnegI8 (f : Bin)  -- VNEG_I8, R191
  | vcvtF32Bf16 (f : BinH7)  -- VCVT_F32_BF16, R193
  | vcvtF32F16 (f : BinH7)  -- VCVT_F32_F16, R193
  | vcvtBf16F32 (f : CvtHR)  -- VCVT_BF16_F32, R193
  | vcvtF16F32 (f : CvtHR)  -- VCVT_F16_F32, R193
  | vcvtF32I32 (f : CvtR)  -- VCVT_F32_I32, R193
  | vcvtI32F32 (f : CvtR)  -- VCVT_I32_F32, R193
  | vcvtI16I32 (f : BinH7)  -- VCVT_I16_I32, R193
  | vcvtI8I16 (f : BinH7)  -- VCVT_I8_I16, R193
  | vqnt (f : Tri)  -- VQNT, R197
  | vdq (f : Tri)  -- VDQ, R198
  | vscl (f : Tri)  -- VSCL, R196
  | vcomp (f : Tri)  -- VCOMP, R199
  | vexp2 (f : Bin)  -- VEXP2, R200
  | vrcp (f : Bin)  -- VRCP, R200
  | vrsq (f : Bin)  -- VRSQ, R200
  | vlog2 (f : Bin)  -- VLOG2, R200
  | vcmpEqF32 (f : Tri)  -- VCMP_EQ_F32, R201
  | vcmpLtF32 (f : Tri)  -- VCMP_LT_F32, R201
  | vcmpLeF32 (f : Tri)  -- VCMP_LE_F32, R201
  | vcmpNeF32 (f : Tri)  -- VCMP_NE_F32, R201
  | vcmpEqI32 (f : Tri)  -- VCMP_EQ_I32, R201
  | vcmpLtI32 (f : Tri)  -- VCMP_LT_I32, R201
  | vcmpLeI32 (f : Tri)  -- VCMP_LE_I32, R201
  | vcmpNeI32 (f : Tri)  -- VCMP_NE_I32, R201
  | vand (f : Tri)  -- VAND, R202
  | vor (f : Tri)  -- VOR, R202
  | vxor (f : Tri)  -- VXOR, R202
  | vnot (f : Bin)  -- VNOT, R202
  | vshuf (f : Tri)  -- VSHUF, R203
  | vrot (f : BinN)  -- VROT, R203
  | vbcst (f : BinN)  -- VBCST, R203
  | vtrn (f : Tri)  -- VTRN, R203
  | vsel (f : Tri)  -- VSEL, R204
  | vfill (f : BinN)  -- VFILL, R204
  | vmerge (f : Tri)  -- VMERGE, R204
  | vmask (f : GuardN)  -- VMASK, R204
  | vrsumF32 (f : Bin)  -- VRSUM_F32, R205
  | vrmaxF32 (f : Bin)  -- VRMAX_F32, R205
  | vrsumI32 (f : Bin)  -- VRSUM_I32, R205
  | vrmaxI32 (f : Bin)  -- VRMAX_I32, R205
  | vld (f : Imm6)  -- VLD, R206
  | vst (f : Imm6)  -- VST, R206
  | vldb (f : Imm6)  -- VLDB, R206
  | vstm (f : Imm6)  -- VSTM, R206
  | vmova (f : BinN)  -- VMOVA, R208
  | vmovv (f : Bin)  -- VMOVV, R208
  | vsplat (f : Bin)  -- VSPLAT, R208
  | viota (f : Bin)  -- VIOTA, R208
  | mmB8 (f : Mm)  -- MM_B8, R229
  | mmI8 (f : Mm)  -- MM_I8, R229
  | mmI4 (f : Mm)  -- MM_I4, R229
  | mmBf16 (f : Mm)  -- MM_BF16, R229
  | mmsB8 (f : Mm)  -- MMS_B8, R230
  | mmsI8 (f : Mm)  -- MMS_I8, R230
  | mmsBf16 (f : Mm)  -- MMS_BF16, R230
  | spsel (f : BinN2)  -- SPSEL, R231
  | arel (f : HandleD)  -- AREL, R223
  | ard (f : HandleRd)  -- ARD, R236
  | awr (f : HandleAB)  -- AWR, R236
  | azero (f : HandleD)  -- AZERO, R236
  | osmUpd (f : OsmUpd)  -- OSM_UPD, R238
  | osmMrg (f : OsmMrg)  -- OSM_MRG, R239
  | osmFin (f : HandleD)  -- OSM_FIN, R240
  | osmRst (f : HandleD)  -- OSM_RST, R241
  | lload (f : Lload)  -- LLOAD, R232
  | lpass (f : UnA)  -- LPASS, R233
  | lswap (f : Nul)  -- LSWAP, R234
  | lstat (f : UnD)  -- LSTAT, R235
  | vdot4I8 (f : Tri)  -- VDOT4_I8, R243
  | vdot4sI8 (f : Tri)  -- VDOT4S_I8, R243
  | vdot2I16 (f : Tri)  -- VDOT2_I16, R243
  | vdot2sI16 (f : Tri)  -- VDOT2S_I16, R243
  | winSig (f : DB)  -- WIN_SIG, R254
  | winCmp (f : HandleAB)  -- WIN_CMP, R254
  | winSkip (f : UnB)  -- WIN_SKIP, R254
  | winKeep (f : AB)  -- WIN_KEEP, R254
  | winStep (f : UnD)  -- WIN_STEP, R254
  | winMap (f : DB)  -- WIN_MAP, R254
  | winSet (f : Tri)  -- WIN_SET, R255
  | winClr (f : UnA)  -- WIN_CLR, R254
  | cpyBox (f : Bin)  -- CPY_BOX, R333
  | cpyMcast (f : Bin)  -- CPY_MCAST, R333
  | cpyRed (f : Bin)  -- CPY_RED, R333
  | cpyLin (f : Tri)  -- CPY_LIN, R333
  | barInit (f : AB)  -- BAR_INIT, R337
  | barArrive (f : Tri)  -- BAR_ARRIVE, R337
  | barWait (f : BarWait)  -- BAR_WAIT, R337
  | barTest (f : BarTest)  -- BAR_TEST, R337
  | jigLoad (f : UnA)  -- JIG_LOAD, R338
  | jigGo (f : Nul)  -- JIG_GO, R338
  | jigStop (f : Nul)  -- JIG_STOP, R338
  | jigStat (f : UnD)  -- JIG_STAT, R338
  | wmSet (f : Tri)  -- WM_SET, R339
  | wmRd (f : Bin)  -- WM_RD, R339
  | clSend (f : Bin)  -- CL_SEND, R331
  | clChk (f : Bin)  -- CL_CHK, R332
  | chPut (f : Tri)  -- CH_PUT, R341
  | chGet (f : Bin)  -- CH_GET, R341
  | chRed (f : Tri)  -- CH_RED, R341
  | chStat (f : Bin)  -- CH_STAT, R341
  | splGrp (f : Bin)  -- SPL_GRP, R342
  | splRst (f : UnD)  -- SPL_RST, R344
  | splLdr (f : UnD)  -- SPL_LDR, R343
  | splStat (f : Bin)  -- SPL_STAT, R344
  | ringSet (f : AB)  -- RING_SET, R345
  | ringNext (f : Bin)  -- RING_NEXT, R345
  | ringSkip (f : Bin)  -- RING_SKIP, R345
  | ringRd (f : Tri)  -- RING_RD, R345
  | anchor (f : Anchor)  -- ANCHOR, R210
  | mlatch (f : DImm)  -- MLATCH, R212
  | slipchk (f : Bin)  -- SLIPCHK, R213
  | fcnt (f : Tri)  -- FCNT, R214
  | seql (f : SeqlWr)  -- SEQL, R215
  | seqlRead (f : SeqlRd)  -- SEQL_READ, R215
  | bhalt (f : Nul)  -- BHALT, R216
  | pause (f : Pause)  -- PAUSE, R211
  | bhdr (f : Bhdr)  -- BHDR, R67
  | trap (f : TrapImm)  -- TRAP, R366
  | sysrd (f : DImm)  -- SYSRD, R367
  | syswr (f : AImm)  -- SYSWR, R367
  | eret (f : Nul)  -- ERET, R368
  | ext (f : ExtImm)  -- EXT, R62
  deriving DecidableEq, Repr

end Sys2Proof
end

