-- ==== Sys2Proof/WellFormed.lean ====
section
/-! DEFINITION. `Instr.wf`: the fields of an instruction fit the bits that its encoding gives them (R59, R60), and the
operands of an event name things the package has. Whether an operand's index lies in a file its form accepts is the
plane's check (R12, R61), made at issue in Machine/Operands.lean. -/

namespace Sys2Proof

/-- Every field of a Tri syllable fits its bits. -/
def Tri.wf (f : Tri) : Bool := decide (f.s < 2) && decide (f.g < 16) && decide (f.d < 64) && decide (f.a < 64) && decide (f.b < 64)

/-- Every field of a Bin syllable fits its bits. -/
def Bin.wf (f : Bin) : Bool := decide (f.s < 2) && decide (f.g < 16) && decide (f.d < 64) && decide (f.a < 64)

/-- Every field of a Imm8 syllable fits its bits. -/
def Imm8.wf (f : Imm8) : Bool := decide (f.s < 2) && decide (f.g < 16) && decide (f.d < 64) && decide (f.a < 64) && decide (f.i < 256)

/-- Every field of a Wide syllable fits its bits. -/
def Wide.wf (f : Wide) : Bool := decide (f.s < 2) && decide (f.g < 16) && decide (f.d < 64) && decide (f.i < 16384)

/-- Every field of a Imm6 syllable fits its bits. -/
def Imm6.wf (f : Imm6) : Bool := decide (f.s < 2) && decide (f.g < 16) && decide (f.d < 64) && decide (f.a < 64) && decide (f.i < 64)

/-- Every field of a Lea syllable fits its bits. -/
def Lea.wf (f : Lea) : Bool := decide (f.s < 2) && decide (f.g < 16) && decide (f.d < 64) && decide (f.a < 64) && decide (f.b < 64) && decide (f.c < 4)

/-- Every field of a Jump syllable fits its bits. -/
def Jump.wf (f : Jump) : Bool := decide (f.s < 2) && decide (f.g < 16) && decide (f.i < 1048576)

/-- Every field of a UnA syllable fits its bits. -/
def UnA.wf (f : UnA) : Bool := decide (f.s < 2) && decide (f.g < 16) && decide (f.a < 64)

/-- Every field of a Loopk syllable fits its bits. -/
def Loopk.wf (f : Loopk) : Bool := decide (f.s < 2) && decide (f.d < 8) && decide (f.a < 64) && decide (f.i < 256)

/-- Every field of a Bare syllable fits its bits. -/
def Bare.wf (f : Bare) : Bool := decide (f.s < 2)

/-- Every field of a AImm syllable fits its bits. -/
def AImm.wf (f : AImm) : Bool := decide (f.s < 2) && decide (f.g < 16) && decide (f.a < 64) && decide (f.i < 64)

/-- Every field of a UnB syllable fits its bits. -/
def UnB.wf (f : UnB) : Bool := decide (f.s < 2) && decide (f.g < 16) && decide (f.b < 64)

/-- Every field of a Local syllable fits its bits. -/
def Local.wf (f : Local) : Bool := decide (f.s < 2) && decide (f.g < 16) && decide (f.d < 64) && decide (f.a < 64) && decide (f.i < 64) && decide (f.m < 4)

/-- Every field of a UnD syllable fits its bits. -/
def UnD.wf (f : UnD) : Bool := decide (f.s < 2) && decide (f.g < 16) && decide (f.d < 64)

/-- Every field of a AB syllable fits its bits. -/
def AB.wf (f : AB) : Bool := decide (f.s < 2) && decide (f.g < 16) && decide (f.a < 64) && decide (f.b < 64)

/-- Every field of a Repf syllable fits its bits. -/
def Repf.wf (f : Repf) : Bool := decide (f.s < 2) && decide (f.g < 16) && decide (f.f < 8) && decide (f.a < 64) && decide (f.l < 16) && decide (f.t < 4)

/-- Every field of a Nul syllable fits its bits. -/
def Nul.wf (f : Nul) : Bool := decide (f.s < 2) && decide (f.g < 16)

/-- Every field of a BinH2 syllable fits its bits. -/
def BinH2.wf (f : BinH2) : Bool := decide (f.s < 2) && decide (f.g < 16) && decide (f.d < 64) && decide (f.a < 64) && decide (f.h < 2)

/-- Every field of a BinH7 syllable fits its bits. -/
def BinH7.wf (f : BinH7) : Bool := decide (f.s < 2) && decide (f.g < 16) && decide (f.d < 64) && decide (f.a < 64) && decide (f.h < 2)

/-- Every field of a CvtHR syllable fits its bits. -/
def CvtHR.wf (f : CvtHR) : Bool := decide (f.s < 2) && decide (f.g < 16) && decide (f.d < 64) && decide (f.a < 64) && decide (f.h < 2) && decide (f.r < 8)

/-- Every field of a CvtR syllable fits its bits. -/
def CvtR.wf (f : CvtR) : Bool := decide (f.s < 2) && decide (f.g < 16) && decide (f.d < 64) && decide (f.a < 64) && decide (f.r < 8)

/-- Every field of a BinN syllable fits its bits. -/
def BinN.wf (f : BinN) : Bool := decide (f.s < 2) && decide (f.g < 16) && decide (f.d < 64) && decide (f.a < 64) && decide (f.n < 64)

/-- Every field of a GuardN syllable fits its bits. -/
def GuardN.wf (f : GuardN) : Bool := decide (f.s < 2) && decide (f.g < 16) && decide (f.d < 16) && decide (f.a < 64) && decide (f.n < 64)

/-- Every field of a Mm syllable fits its bits. -/
def Mm.wf (f : Mm) : Bool := decide (f.s < 2) && decide (f.g < 16) && decide (f.d < 16) && decide (f.a < 64) && decide (f.n < 2) && decide (f.k < 8)

/-- Every field of a BinN2 syllable fits its bits. -/
def BinN2.wf (f : BinN2) : Bool := decide (f.s < 2) && decide (f.g < 16) && decide (f.d < 64) && decide (f.a < 64) && decide (f.n < 2)

/-- Every field of a HandleD syllable fits its bits. -/
def HandleD.wf (f : HandleD) : Bool := decide (f.s < 2) && decide (f.g < 16) && decide (f.d < 16)

/-- Every field of a HandleRd syllable fits its bits. -/
def HandleRd.wf (f : HandleRd) : Bool := decide (f.s < 2) && decide (f.g < 16) && decide (f.d < 64) && decide (f.a < 16) && decide (f.b < 64)

/-- Every field of a HandleAB syllable fits its bits. -/
def HandleAB.wf (f : HandleAB) : Bool := decide (f.s < 2) && decide (f.g < 16) && decide (f.d < 16) && decide (f.a < 64) && decide (f.b < 64)

/-- Every field of a OsmUpd syllable fits its bits. -/
def OsmUpd.wf (f : OsmUpd) : Bool := decide (f.s < 2) && decide (f.g < 16) && decide (f.d < 16) && decide (f.a < 16) && decide (f.b < 64)

/-- Every field of a OsmMrg syllable fits its bits. -/
def OsmMrg.wf (f : OsmMrg) : Bool := decide (f.s < 2) && decide (f.g < 16) && decide (f.d < 16) && decide (f.a < 16)

/-- Every field of a Lload syllable fits its bits. -/
def Lload.wf (f : Lload) : Bool := decide (f.s < 2) && decide (f.g < 16) && decide (f.a < 64) && decide (f.k < 8)

/-- Every field of a DB syllable fits its bits. -/
def DB.wf (f : DB) : Bool := decide (f.s < 2) && decide (f.g < 16) && decide (f.d < 64) && decide (f.b < 64)

/-- Every field of a BarWait syllable fits its bits. -/
def BarWait.wf (f : BarWait) : Bool := decide (f.s < 2) && decide (f.g < 16) && decide (f.a < 64) && decide (f.p < 2)

/-- Every field of a BarTest syllable fits its bits. -/
def BarTest.wf (f : BarTest) : Bool := decide (f.s < 2) && decide (f.g < 16) && decide (f.d < 64) && decide (f.a < 64) && decide (f.p < 2)

/-- Every field of a Anchor syllable fits its bits. -/
def Anchor.wf (f : Anchor) : Bool := decide (f.s < 2) && decide (f.i < 64)

/-- Every field of a DImm syllable fits its bits. -/
def DImm.wf (f : DImm) : Bool := decide (f.s < 2) && decide (f.g < 16) && decide (f.d < 64) && decide (f.i < 64)

/-- Every field of a SeqlWr syllable fits its bits. -/
def SeqlWr.wf (f : SeqlWr) : Bool := decide (f.s < 2) && decide (f.g < 16) && decide (f.d < 8) && decide (f.a < 64)

/-- Every field of a SeqlRd syllable fits its bits. -/
def SeqlRd.wf (f : SeqlRd) : Bool := decide (f.s < 2) && decide (f.g < 16) && decide (f.d < 64) && decide (f.a < 8)

/-- Every field of a Pause syllable fits its bits. -/
def Pause.wf (f : Pause) : Bool := decide (f.s < 2) && decide (f.c < 262144)

/-- Every field of a Bhdr syllable fits its bits. -/
def Bhdr.wf (f : Bhdr) : Bool := decide (f.s < 2) && decide (f.p < 256) && decide (f.w < 4) && decide (f.v < 4) && decide (f.k < 2) && decide (f.n < 2) && decide (f.x < 256)

/-- Every field of a TrapImm syllable fits its bits. -/
def TrapImm.wf (f : TrapImm) : Bool := decide (f.s < 2) && decide (f.g < 16) && decide (f.i < 64)

/-- Every field of a ExtImm syllable fits its bits. -/
def ExtImm.wf (f : ExtImm) : Bool := decide (f.i < 16777216)

/-- A remote request carries byte values and 64-bit operands. -/
def RemoteRequest.wf (r : RemoteRequest) : Bool :=
  decide (r.op < 16) && decide (r.aop < 8) && decide (r.conn < 16777216) && r.data.all (fun b => decide (b < 256))

/-- A contribution names a group address, 2 to 255 members and words of 32 bits (R342). -/
def Contribution.wf (c : Contribution) : Bool :=
  decide (c.gid < 65536) && decide (c.seq < 4294967296) && decide (c.nmem < 256) && decide (c.midx < 256) &&
    c.vals.all (fun v => decide (v < 4294967296))

/-- A host access comes through one of the two ports, in bytes the port can carry (R407). -/
def HostAccess.wf (a : HostAccess) : Bool :=
  decide (a.port < 2) && decide (a.kind < 5) && decide (a.addr < 4503599627370496) &&
    (a.size == 1 || a.size == 2 || a.size == 4 || a.size == 8)

/-- Port numbers are 0 to 143 and peers 0 to 131071 (R392, R393). -/
def AlignedPort.wf (p : AlignedPort) : Bool := decide (p.port < 144) && decide (p.peer < 131072)

/-- An instruction whose fields fit their encoding. -/
def Instr.wf : Instr → Bool
  | .add f => f.wf
  | .sub f => f.wf
  | .addw f => f.wf
  | .subw f => f.wf
  | .and_ f => f.wf
  | .or_ f => f.wf
  | .xor_ f => f.wf
  | .andn f => f.wf
  | .shl f => f.wf
  | .shr f => f.wf
  | .sar f => f.wf
  | .rot f => f.wf
  | .mul f => f.wf
  | .mulh f => f.wf
  | .mulhu f => f.wf
  | .mulw f => f.wf
  | .div f => f.wf
  | .divu f => f.wf
  | .rem f => f.wf
  | .remu f => f.wf
  | .min_ f => f.wf
  | .max_ f => f.wf
  | .minu f => f.wf
  | .maxu f => f.wf
  | .seq f => f.wf
  | .slt f => f.wf
  | .sltu f => f.wf
  | .sne f => f.wf
  | .clz f => f.wf
  | .ctz f => f.wf
  | .popc f => f.wf
  | .brev f => f.wf
  | .addi f => f.wf
  | .andi f => f.wf
  | .ori f => f.wf
  | .xori f => f.wf
  | .shli f => f.wf
  | .shri f => f.wf
  | .sari f => f.wf
  | .slti f => f.wf
  | .sltiu f => f.wf
  | .li f => f.wf
  | .lih f => f.wf
  | .cmpEq f => f.wf
  | .cmpLt f => f.wf
  | .cmpLtu f => f.wf
  | .cmpNe f => f.wf
  | .cmpiEq f => f.wf
  | .cmpiLt f => f.wf
  | .cmpiLtu f => f.wf
  | .cmpiNe f => f.wf
  | .pand f => f.wf
  | .por f => f.wf
  | .pxor f => f.wf
  | .pnot f => f.wf
  | .sel f => f.wf
  | .lea f => f.wf
  | .extr f => f.wf
  | .ins f => f.wf
  | .br f => f.wf
  | .call f => f.wf
  | .jr f => f.wf
  | .jalr f => f.wf
  | .ret f => f.wf
  | .loopk f => f.wf
  | .loope f => f.wf
  | .wfe f => f.wf
  | .ldB f => f.wf
  | .ldH f => f.wf
  | .ldW f => f.wf
  | .ldD f => f.wf
  | .lduB f => f.wf
  | .lduH f => f.wf
  | .lduW f => f.wf
  | .stB f => f.wf
  | .stH f => f.wf
  | .stW f => f.wf
  | .stD f => f.wf
  | .ldy f => f.wf
  | .sty f => f.wf
  | .ldyb f => f.wf
  | .ldyf f => f.wf
  | .ldsW f => f.wf
  | .ldsD f => f.wf
  | .ldseW f => f.wf
  | .ldseD f => f.wf
  | .stfW f => f.wf
  | .stfD f => f.wf
  | .sete f => f.wf
  | .aadd f => f.wf
  | .aand f => f.wf
  | .aor f => f.wf
  | .axor f => f.wf
  | .aswp f => f.wf
  | .acas f => f.wf
  | .amax f => f.wf
  | .amin f => f.wf
  | .fenceAcq f => f.wf
  | .fenceRel f => f.wf
  | .fenceSc f => f.wf
  | .tfence f => f.wf
  | .cflush f => f.wf
  | .cinv f => f.wf
  | .cpref f => f.wf
  | .ldl f => f.wf
  | .stl f => f.wf
  | .ldld f => f.wf
  | .stld f => f.wf
  | .hstart f => f.wf
  | .hjoin f => f.wf
  | .hkill f => f.wf
  | .hself f => f.wf
  | .qpeek f => f.wf
  | .qdepth f => f.wf
  | .qclose f => f.wf
  | .qdrop f => f.wf
  | .gbar f => f.wf
  | .garrive f => f.wf
  | .gwait f => f.wf
  | .grank f => f.wf
  | .repf f => f.wf
  | .done f => f.wf
  | .signal f => f.wf
  | .yield f => f.wf
  | .waitev f => f.wf
  | .tenonV f => f.wf
  | .tenonW f => f.wf
  | .tenonQ f => f.wf
  | .rmaPut f => f.wf
  | .rmaGet f => f.wf
  | .rmaFlush f => f.wf
  | .rmaArm f => f.wf
  | .rmaAmo f => f.wf
  | .rmaWait f => f.wf
  | .rmaSend f => f.wf
  | .yaddF32 f => f.wf
  | .ysubF32 f => f.wf
  | .ymulF32 f => f.wf
  | .yfmaF32 f => f.wf
  | .yaddBf16 f => f.wf
  | .ysubBf16 f => f.wf
  | .ymulBf16 f => f.wf
  | .yfmaBf16 f => f.wf
  | .yaddI32 f => f.wf
  | .ysubI32 f => f.wf
  | .ymulI32 f => f.wf
  | .ymacI32 f => f.wf
  | .yminF32 f => f.wf
  | .ymaxF32 f => f.wf
  | .yminI32 f => f.wf
  | .ymaxI32 f => f.wf
  | .ycvtBf16F32 f => f.wf
  | .ycvtF32Bf16 f => f.wf
  | .ycvtI32F32 f => f.wf
  | .ycvtF32I32 f => f.wf
  | .yand f => f.wf
  | .yor f => f.wf
  | .yxor f => f.wf
  | .yshf f => f.wf
  | .yrsumF32 f => f.wf
  | .yrmaxF32 f => f.wf
  | .yrsumI32 f => f.wf
  | .yrmaxI32 f => f.wf
  | .ybcast f => f.wf
  | .yext f => f.wf
  | .yins f => f.wf
  | .ysel f => f.wf
  | .vaddF32 f => f.wf
  | .vsubF32 f => f.wf
  | .vmulF32 f => f.wf
  | .vfmaF32 f => f.wf
  | .vminF32 f => f.wf
  | .vmaxF32 f => f.wf
  | .vabsF32 f => f.wf
  | .vnegF32 f => f.wf
  | .vaddBf16 f => f.wf
  | .vsubBf16 f => f.wf
  | .vmulBf16 f => f.wf
  | .vfmaBf16 f => f.wf
  | .vminBf16 f => f.wf
  | .vmaxBf16 f => f.wf
  | .vabsBf16 f => f.wf
  | .vnegBf16 f => f.wf
  | .vaddF16 f => f.wf
  | .vsubF16 f => f.wf
  | .vmulF16 f => f.wf
  | .vfmaF16 f => f.wf
  | .vminF16 f => f.wf
  | .vmaxF16 f => f.wf
  | .vabsF16 f => f.wf
  | .vnegF16 f => f.wf
  | .vaddI32 f => f.wf
  | .vsubI32 f => f.wf
  | .vmulI32 f => f.wf
  | .vmacI32 f => f.wf
  | .vminI32 f => f.wf
  | .vmaxI32 f => f.wf
  | .vabsI32 f => f.wf
  | .vnegI32 f => f.wf
  | .vaddI16 f => f.wf
  | .vsubI16 f => f.wf
  | .vmulI16 f => f.wf
  | .vmacI16 f => f.wf
  | .vminI16 f => f.wf
  | .vmaxI16 f => f.wf
  | .vabsI16 f => f.wf
  | .vnegI16 f => f.wf
  | .vaddI8 f => f.wf
  | .vsubI8 f => f.wf
  | .vmulI8 f => f.wf
  | .vmacI8 f => f.wf
  | .vminI8 f => f.wf
  | .vmaxI8 f => f.wf
  | .vabsI8 f => f.wf
  | .vnegI8 f => f.wf
  | .vcvtF32Bf16 f => f.wf
  | .vcvtF32F16 f => f.wf
  | .vcvtBf16F32 f => f.wf
  | .vcvtF16F32 f => f.wf
  | .vcvtF32I32 f => f.wf
  | .vcvtI32F32 f => f.wf
  | .vcvtI16I32 f => f.wf
  | .vcvtI8I16 f => f.wf
  | .vqnt f => f.wf
  | .vdq f => f.wf
  | .vscl f => f.wf
  | .vcomp f => f.wf
  | .vexp2 f => f.wf
  | .vrcp f => f.wf
  | .vrsq f => f.wf
  | .vlog2 f => f.wf
  | .vcmpEqF32 f => f.wf
  | .vcmpLtF32 f => f.wf
  | .vcmpLeF32 f => f.wf
  | .vcmpNeF32 f => f.wf
  | .vcmpEqI32 f => f.wf
  | .vcmpLtI32 f => f.wf
  | .vcmpLeI32 f => f.wf
  | .vcmpNeI32 f => f.wf
  | .vand f => f.wf
  | .vor f => f.wf
  | .vxor f => f.wf
  | .vnot f => f.wf
  | .vshuf f => f.wf
  | .vrot f => f.wf
  | .vbcst f => f.wf
  | .vtrn f => f.wf
  | .vsel f => f.wf
  | .vfill f => f.wf
  | .vmerge f => f.wf
  | .vmask f => f.wf
  | .vrsumF32 f => f.wf
  | .vrmaxF32 f => f.wf
  | .vrsumI32 f => f.wf
  | .vrmaxI32 f => f.wf
  | .vld f => f.wf
  | .vst f => f.wf
  | .vldb f => f.wf
  | .vstm f => f.wf
  | .vmova f => f.wf
  | .vmovv f => f.wf
  | .vsplat f => f.wf
  | .viota f => f.wf
  | .mmB8 f => f.wf
  | .mmI8 f => f.wf
  | .mmI4 f => f.wf
  | .mmBf16 f => f.wf
  | .mmsB8 f => f.wf
  | .mmsI8 f => f.wf
  | .mmsBf16 f => f.wf
  | .spsel f => f.wf
  | .arel f => f.wf
  | .ard f => f.wf
  | .awr f => f.wf
  | .azero f => f.wf
  | .osmUpd f => f.wf
  | .osmMrg f => f.wf
  | .osmFin f => f.wf
  | .osmRst f => f.wf
  | .lload f => f.wf
  | .lpass f => f.wf
  | .lswap f => f.wf
  | .lstat f => f.wf
  | .vdot4I8 f => f.wf
  | .vdot4sI8 f => f.wf
  | .vdot2I16 f => f.wf
  | .vdot2sI16 f => f.wf
  | .winSig f => f.wf
  | .winCmp f => f.wf
  | .winSkip f => f.wf
  | .winKeep f => f.wf
  | .winStep f => f.wf
  | .winMap f => f.wf
  | .winSet f => f.wf
  | .winClr f => f.wf
  | .cpyBox f => f.wf
  | .cpyMcast f => f.wf
  | .cpyRed f => f.wf
  | .cpyLin f => f.wf
  | .barInit f => f.wf
  | .barArrive f => f.wf
  | .barWait f => f.wf
  | .barTest f => f.wf
  | .jigLoad f => f.wf
  | .jigGo f => f.wf
  | .jigStop f => f.wf
  | .jigStat f => f.wf
  | .wmSet f => f.wf
  | .wmRd f => f.wf
  | .clSend f => f.wf
  | .clChk f => f.wf
  | .chPut f => f.wf
  | .chGet f => f.wf
  | .chRed f => f.wf
  | .chStat f => f.wf
  | .splGrp f => f.wf
  | .splRst f => f.wf
  | .splLdr f => f.wf
  | .splStat f => f.wf
  | .ringSet f => f.wf
  | .ringNext f => f.wf
  | .ringSkip f => f.wf
  | .ringRd f => f.wf
  | .anchor f => f.wf
  | .mlatch f => f.wf
  | .slipchk f => f.wf
  | .fcnt f => f.wf
  | .seql f => f.wf
  | .seqlRead f => f.wf
  | .bhalt f => f.wf
  | .pause f => f.wf
  | .bhdr f => f.wf
  | .trap f => f.wf
  | .sysrd f => f.wf
  | .syswr f => f.wf
  | .eret f => f.wf
  | .ext f => f.wf
  | .segmentReady b => decide (b < 256)
  | .blockRelease e => decide (e < 4096)
  | .anchorLate b => decide (b < 256)
  | .holdEnd => true
  | .holdTimeout => true
  | .resultLanding b => decide (b < 256)
  | .matrixResultLanding b => decide (b < 256)
  | .latchLanding b => decide (b < 256)
  | .copyGranuleRequest b _ => decide (b < 256)
  | .frameSlotStart k => decide (k < 12)
  | .copyLanding b _ => decide (b < 256)
  | .eccRereadComplete b _ _ => decide (b < 256)
  | .channelEntryLanding ch arriving => decide (ch < 64) && arriving.all (fun e => decide (e.2 < 2 ^ 1024))
  | .lpassLanding b => decide (b < 256)
  | .winnowCopyLanding b => decide (b < 256)
  | .jigIteration b => decide (b < 256)
  | .mortiseOpen m => decide (m < 64)
  | .mortiseClose m => decide (m < 64)
  | .holdLatch m => decide (m < 64)
  | .frameLaunchSetup q => decide (128 ≤ q) && decide (q < 132)
  | .frameLaunchComplete => true
  | .framePause => true
  | .nopause => true
  | .launchRecordReady _ => true
  | .dispatchStep die => decide (die < 2)
  | .priorityAgeing _ => true
  | .deferralExpiry _ => true
  | .weaveLaunchComplete _ => true
  | .storeBufferDrain core => decide (core < 1024)
  | .weavePortAccess b => decide (b < 256)
  | .wfeWake c => decide (c < 16384)
  | .wfeTimeout c => decide (c < 16384)
  | .yieldResume c => decide (c < 16384)
  | .pipeStallResume c => decide (c < 16384)
  | .hjoinWake c => decide (c < 16384)
  | .gwaitWake c => decide (c < 16384)
  | .waitevWake c => decide (c < 16384)
  | .barWaitWake c => decide (c < 16384)
  | .ldsFillWake c => decide (c < 16384)
  | .watermarkStallResume c => decide (c < 16384)
  | .engineSlotFree c => decide (c < 16384)
  | .splPendingWake c => decide (c < 16384)
  | .rmaWaitWake c => decide (c < 16384)
  | .replayExecution c => decide (c < 16384)
  | .bteCopyPart cl _ => decide (cl < 128)
  | .bteCopyComplete cl _ => decide (cl < 128)
  | .rmaCompletion _ status data => decide (status < 256) && data.all (fun v => decide (v < 256))
  | .rmaIncomingRequest rq => rq.wf
  | .rmaSendMatch conn tag data => decide (conn < 16777216) && decide (tag < 18446744073709551616) && data.all (fun v => decide (v < 256))
  | .rmaSendRetry _ => true
  | .connectionContextFetch conn _ => decide (conn < 16777216)
  | .switchContribution cb => cb.wf
  | .switchGroupTimeout gid sq => decide (gid < 65536) && decide (sq < 4294967296)
  | .splResultArrival gr gid sq data => decide (gr < 64) && decide (gid < 65536) && decide (sq < 4294967296) && data.all (fun v => decide (v < 4294967296))
  | .collectiveOrder gr gid sq => decide (gr < 64) && decide (gid < 65536) && decide (sq < 4294967296)
  | .shootdownRange die asid ectr npages => decide (die < 2) && decide (asid < 4096) && decide (ectr < 4096) && decide (npages < 4294967296)
  | .shootdownAsid die asid ectr => decide (die < 2) && decide (asid < 4096) && decide (ectr < 4096)
  | .shootdownAll die ectr => decide (die < 2) && decide (ectr < 4096)
  | .shootdownComplete die => decide (die < 2)
  | .eventCounterWrite n v => decide (n < 4096) && decide (v < 18446744073709551616)
  | .queueDoorbell q v => decide (q < 132) && decide (v < 4294967296)
  | .queueEnable q v => decide (q < 132) && decide (v < 18446744073709551616)
  | .queueArm q v => decide (q < 132) && decide (v < 2048)
  | .completionHeadWrite q v => decide (q < 132) && decide (v < 4294967296)
  | .preempt q save => decide (q < 132) && decide (save < 1152921504606846976)
  | .resume q save => decide (q < 132) && decide (save < 1152921504606846976)
  | .destroy q => decide (q < 132)
  | .destroyForce q => decide (q < 132)
  | .roleHalt _ role => decide (role < 8)
  | .gangSave _ => true
  | .completionEntryWrite q => decide (q < 132)
  | .interruptWindowClose q => decide (q < 132)
  | .connectionOpen asid conn => decide (asid < 4096) && decide (conn < 16777216)
  | .connectionClose asid conn => decide (asid < 4096) && decide (conn < 16777216)
  | .companderTableWrite t w v => decide (t < 16) && decide (w < 34) && decide (v < 4294967296)
  | .pcapWrite v => decide (v < 18446744073709551616)
  | .frameClockRequest r => decide (r.1 < 18446744073709551616) && r.2.all (fun p => decide (p < 131072))
  | .frameClockChange => true
  | .registerWrite off v => decide (off < 16777216) && decide (v < 18446744073709551616)
  | .ebudgetUpdate die => decide (die < 2)
  | .lifetimeRecordUpdate => true
  | .orderlyPowerDown => true
  | .boot _ => true
  | .alignGo members dtag => decide (members < 128) && decide (dtag < 4294967296)
  | .alignDissolve members => decide (members < 128)
  | .alignmentTimeout => true
  | .alignReadyNotice pkg dtag flen nframes => decide (pkg < 131072) && decide (dtag < 4294967296) && decide (flen < 4294967296) && decide (nframes < 9223372036854775809)
  | .startInstantNotice _ => true
  | .alignedStart => true
  | .holdNotice _ _ port => decide (port < 144)
  | .remoteHold => true
  | .faultNotice _ port => decide (port < 144)
  | .preemptForward p save _ => decide (p < 2 ^ 64) && decide (save < 1152921504606846976)
  | .linkReplay e => decide (e.1 < 64)
  | .portRetrain k => decide (k < 144)
  | .illegalEncoding c => decide (c < 16384)
  | .fetchNonexec c => decide (c < 16384)
  | .link conn => decide (conn < 16777216)
  | .powerLoss => true
  | .hostAccess acc => acc.wf
  | .contributionResend gr => decide (gr < 64)
  | .groupIncomplete gr gid sq => decide (gr < 64) && decide (gid < 65536) && decide (sq < 4294967296)
  | .translationEviction where_ _ => decide (where_ < 1153)
  | .cacheLineEviction where_ _ => decide (where_ < 1026)
  | .alignmentDone answers _ ports => answers.all (fun a => decide (a.1 < 131072) && decide (a.2.1 < 128) && decide (a.2.2 < 4294967296)) &&
      ports.all AlignedPort.wf
  | .ueLinkRetrain p => decide (p < 8)
  | .frameStart => true

end Sys2Proof
end

