-- ==== Sys2Proof/Decode.lean ====
section
/-! DEFINITION. The decoder, from a 32-bit syllable to an instruction or a named rejection (R59, R68, R69), the encoder
written from the same encoding tables, and the host's entry `decodeTableWord`. -/

namespace Sys2Proof

/-- Bits `lo` up to `lo + n - 1` of a word. -/
def fld (w lo n : Nat) : Nat := w / 2 ^ lo % 2 ^ n

/-- Why a word is no instruction: a reserved major or minor of R68 and R69, or a field that the form leaves unused and
that does not hold 0 (R80, R133, R186). -/
inductive DecodeError where
  | reservedMajor (maj : Nat)
  | reservedMinor (maj x : Nat)
  | unusedField (maj x : Nat)
  deriving DecidableEq, Repr

/-- The fields of a Tri syllable. -/
def Tri.get (w : Nat) : Tri := ⟨fld w 31 1, fld w 20 4, fld w 14 6, fld w 8 6, fld w 2 6⟩

/-- The fields of a Bin syllable. -/
def Bin.get (w : Nat) : Bin := ⟨fld w 31 1, fld w 20 4, fld w 14 6, fld w 8 6⟩

/-- The fields of a Imm8 syllable. -/
def Imm8.get (w : Nat) : Imm8 := ⟨fld w 31 1, fld w 20 4, fld w 14 6, fld w 8 6, fld w 0 8⟩

/-- The fields of a Wide syllable. -/
def Wide.get (w : Nat) : Wide := ⟨fld w 31 1, fld w 20 4, fld w 14 6, fld w 0 14⟩

/-- The fields of a Imm6 syllable. -/
def Imm6.get (w : Nat) : Imm6 := ⟨fld w 31 1, fld w 20 4, fld w 14 6, fld w 8 6, fld w 2 6⟩

/-- The fields of a Lea syllable. -/
def Lea.get (w : Nat) : Lea := ⟨fld w 31 1, fld w 20 4, fld w 14 6, fld w 8 6, fld w 2 6, fld w 0 2⟩

/-- The fields of a Jump syllable. -/
def Jump.get (w : Nat) : Jump := ⟨fld w 31 1, fld w 20 4, fld w 0 20⟩

/-- The fields of a UnA syllable. -/
def UnA.get (w : Nat) : UnA := ⟨fld w 31 1, fld w 20 4, fld w 8 6⟩

/-- The fields of a Loopk syllable. -/
def Loopk.get (w : Nat) : Loopk := ⟨fld w 31 1, fld w 14 3, fld w 8 6, fld w 0 8⟩

/-- The fields of a Bare syllable. -/
def Bare.get (w : Nat) : Bare := ⟨fld w 31 1⟩

/-- The fields of a AImm syllable. -/
def AImm.get (w : Nat) : AImm := ⟨fld w 31 1, fld w 20 4, fld w 8 6, fld w 2 6⟩

/-- The fields of a UnB syllable. -/
def UnB.get (w : Nat) : UnB := ⟨fld w 31 1, fld w 20 4, fld w 2 6⟩

/-- The fields of a Local syllable. -/
def Local.get (w : Nat) : Local := ⟨fld w 31 1, fld w 20 4, fld w 14 6, fld w 8 6, fld w 2 6, fld w 0 2⟩

/-- The fields of a UnD syllable. -/
def UnD.get (w : Nat) : UnD := ⟨fld w 31 1, fld w 20 4, fld w 14 6⟩

/-- The fields of a AB syllable. -/
def AB.get (w : Nat) : AB := ⟨fld w 31 1, fld w 20 4, fld w 8 6, fld w 2 6⟩

/-- The fields of a Repf syllable. -/
def Repf.get (w : Nat) : Repf := ⟨fld w 31 1, fld w 20 4, fld w 14 3, fld w 8 6, fld w 4 4, fld w 2 2⟩

/-- The fields of a Nul syllable. -/
def Nul.get (w : Nat) : Nul := ⟨fld w 31 1, fld w 20 4⟩

/-- The fields of a BinH2 syllable. -/
def BinH2.get (w : Nat) : BinH2 := ⟨fld w 31 1, fld w 20 4, fld w 14 6, fld w 8 6, fld w 2 1⟩

/-- The fields of a BinH7 syllable. -/
def BinH7.get (w : Nat) : BinH7 := ⟨fld w 31 1, fld w 20 4, fld w 14 6, fld w 8 6, fld w 7 1⟩

/-- The fields of a CvtHR syllable. -/
def CvtHR.get (w : Nat) : CvtHR := ⟨fld w 31 1, fld w 20 4, fld w 14 6, fld w 8 6, fld w 7 1, fld w 2 3⟩

/-- The fields of a CvtR syllable. -/
def CvtR.get (w : Nat) : CvtR := ⟨fld w 31 1, fld w 20 4, fld w 14 6, fld w 8 6, fld w 2 3⟩

/-- The fields of a BinN syllable. -/
def BinN.get (w : Nat) : BinN := ⟨fld w 31 1, fld w 20 4, fld w 14 6, fld w 8 6, fld w 2 6⟩

/-- The fields of a GuardN syllable. -/
def GuardN.get (w : Nat) : GuardN := ⟨fld w 31 1, fld w 20 4, fld w 14 4, fld w 8 6, fld w 2 6⟩

/-- The fields of a Mm syllable. -/
def Mm.get (w : Nat) : Mm := ⟨fld w 31 1, fld w 20 4, fld w 14 4, fld w 8 6, fld w 7 1, fld w 2 3⟩

/-- The fields of a BinN2 syllable. -/
def BinN2.get (w : Nat) : BinN2 := ⟨fld w 31 1, fld w 20 4, fld w 14 6, fld w 8 6, fld w 2 1⟩

/-- The fields of a HandleD syllable. -/
def HandleD.get (w : Nat) : HandleD := ⟨fld w 31 1, fld w 20 4, fld w 14 4⟩

/-- The fields of a HandleRd syllable. -/
def HandleRd.get (w : Nat) : HandleRd := ⟨fld w 31 1, fld w 20 4, fld w 14 6, fld w 8 4, fld w 2 6⟩

/-- The fields of a HandleAB syllable. -/
def HandleAB.get (w : Nat) : HandleAB := ⟨fld w 31 1, fld w 20 4, fld w 14 4, fld w 8 6, fld w 2 6⟩

/-- The fields of a OsmUpd syllable. -/
def OsmUpd.get (w : Nat) : OsmUpd := ⟨fld w 31 1, fld w 20 4, fld w 14 4, fld w 8 4, fld w 2 6⟩

/-- The fields of a OsmMrg syllable. -/
def OsmMrg.get (w : Nat) : OsmMrg := ⟨fld w 31 1, fld w 20 4, fld w 14 4, fld w 8 4⟩

/-- The fields of a Lload syllable. -/
def Lload.get (w : Nat) : Lload := ⟨fld w 31 1, fld w 20 4, fld w 8 6, fld w 2 3⟩

/-- The fields of a DB syllable. -/
def DB.get (w : Nat) : DB := ⟨fld w 31 1, fld w 20 4, fld w 14 6, fld w 2 6⟩

/-- The fields of a BarWait syllable. -/
def BarWait.get (w : Nat) : BarWait := ⟨fld w 31 1, fld w 20 4, fld w 8 6, fld w 2 1⟩

/-- The fields of a BarTest syllable. -/
def BarTest.get (w : Nat) : BarTest := ⟨fld w 31 1, fld w 20 4, fld w 14 6, fld w 8 6, fld w 2 1⟩

/-- The fields of a Anchor syllable. -/
def Anchor.get (w : Nat) : Anchor := ⟨fld w 31 1, fld w 2 6⟩

/-- The fields of a DImm syllable. -/
def DImm.get (w : Nat) : DImm := ⟨fld w 31 1, fld w 20 4, fld w 14 6, fld w 2 6⟩

/-- The fields of a SeqlWr syllable. -/
def SeqlWr.get (w : Nat) : SeqlWr := ⟨fld w 31 1, fld w 20 4, fld w 14 3, fld w 8 6⟩

/-- The fields of a SeqlRd syllable. -/
def SeqlRd.get (w : Nat) : SeqlRd := ⟨fld w 31 1, fld w 20 4, fld w 14 6, fld w 8 3⟩

/-- The fields of a Pause syllable. -/
def Pause.get (w : Nat) : Pause := ⟨fld w 31 1, fld w 2 18⟩

/-- The fields of a Bhdr syllable. -/
def Bhdr.get (w : Nat) : Bhdr := ⟨fld w 31 1, fld w 16 8, fld w 14 2, fld w 12 2, fld w 11 1, fld w 10 1, fld w 2 8⟩

/-- The fields of a TrapImm syllable. -/
def TrapImm.get (w : Nat) : TrapImm := ⟨fld w 31 1, fld w 20 4, fld w 2 6⟩

/-- The fields of a ExtImm syllable. -/
def ExtImm.get (w : Nat) : ExtImm := ⟨fld w 0 24⟩

/-- The instruction a well-filled word of major `maj` holds; `x` is its minor, bits [1:0]. -/
noncomputable def decodeFields (maj x w : Nat) : Except DecodeError Instr :=
  match maj with
  | 0 => match x with
    | 0 => .ok (.add (Tri.get w))
    | 1 => .ok (.sub (Tri.get w))
    | 2 => .ok (.addw (Tri.get w))
    | _ => .ok (.subw (Tri.get w))
  | 1 => match x with
    | 0 => .ok (.and_ (Tri.get w))
    | 1 => .ok (.or_ (Tri.get w))
    | 2 => .ok (.xor_ (Tri.get w))
    | _ => .ok (.andn (Tri.get w))
  | 2 => match x with
    | 0 => .ok (.shl (Tri.get w))
    | 1 => .ok (.shr (Tri.get w))
    | 2 => .ok (.sar (Tri.get w))
    | _ => .ok (.rot (Tri.get w))
  | 3 => match x with
    | 0 => .ok (.mul (Tri.get w))
    | 1 => .ok (.mulh (Tri.get w))
    | 2 => .ok (.mulhu (Tri.get w))
    | _ => .ok (.mulw (Tri.get w))
  | 4 => match x with
    | 0 => .ok (.div (Tri.get w))
    | 1 => .ok (.divu (Tri.get w))
    | 2 => .ok (.rem (Tri.get w))
    | _ => .ok (.remu (Tri.get w))
  | 5 => match x with
    | 0 => .ok (.min_ (Tri.get w))
    | 1 => .ok (.max_ (Tri.get w))
    | 2 => .ok (.minu (Tri.get w))
    | _ => .ok (.maxu (Tri.get w))
  | 6 => match x with
    | 0 => .ok (.seq (Tri.get w))
    | 1 => .ok (.slt (Tri.get w))
    | 2 => .ok (.sltu (Tri.get w))
    | _ => .ok (.sne (Tri.get w))
  | 7 => match x with
    | 0 => if fld w 2 6 == 0 then .ok (.clz (Bin.get w)) else .error (.unusedField maj x)
    | 1 => if fld w 2 6 == 0 then .ok (.ctz (Bin.get w)) else .error (.unusedField maj x)
    | 2 => if fld w 2 6 == 0 then .ok (.popc (Bin.get w)) else .error (.unusedField maj x)
    | _ => if fld w 2 6 == 0 then .ok (.brev (Bin.get w)) else .error (.unusedField maj x)
  | 8 => .ok (.addi (Imm8.get w))
  | 9 => .ok (.andi (Imm8.get w))
  | 10 => .ok (.ori (Imm8.get w))
  | 11 => .ok (.xori (Imm8.get w))
  | 12 => .ok (.shli (Imm8.get w))
  | 13 => .ok (.shri (Imm8.get w))
  | 14 => .ok (.sari (Imm8.get w))
  | 15 => .ok (.slti (Imm8.get w))
  | 16 => .ok (.sltiu (Imm8.get w))
  | 17 => .ok (.li (Wide.get w))
  | 18 => .ok (.lih (Wide.get w))
  | 19 => match x with
    | 0 => .ok (.cmpEq (Tri.get w))
    | 1 => .ok (.cmpLt (Tri.get w))
    | 2 => .ok (.cmpLtu (Tri.get w))
    | _ => .ok (.cmpNe (Tri.get w))
  | 20 => match x with
    | 0 => .ok (.cmpiEq (Imm6.get w))
    | 1 => .ok (.cmpiLt (Imm6.get w))
    | 2 => .ok (.cmpiLtu (Imm6.get w))
    | _ => .ok (.cmpiNe (Imm6.get w))
  | 21 => match x with
    | 0 => .ok (.pand (Tri.get w))
    | 1 => .ok (.por (Tri.get w))
    | 2 => .ok (.pxor (Tri.get w))
    | _ => if fld w 2 6 == 0 then .ok (.pnot (Bin.get w)) else .error (.unusedField maj x)
  | 22 => match x with
    | 0 => .ok (.sel (Tri.get w))
    | _ => .error (.reservedMinor maj x)
  | 23 => .ok (.lea (Lea.get w))
  | 24 => match x with
    | 0 => .ok (.extr (Imm6.get w))
    | 1 => .ok (.ins (Imm6.get w))
    | _ => .error (.reservedMinor maj x)
  | 32 => .ok (.br (Jump.get w))
  | 33 => .ok (.call (Jump.get w))
  | 34 => match x with
    | 0 => if fld w 2 6 == 0 && fld w 14 6 == 0 then .ok (.jr (UnA.get w)) else .error (.unusedField maj x)
    | 1 => if fld w 2 6 == 0 then .ok (.jalr (Bin.get w)) else .error (.unusedField maj x)
    | 2 => if fld w 2 6 == 0 && fld w 14 6 == 0 then .ok (.ret (UnA.get w)) else .error (.unusedField maj x)
    | _ => .error (.reservedMinor maj x)
  | 35 => if fld w 17 7 == 0 then .ok (.loopk (Loopk.get w)) else .error (.unusedField maj x)
  | 36 => match x with
    | 0 => if fld w 2 22 == 0 then .ok (.loope (Bare.get w)) else .error (.unusedField maj x)
    | _ => .error (.reservedMinor maj x)
  | 37 => match x with
    | 0 => .ok (.wfe (Tri.get w))
    | _ => .error (.reservedMinor maj x)
  | 40 => match x with
    | 0 => .ok (.ldB (Imm6.get w))
    | 1 => .ok (.ldH (Imm6.get w))
    | 2 => .ok (.ldW (Imm6.get w))
    | _ => .ok (.ldD (Imm6.get w))
  | 41 => match x with
    | 0 => .ok (.lduB (Imm6.get w))
    | 1 => .ok (.lduH (Imm6.get w))
    | 2 => .ok (.lduW (Imm6.get w))
    | _ => .error (.reservedMinor maj x)
  | 42 => match x with
    | 0 => .ok (.stB (Imm6.get w))
    | 1 => .ok (.stH (Imm6.get w))
    | 2 => .ok (.stW (Imm6.get w))
    | _ => .ok (.stD (Imm6.get w))
  | 43 => match x with
    | 0 => .ok (.ldy (Imm6.get w))
    | 1 => .ok (.sty (Imm6.get w))
    | 2 => .ok (.ldyb (Imm6.get w))
    | _ => .ok (.ldyf (Imm6.get w))
  | 44 => match x with
    | 0 => .ok (.ldsW (Imm6.get w))
    | 1 => .ok (.ldsD (Imm6.get w))
    | 2 => .ok (.ldseW (Imm6.get w))
    | _ => .ok (.ldseD (Imm6.get w))
  | 45 => match x with
    | 0 => .ok (.stfW (Imm6.get w))
    | 1 => .ok (.stfD (Imm6.get w))
    | 2 => if fld w 14 6 == 0 then .ok (.sete (AImm.get w)) else .error (.unusedField maj x)
    | _ => .error (.reservedMinor maj x)
  | 46 => match x with
    | 0 => .ok (.aadd (Tri.get w))
    | 1 => .ok (.aand (Tri.get w))
    | 2 => .ok (.aor (Tri.get w))
    | _ => .ok (.axor (Tri.get w))
  | 47 => match x with
    | 0 => .ok (.aswp (Tri.get w))
    | 1 => .ok (.acas (Tri.get w))
    | 2 => .ok (.amax (Tri.get w))
    | _ => .ok (.amin (Tri.get w))
  | 48 => match x with
    | 0 => if fld w 8 12 == 0 then .ok (.fenceAcq (UnB.get w)) else .error (.unusedField maj x)
    | 1 => if fld w 8 12 == 0 then .ok (.fenceRel (UnB.get w)) else .error (.unusedField maj x)
    | 2 => if fld w 8 12 == 0 then .ok (.fenceSc (UnB.get w)) else .error (.unusedField maj x)
    | _ => if fld w 8 12 == 0 then .ok (.tfence (UnB.get w)) else .error (.unusedField maj x)
  | 49 => match x with
    | 0 => .ok (.cflush (Imm6.get w))
    | 1 => .ok (.cinv (Imm6.get w))
    | 2 => .ok (.cpref (Imm6.get w))
    | _ => .error (.reservedMinor maj x)
  | 50 => .ok (.ldl (Local.get w))
  | 51 => .ok (.stl (Local.get w))
  | 52 => .ok (.ldld (Local.get w))
  | 53 => .ok (.stld (Local.get w))
  | 56 => match x with
    | 0 => .ok (.hstart (Tri.get w))
    | 1 => if fld w 2 6 == 0 && fld w 14 6 == 0 then .ok (.hjoin (UnA.get w)) else .error (.unusedField maj x)
    | 2 => if fld w 2 6 == 0 && fld w 14 6 == 0 then .ok (.hkill (UnA.get w)) else .error (.unusedField maj x)
    | _ => if fld w 2 12 == 0 then .ok (.hself (UnD.get w)) else .error (.unusedField maj x)
  | 57 => match x with
    | 0 => if fld w 2 6 == 0 then .ok (.qpeek (Bin.get w)) else .error (.unusedField maj x)
    | 1 => if fld w 2 6 == 0 then .ok (.qdepth (Bin.get w)) else .error (.unusedField maj x)
    | 2 => if fld w 2 6 == 0 && fld w 14 6 == 0 then .ok (.qclose (UnA.get w)) else .error (.unusedField maj x)
    | _ => .ok (.qdrop (Tri.get w))
  | 58 => match x with
    | 0 => .ok (.gbar (Tri.get w))
    | 1 => .ok (.garrive (Tri.get w))
    | 2 => if fld w 14 6 == 0 then .ok (.gwait (AB.get w)) else .error (.unusedField maj x)
    | _ => if fld w 2 12 == 0 then .ok (.grank (UnD.get w)) else .error (.unusedField maj x)
  | 59 => match x with
    | 0 => if fld w 17 3 == 0 then .ok (.repf (Repf.get w)) else .error (.unusedField maj x)
    | _ => .error (.reservedMinor maj x)
  | 60 => match x with
    | 0 => if fld w 2 18 == 0 then .ok (.done (Nul.get w)) else .error (.unusedField maj x)
    | 1 => if fld w 14 6 == 0 then .ok (.signal (AB.get w)) else .error (.unusedField maj x)
    | 2 => if fld w 2 18 == 0 then .ok (.yield (Nul.get w)) else .error (.unusedField maj x)
    | _ => .ok (.waitev (Tri.get w))
  | 61 => match x with
    | 0 => if fld w 14 6 == 0 then .ok (.tenonV (AB.get w)) else .error (.unusedField maj x)
    | 1 => if fld w 14 6 == 0 then .ok (.tenonW (AB.get w)) else .error (.unusedField maj x)
    | 2 => if fld w 2 6 == 0 then .ok (.tenonQ (Bin.get w)) else .error (.unusedField maj x)
    | _ => .error (.reservedMinor maj x)
  | 62 => match x with
    | 0 => if fld w 2 6 == 0 then .ok (.rmaPut (Bin.get w)) else .error (.unusedField maj x)
    | 1 => if fld w 2 6 == 0 then .ok (.rmaGet (Bin.get w)) else .error (.unusedField maj x)
    | 2 => if fld w 2 6 == 0 then .ok (.rmaFlush (Bin.get w)) else .error (.unusedField maj x)
    | _ => .ok (.rmaArm (Tri.get w))
  | 63 => match x with
    | 0 => if fld w 2 6 == 0 then .ok (.rmaAmo (Bin.get w)) else .error (.unusedField maj x)
    | 1 => if fld w 2 6 == 0 then .ok (.rmaWait (Bin.get w)) else .error (.unusedField maj x)
    | 2 => if fld w 2 6 == 0 then .ok (.rmaSend (Bin.get w)) else .error (.unusedField maj x)
    | _ => .error (.reservedMinor maj x)
  | 64 => match x with
    | 0 => .ok (.yaddF32 (Tri.get w))
    | 1 => .ok (.ysubF32 (Tri.get w))
    | 2 => .ok (.ymulF32 (Tri.get w))
    | _ => .ok (.yfmaF32 (Tri.get w))
  | 65 => match x with
    | 0 => .ok (.yaddBf16 (Tri.get w))
    | 1 => .ok (.ysubBf16 (Tri.get w))
    | 2 => .ok (.ymulBf16 (Tri.get w))
    | _ => .ok (.yfmaBf16 (Tri.get w))
  | 66 => match x with
    | 0 => .ok (.yaddI32 (Tri.get w))
    | 1 => .ok (.ysubI32 (Tri.get w))
    | 2 => .ok (.ymulI32 (Tri.get w))
    | _ => .ok (.ymacI32 (Tri.get w))
  | 67 => match x with
    | 0 => .ok (.yminF32 (Tri.get w))
    | 1 => .ok (.ymaxF32 (Tri.get w))
    | 2 => .ok (.yminI32 (Tri.get w))
    | _ => .ok (.ymaxI32 (Tri.get w))
  | 68 => match x with
    | 0 => .ok (.ycvtBf16F32 (Tri.get w))
    | 1 => if fld w 3 5 == 0 then .ok (.ycvtF32Bf16 (BinH2.get w)) else .error (.unusedField maj x)
    | 2 => if fld w 2 6 == 0 then .ok (.ycvtI32F32 (Bin.get w)) else .error (.unusedField maj x)
    | _ => if fld w 2 6 == 0 then .ok (.ycvtF32I32 (Bin.get w)) else .error (.unusedField maj x)
  | 69 => match x with
    | 0 => .ok (.yand (Tri.get w))
    | 1 => .ok (.yor (Tri.get w))
    | 2 => .ok (.yxor (Tri.get w))
    | _ => .ok (.yshf (Tri.get w))
  | 70 => match x with
    | 0 => if fld w 2 6 == 0 then .ok (.yrsumF32 (Bin.get w)) else .error (.unusedField maj x)
    | 1 => if fld w 2 6 == 0 then .ok (.yrmaxF32 (Bin.get w)) else .error (.unusedField maj x)
    | 2 => if fld w 2 6 == 0 then .ok (.yrsumI32 (Bin.get w)) else .error (.unusedField maj x)
    | _ => if fld w 2 6 == 0 then .ok (.yrmaxI32 (Bin.get w)) else .error (.unusedField maj x)
  | 71 => match x with
    | 0 => if fld w 2 6 == 0 then .ok (.ybcast (Bin.get w)) else .error (.unusedField maj x)
    | 1 => .ok (.yext (Tri.get w))
    | 2 => .ok (.yins (Tri.get w))
    | _ => .ok (.ysel (Tri.get w))
  | 80 => match x with
    | 0 => .ok (.vaddF32 (Tri.get w))
    | 1 => .ok (.vsubF32 (Tri.get w))
    | 2 => .ok (.vmulF32 (Tri.get w))
    | _ => .ok (.vfmaF32 (Tri.get w))
  | 81 => match x with
    | 0 => .ok (.vminF32 (Tri.get w))
    | 1 => .ok (.vmaxF32 (Tri.get w))
    | 2 => if fld w 2 6 == 0 then .ok (.vabsF32 (Bin.get w)) else .error (.unusedField maj x)
    | _ => if fld w 2 6 == 0 then .ok (.vnegF32 (Bin.get w)) else .error (.unusedField maj x)
  | 82 => match x with
    | 0 => .ok (.vaddBf16 (Tri.get w))
    | 1 => .ok (.vsubBf16 (Tri.get w))
    | 2 => .ok (.vmulBf16 (Tri.get w))
    | _ => .ok (.vfmaBf16 (Tri.get w))
  | 83 => match x with
    | 0 => .ok (.vminBf16 (Tri.get w))
    | 1 => .ok (.vmaxBf16 (Tri.get w))
    | 2 => if fld w 2 6 == 0 then .ok (.vabsBf16 (Bin.get w)) else .error (.unusedField maj x)
    | _ => if fld w 2 6 == 0 then .ok (.vnegBf16 (Bin.get w)) else .error (.unusedField maj x)
  | 84 => match x with
    | 0 => .ok (.vaddF16 (Tri.get w))
    | 1 => .ok (.vsubF16 (Tri.get w))
    | 2 => .ok (.vmulF16 (Tri.get w))
    | _ => .ok (.vfmaF16 (Tri.get w))
  | 85 => match x with
    | 0 => .ok (.vminF16 (Tri.get w))
    | 1 => .ok (.vmaxF16 (Tri.get w))
    | 2 => if fld w 2 6 == 0 then .ok (.vabsF16 (Bin.get w)) else .error (.unusedField maj x)
    | _ => if fld w 2 6 == 0 then .ok (.vnegF16 (Bin.get w)) else .error (.unusedField maj x)
  | 86 => match x with
    | 0 => .ok (.vaddI32 (Tri.get w))
    | 1 => .ok (.vsubI32 (Tri.get w))
    | 2 => .ok (.vmulI32 (Tri.get w))
    | _ => .ok (.vmacI32 (Tri.get w))
  | 87 => match x with
    | 0 => .ok (.vminI32 (Tri.get w))
    | 1 => .ok (.vmaxI32 (Tri.get w))
    | 2 => if fld w 2 6 == 0 then .ok (.vabsI32 (Bin.get w)) else .error (.unusedField maj x)
    | _ => if fld w 2 6 == 0 then .ok (.vnegI32 (Bin.get w)) else .error (.unusedField maj x)
  | 88 => match x with
    | 0 => .ok (.vaddI16 (Tri.get w))
    | 1 => .ok (.vsubI16 (Tri.get w))
    | 2 => .ok (.vmulI16 (Tri.get w))
    | _ => .ok (.vmacI16 (Tri.get w))
  | 89 => match x with
    | 0 => .ok (.vminI16 (Tri.get w))
    | 1 => .ok (.vmaxI16 (Tri.get w))
    | 2 => if fld w 2 6 == 0 then .ok (.vabsI16 (Bin.get w)) else .error (.unusedField maj x)
    | _ => if fld w 2 6 == 0 then .ok (.vnegI16 (Bin.get w)) else .error (.unusedField maj x)
  | 90 => match x with
    | 0 => .ok (.vaddI8 (Tri.get w))
    | 1 => .ok (.vsubI8 (Tri.get w))
    | 2 => .ok (.vmulI8 (Tri.get w))
    | _ => .ok (.vmacI8 (Tri.get w))
  | 91 => match x with
    | 0 => .ok (.vminI8 (Tri.get w))
    | 1 => .ok (.vmaxI8 (Tri.get w))
    | 2 => if fld w 2 6 == 0 then .ok (.vabsI8 (Bin.get w)) else .error (.unusedField maj x)
    | _ => if fld w 2 6 == 0 then .ok (.vnegI8 (Bin.get w)) else .error (.unusedField maj x)
  | 92 => match x with
    | 0 => if fld w 2 5 == 0 then .ok (.vcvtF32Bf16 (BinH7.get w)) else .error (.unusedField maj x)
    | 1 => if fld w 2 5 == 0 then .ok (.vcvtF32F16 (BinH7.get w)) else .error (.unusedField maj x)
    | 2 => if fld w 5 2 == 0 then .ok (.vcvtBf16F32 (CvtHR.get w)) else .error (.unusedField maj x)
    | _ => if fld w 5 2 == 0 then .ok (.vcvtF16F32 (CvtHR.get w)) else .error (.unusedField maj x)
  | 93 => match x with
    | 0 => if fld w 5 3 == 0 then .ok (.vcvtF32I32 (CvtR.get w)) else .error (.unusedField maj x)
    | 1 => if fld w 5 3 == 0 then .ok (.vcvtI32F32 (CvtR.get w)) else .error (.unusedField maj x)
    | 2 => if fld w 2 5 == 0 then .ok (.vcvtI16I32 (BinH7.get w)) else .error (.unusedField maj x)
    | _ => if fld w 2 5 == 0 then .ok (.vcvtI8I16 (BinH7.get w)) else .error (.unusedField maj x)
  | 94 => match x with
    | 0 => .ok (.vqnt (Tri.get w))
    | 1 => .ok (.vdq (Tri.get w))
    | 2 => .ok (.vscl (Tri.get w))
    | _ => .ok (.vcomp (Tri.get w))
  | 95 => match x with
    | 0 => if fld w 2 6 == 0 then .ok (.vexp2 (Bin.get w)) else .error (.unusedField maj x)
    | 1 => if fld w 2 6 == 0 then .ok (.vrcp (Bin.get w)) else .error (.unusedField maj x)
    | 2 => if fld w 2 6 == 0 then .ok (.vrsq (Bin.get w)) else .error (.unusedField maj x)
    | _ => if fld w 2 6 == 0 then .ok (.vlog2 (Bin.get w)) else .error (.unusedField maj x)
  | 96 => match x with
    | 0 => .ok (.vcmpEqF32 (Tri.get w))
    | 1 => .ok (.vcmpLtF32 (Tri.get w))
    | 2 => .ok (.vcmpLeF32 (Tri.get w))
    | _ => .ok (.vcmpNeF32 (Tri.get w))
  | 97 => match x with
    | 0 => .ok (.vcmpEqI32 (Tri.get w))
    | 1 => .ok (.vcmpLtI32 (Tri.get w))
    | 2 => .ok (.vcmpLeI32 (Tri.get w))
    | _ => .ok (.vcmpNeI32 (Tri.get w))
  | 98 => match x with
    | 0 => .ok (.vand (Tri.get w))
    | 1 => .ok (.vor (Tri.get w))
    | 2 => .ok (.vxor (Tri.get w))
    | _ => if fld w 2 6 == 0 then .ok (.vnot (Bin.get w)) else .error (.unusedField maj x)
  | 99 => match x with
    | 0 => .ok (.vshuf (Tri.get w))
    | 1 => .ok (.vrot (BinN.get w))
    | 2 => .ok (.vbcst (BinN.get w))
    | _ => .ok (.vtrn (Tri.get w))
  | 100 => match x with
    | 0 => .ok (.vsel (Tri.get w))
    | 1 => .ok (.vfill (BinN.get w))
    | 2 => .ok (.vmerge (Tri.get w))
    | _ => if fld w 18 2 == 0 then .ok (.vmask (GuardN.get w)) else .error (.unusedField maj x)
  | 101 => match x with
    | 0 => if fld w 2 6 == 0 then .ok (.vrsumF32 (Bin.get w)) else .error (.unusedField maj x)
    | 1 => if fld w 2 6 == 0 then .ok (.vrmaxF32 (Bin.get w)) else .error (.unusedField maj x)
    | 2 => if fld w 2 6 == 0 then .ok (.vrsumI32 (Bin.get w)) else .error (.unusedField maj x)
    | _ => if fld w 2 6 == 0 then .ok (.vrmaxI32 (Bin.get w)) else .error (.unusedField maj x)
  | 102 => match x with
    | 0 => .ok (.vld (Imm6.get w))
    | 1 => .ok (.vst (Imm6.get w))
    | 2 => .ok (.vldb (Imm6.get w))
    | _ => .ok (.vstm (Imm6.get w))
  | 103 => match x with
    | 0 => .ok (.vmova (BinN.get w))
    | 1 => if fld w 2 6 == 0 then .ok (.vmovv (Bin.get w)) else .error (.unusedField maj x)
    | 2 => if fld w 2 6 == 0 then .ok (.vsplat (Bin.get w)) else .error (.unusedField maj x)
    | _ => if fld w 2 6 == 0 then .ok (.viota (Bin.get w)) else .error (.unusedField maj x)
  | 104 => match x with
    | 0 => if fld w 5 2 == 0 && fld w 18 2 == 0 then .ok (.mmB8 (Mm.get w)) else .error (.unusedField maj x)
    | 1 => if fld w 5 2 == 0 && fld w 18 2 == 0 then .ok (.mmI8 (Mm.get w)) else .error (.unusedField maj x)
    | 2 => if fld w 5 2 == 0 && fld w 18 2 == 0 then .ok (.mmI4 (Mm.get w)) else .error (.unusedField maj x)
    | _ => if fld w 5 2 == 0 && fld w 18 2 == 0 then .ok (.mmBf16 (Mm.get w)) else .error (.unusedField maj x)
  | 105 => match x with
    | 0 => if fld w 5 2 == 0 && fld w 18 2 == 0 then .ok (.mmsB8 (Mm.get w)) else .error (.unusedField maj x)
    | 1 => if fld w 5 2 == 0 && fld w 18 2 == 0 then .ok (.mmsI8 (Mm.get w)) else .error (.unusedField maj x)
    | 2 => if fld w 5 2 == 0 && fld w 18 2 == 0 then .ok (.mmsBf16 (Mm.get w)) else .error (.unusedField maj x)
    | _ => if fld w 3 5 == 0 then .ok (.spsel (BinN2.get w)) else .error (.unusedField maj x)
  | 106 => match x with
    | 0 => if fld w 2 12 == 0 && fld w 18 2 == 0 then .ok (.arel (HandleD.get w)) else .error (.unusedField maj x)
    | 1 => if fld w 12 2 == 0 then .ok (.ard (HandleRd.get w)) else .error (.unusedField maj x)
    | 2 => if fld w 18 2 == 0 then .ok (.awr (HandleAB.get w)) else .error (.unusedField maj x)
    | _ => if fld w 2 12 == 0 && fld w 18 2 == 0 then .ok (.azero (HandleD.get w)) else .error (.unusedField maj x)
  | 107 => match x with
    | 0 => if fld w 12 2 == 0 && fld w 18 2 == 0 then .ok (.osmUpd (OsmUpd.get w)) else .error (.unusedField maj x)
    | 1 => if fld w 2 6 == 0 && fld w 12 2 == 0 && fld w 18 2 == 0 then .ok (.osmMrg (OsmMrg.get w)) else .error (.unusedField maj x)
    | 2 => if fld w 2 12 == 0 && fld w 18 2 == 0 then .ok (.osmFin (HandleD.get w)) else .error (.unusedField maj x)
    | _ => if fld w 2 12 == 0 && fld w 18 2 == 0 then .ok (.osmRst (HandleD.get w)) else .error (.unusedField maj x)
  | 108 => match x with
    | 0 => if fld w 5 3 == 0 && fld w 14 6 == 0 then .ok (.lload (Lload.get w)) else .error (.unusedField maj x)
    | 1 => if fld w 2 6 == 0 && fld w 14 6 == 0 then .ok (.lpass (UnA.get w)) else .error (.unusedField maj x)
    | 2 => if fld w 2 18 == 0 then .ok (.lswap (Nul.get w)) else .error (.unusedField maj x)
    | _ => if fld w 2 12 == 0 then .ok (.lstat (UnD.get w)) else .error (.unusedField maj x)
  | 109 => match x with
    | 0 => .ok (.vdot4I8 (Tri.get w))
    | 1 => .ok (.vdot4sI8 (Tri.get w))
    | 2 => .ok (.vdot2I16 (Tri.get w))
    | _ => .ok (.vdot2sI16 (Tri.get w))
  | 112 => match x with
    | 0 => if fld w 8 6 == 0 then .ok (.winSig (DB.get w)) else .error (.unusedField maj x)
    | 1 => if fld w 18 2 == 0 then .ok (.winCmp (HandleAB.get w)) else .error (.unusedField maj x)
    | 2 => if fld w 8 12 == 0 then .ok (.winSkip (UnB.get w)) else .error (.unusedField maj x)
    | _ => if fld w 14 6 == 0 then .ok (.winKeep (AB.get w)) else .error (.unusedField maj x)
  | 113 => match x with
    | 0 => if fld w 2 12 == 0 then .ok (.winStep (UnD.get w)) else .error (.unusedField maj x)
    | 1 => if fld w 8 6 == 0 then .ok (.winMap (DB.get w)) else .error (.unusedField maj x)
    | 2 => .ok (.winSet (Tri.get w))
    | _ => if fld w 2 6 == 0 && fld w 14 6 == 0 then .ok (.winClr (UnA.get w)) else .error (.unusedField maj x)
  | 116 => match x with
    | 0 => if fld w 2 6 == 0 then .ok (.cpyBox (Bin.get w)) else .error (.unusedField maj x)
    | 1 => if fld w 2 6 == 0 then .ok (.cpyMcast (Bin.get w)) else .error (.unusedField maj x)
    | 2 => if fld w 2 6 == 0 then .ok (.cpyRed (Bin.get w)) else .error (.unusedField maj x)
    | _ => .ok (.cpyLin (Tri.get w))
  | 117 => match x with
    | 0 => if fld w 14 6 == 0 then .ok (.barInit (AB.get w)) else .error (.unusedField maj x)
    | 1 => .ok (.barArrive (Tri.get w))
    | 2 => if fld w 3 5 == 0 && fld w 14 6 == 0 then .ok (.barWait (BarWait.get w)) else .error (.unusedField maj x)
    | _ => if fld w 3 5 == 0 then .ok (.barTest (BarTest.get w)) else .error (.unusedField maj x)
  | 118 => match x with
    | 0 => if fld w 2 6 == 0 && fld w 14 6 == 0 then .ok (.jigLoad (UnA.get w)) else .error (.unusedField maj x)
    | 1 => if fld w 2 18 == 0 then .ok (.jigGo (Nul.get w)) else .error (.unusedField maj x)
    | 2 => if fld w 2 18 == 0 then .ok (.jigStop (Nul.get w)) else .error (.unusedField maj x)
    | _ => if fld w 2 12 == 0 then .ok (.jigStat (UnD.get w)) else .error (.unusedField maj x)
  | 119 => match x with
    | 0 => .ok (.wmSet (Tri.get w))
    | 1 => if fld w 2 6 == 0 then .ok (.wmRd (Bin.get w)) else .error (.unusedField maj x)
    | 2 => if fld w 2 6 == 0 then .ok (.clSend (Bin.get w)) else .error (.unusedField maj x)
    | _ => if fld w 2 6 == 0 then .ok (.clChk (Bin.get w)) else .error (.unusedField maj x)
  | 120 => match x with
    | 0 => .ok (.chPut (Tri.get w))
    | 1 => if fld w 2 6 == 0 then .ok (.chGet (Bin.get w)) else .error (.unusedField maj x)
    | 2 => .ok (.chRed (Tri.get w))
    | _ => if fld w 2 6 == 0 then .ok (.chStat (Bin.get w)) else .error (.unusedField maj x)
  | 121 => match x with
    | 0 => if fld w 2 6 == 0 then .ok (.splGrp (Bin.get w)) else .error (.unusedField maj x)
    | 1 => if fld w 2 12 == 0 then .ok (.splRst (UnD.get w)) else .error (.unusedField maj x)
    | 2 => if fld w 2 12 == 0 then .ok (.splLdr (UnD.get w)) else .error (.unusedField maj x)
    | _ => if fld w 2 6 == 0 then .ok (.splStat (Bin.get w)) else .error (.unusedField maj x)
  | 122 => match x with
    | 0 => if fld w 14 6 == 0 then .ok (.ringSet (AB.get w)) else .error (.unusedField maj x)
    | 1 => if fld w 2 6 == 0 then .ok (.ringNext (Bin.get w)) else .error (.unusedField maj x)
    | 2 => if fld w 2 6 == 0 then .ok (.ringSkip (Bin.get w)) else .error (.unusedField maj x)
    | _ => .ok (.ringRd (Tri.get w))
  | 124 => match x with
    | 0 => if fld w 8 16 == 0 then .ok (.anchor (Anchor.get w)) else .error (.unusedField maj x)
    | 1 => if fld w 8 6 == 0 then .ok (.mlatch (DImm.get w)) else .error (.unusedField maj x)
    | 2 => if fld w 2 6 == 0 then .ok (.slipchk (Bin.get w)) else .error (.unusedField maj x)
    | _ => .ok (.fcnt (Tri.get w))
  | 125 => match x with
    | 0 => if fld w 2 6 == 0 && fld w 17 3 == 0 then .ok (.seql (SeqlWr.get w)) else if fld w 2 6 == 1 && fld w 11 3 == 0 then .ok (.seqlRead (SeqlRd.get w)) else .error (.unusedField maj x)
    | 1 => if fld w 2 18 == 0 then .ok (.bhalt (Nul.get w)) else .error (.unusedField maj x)
    | 2 => if fld w 20 4 == 0 then .ok (.pause (Pause.get w)) else .error (.unusedField maj x)
    | _ => .ok (.bhdr (Bhdr.get w))
  | 126 => match x with
    | 0 => if fld w 8 12 == 0 then .ok (.trap (TrapImm.get w)) else .error (.unusedField maj x)
    | 1 => if fld w 8 6 == 0 then .ok (.sysrd (DImm.get w)) else .error (.unusedField maj x)
    | 2 => if fld w 14 6 == 0 then .ok (.syswr (AImm.get w)) else .error (.unusedField maj x)
    | _ => if fld w 2 18 == 0 then .ok (.eret (Nul.get w)) else .error (.unusedField maj x)
  | 127 => if fld w 31 1 == 0 then .ok (.ext (ExtImm.get w)) else .error (.unusedField maj x)
  | _ => .error (.reservedMajor maj)

/-- The instruction a syllable holds, or why it holds none. -/
noncomputable def decode (w : Nat) : Except DecodeError Instr := decodeFields (fld w 24 7) (fld w 0 2) w

/-- The bits of a Tri syllable's own fields. -/
def Tri.bits (f : Tri) : Nat := f.s * 2147483648 + f.g * 1048576 + f.d * 16384 + f.a * 256 + f.b * 4

/-- The bits of a Bin syllable's own fields. -/
def Bin.bits (f : Bin) : Nat := f.s * 2147483648 + f.g * 1048576 + f.d * 16384 + f.a * 256

/-- The bits of a Imm8 syllable's own fields. -/
def Imm8.bits (f : Imm8) : Nat := f.s * 2147483648 + f.g * 1048576 + f.d * 16384 + f.a * 256 + f.i

/-- The bits of a Wide syllable's own fields. -/
def Wide.bits (f : Wide) : Nat := f.s * 2147483648 + f.g * 1048576 + f.d * 16384 + f.i

/-- The bits of a Imm6 syllable's own fields. -/
def Imm6.bits (f : Imm6) : Nat := f.s * 2147483648 + f.g * 1048576 + f.d * 16384 + f.a * 256 + f.i * 4

/-- The bits of a Lea syllable's own fields. -/
def Lea.bits (f : Lea) : Nat := f.s * 2147483648 + f.g * 1048576 + f.d * 16384 + f.a * 256 + f.b * 4 + f.c

/-- The bits of a Jump syllable's own fields. -/
def Jump.bits (f : Jump) : Nat := f.s * 2147483648 + f.g * 1048576 + f.i

/-- The bits of a UnA syllable's own fields. -/
def UnA.bits (f : UnA) : Nat := f.s * 2147483648 + f.g * 1048576 + f.a * 256

/-- The bits of a Loopk syllable's own fields. -/
def Loopk.bits (f : Loopk) : Nat := f.s * 2147483648 + f.d * 16384 + f.a * 256 + f.i

/-- The bits of a Bare syllable's own fields. -/
def Bare.bits (f : Bare) : Nat := f.s * 2147483648

/-- The bits of a AImm syllable's own fields. -/
def AImm.bits (f : AImm) : Nat := f.s * 2147483648 + f.g * 1048576 + f.a * 256 + f.i * 4

/-- The bits of a UnB syllable's own fields. -/
def UnB.bits (f : UnB) : Nat := f.s * 2147483648 + f.g * 1048576 + f.b * 4

/-- The bits of a Local syllable's own fields. -/
def Local.bits (f : Local) : Nat := f.s * 2147483648 + f.g * 1048576 + f.d * 16384 + f.a * 256 + f.i * 4 + f.m

/-- The bits of a UnD syllable's own fields. -/
def UnD.bits (f : UnD) : Nat := f.s * 2147483648 + f.g * 1048576 + f.d * 16384

/-- The bits of a AB syllable's own fields. -/
def AB.bits (f : AB) : Nat := f.s * 2147483648 + f.g * 1048576 + f.a * 256 + f.b * 4

/-- The bits of a Repf syllable's own fields. -/
def Repf.bits (f : Repf) : Nat := f.s * 2147483648 + f.g * 1048576 + f.f * 16384 + f.a * 256 + f.l * 16 + f.t * 4

/-- The bits of a Nul syllable's own fields. -/
def Nul.bits (f : Nul) : Nat := f.s * 2147483648 + f.g * 1048576

/-- The bits of a BinH2 syllable's own fields. -/
def BinH2.bits (f : BinH2) : Nat := f.s * 2147483648 + f.g * 1048576 + f.d * 16384 + f.a * 256 + f.h * 4

/-- The bits of a BinH7 syllable's own fields. -/
def BinH7.bits (f : BinH7) : Nat := f.s * 2147483648 + f.g * 1048576 + f.d * 16384 + f.a * 256 + f.h * 128

/-- The bits of a CvtHR syllable's own fields. -/
def CvtHR.bits (f : CvtHR) : Nat := f.s * 2147483648 + f.g * 1048576 + f.d * 16384 + f.a * 256 + f.h * 128 + f.r * 4

/-- The bits of a CvtR syllable's own fields. -/
def CvtR.bits (f : CvtR) : Nat := f.s * 2147483648 + f.g * 1048576 + f.d * 16384 + f.a * 256 + f.r * 4

/-- The bits of a BinN syllable's own fields. -/
def BinN.bits (f : BinN) : Nat := f.s * 2147483648 + f.g * 1048576 + f.d * 16384 + f.a * 256 + f.n * 4

/-- The bits of a GuardN syllable's own fields. -/
def GuardN.bits (f : GuardN) : Nat := f.s * 2147483648 + f.g * 1048576 + f.d * 16384 + f.a * 256 + f.n * 4

/-- The bits of a Mm syllable's own fields. -/
def Mm.bits (f : Mm) : Nat := f.s * 2147483648 + f.g * 1048576 + f.d * 16384 + f.a * 256 + f.n * 128 + f.k * 4

/-- The bits of a BinN2 syllable's own fields. -/
def BinN2.bits (f : BinN2) : Nat := f.s * 2147483648 + f.g * 1048576 + f.d * 16384 + f.a * 256 + f.n * 4

/-- The bits of a HandleD syllable's own fields. -/
def HandleD.bits (f : HandleD) : Nat := f.s * 2147483648 + f.g * 1048576 + f.d * 16384

/-- The bits of a HandleRd syllable's own fields. -/
def HandleRd.bits (f : HandleRd) : Nat := f.s * 2147483648 + f.g * 1048576 + f.d * 16384 + f.a * 256 + f.b * 4

/-- The bits of a HandleAB syllable's own fields. -/
def HandleAB.bits (f : HandleAB) : Nat := f.s * 2147483648 + f.g * 1048576 + f.d * 16384 + f.a * 256 + f.b * 4

/-- The bits of a OsmUpd syllable's own fields. -/
def OsmUpd.bits (f : OsmUpd) : Nat := f.s * 2147483648 + f.g * 1048576 + f.d * 16384 + f.a * 256 + f.b * 4

/-- The bits of a OsmMrg syllable's own fields. -/
def OsmMrg.bits (f : OsmMrg) : Nat := f.s * 2147483648 + f.g * 1048576 + f.d * 16384 + f.a * 256

/-- The bits of a Lload syllable's own fields. -/
def Lload.bits (f : Lload) : Nat := f.s * 2147483648 + f.g * 1048576 + f.a * 256 + f.k * 4

/-- The bits of a DB syllable's own fields. -/
def DB.bits (f : DB) : Nat := f.s * 2147483648 + f.g * 1048576 + f.d * 16384 + f.b * 4

/-- The bits of a BarWait syllable's own fields. -/
def BarWait.bits (f : BarWait) : Nat := f.s * 2147483648 + f.g * 1048576 + f.a * 256 + f.p * 4

/-- The bits of a BarTest syllable's own fields. -/
def BarTest.bits (f : BarTest) : Nat := f.s * 2147483648 + f.g * 1048576 + f.d * 16384 + f.a * 256 + f.p * 4

/-- The bits of a Anchor syllable's own fields. -/
def Anchor.bits (f : Anchor) : Nat := f.s * 2147483648 + f.i * 4

/-- The bits of a DImm syllable's own fields. -/
def DImm.bits (f : DImm) : Nat := f.s * 2147483648 + f.g * 1048576 + f.d * 16384 + f.i * 4

/-- The bits of a SeqlWr syllable's own fields. -/
def SeqlWr.bits (f : SeqlWr) : Nat := f.s * 2147483648 + f.g * 1048576 + f.d * 16384 + f.a * 256

/-- The bits of a SeqlRd syllable's own fields. -/
def SeqlRd.bits (f : SeqlRd) : Nat := f.s * 2147483648 + f.g * 1048576 + f.d * 16384 + f.a * 256

/-- The bits of a Pause syllable's own fields. -/
def Pause.bits (f : Pause) : Nat := f.s * 2147483648 + f.c * 4

/-- The bits of a Bhdr syllable's own fields. -/
def Bhdr.bits (f : Bhdr) : Nat := f.s * 2147483648 + f.p * 65536 + f.w * 16384 + f.v * 4096 + f.k * 2048 + f.n * 1024 + f.x * 4

/-- The bits of a TrapImm syllable's own fields. -/
def TrapImm.bits (f : TrapImm) : Nat := f.s * 2147483648 + f.g * 1048576 + f.i * 4

/-- The bits of a ExtImm syllable's own fields. -/
def ExtImm.bits (f : ExtImm) : Nat := f.i

/-- The word of an instruction; an event has no encoding. -/
def encode : Instr → Option Nat
  | .add f => some (0 + f.bits)
  | .sub f => some (1 + f.bits)
  | .addw f => some (2 + f.bits)
  | .subw f => some (3 + f.bits)
  | .and_ f => some (16777216 + f.bits)
  | .or_ f => some (16777217 + f.bits)
  | .xor_ f => some (16777218 + f.bits)
  | .andn f => some (16777219 + f.bits)
  | .shl f => some (33554432 + f.bits)
  | .shr f => some (33554433 + f.bits)
  | .sar f => some (33554434 + f.bits)
  | .rot f => some (33554435 + f.bits)
  | .mul f => some (50331648 + f.bits)
  | .mulh f => some (50331649 + f.bits)
  | .mulhu f => some (50331650 + f.bits)
  | .mulw f => some (50331651 + f.bits)
  | .div f => some (67108864 + f.bits)
  | .divu f => some (67108865 + f.bits)
  | .rem f => some (67108866 + f.bits)
  | .remu f => some (67108867 + f.bits)
  | .min_ f => some (83886080 + f.bits)
  | .max_ f => some (83886081 + f.bits)
  | .minu f => some (83886082 + f.bits)
  | .maxu f => some (83886083 + f.bits)
  | .seq f => some (100663296 + f.bits)
  | .slt f => some (100663297 + f.bits)
  | .sltu f => some (100663298 + f.bits)
  | .sne f => some (100663299 + f.bits)
  | .clz f => some (117440512 + f.bits)
  | .ctz f => some (117440513 + f.bits)
  | .popc f => some (117440514 + f.bits)
  | .brev f => some (117440515 + f.bits)
  | .addi f => some (134217728 + f.bits)
  | .andi f => some (150994944 + f.bits)
  | .ori f => some (167772160 + f.bits)
  | .xori f => some (184549376 + f.bits)
  | .shli f => some (201326592 + f.bits)
  | .shri f => some (218103808 + f.bits)
  | .sari f => some (234881024 + f.bits)
  | .slti f => some (251658240 + f.bits)
  | .sltiu f => some (268435456 + f.bits)
  | .li f => some (285212672 + f.bits)
  | .lih f => some (301989888 + f.bits)
  | .cmpEq f => some (318767104 + f.bits)
  | .cmpLt f => some (318767105 + f.bits)
  | .cmpLtu f => some (318767106 + f.bits)
  | .cmpNe f => some (318767107 + f.bits)
  | .cmpiEq f => some (335544320 + f.bits)
  | .cmpiLt f => some (335544321 + f.bits)
  | .cmpiLtu f => some (335544322 + f.bits)
  | .cmpiNe f => some (335544323 + f.bits)
  | .pand f => some (352321536 + f.bits)
  | .por f => some (352321537 + f.bits)
  | .pxor f => some (352321538 + f.bits)
  | .pnot f => some (352321539 + f.bits)
  | .sel f => some (369098752 + f.bits)
  | .lea f => some (385875968 + f.bits)
  | .extr f => some (402653184 + f.bits)
  | .ins f => some (402653185 + f.bits)
  | .br f => some (536870912 + f.bits)
  | .call f => some (553648128 + f.bits)
  | .jr f => some (570425344 + f.bits)
  | .jalr f => some (570425345 + f.bits)
  | .ret f => some (570425346 + f.bits)
  | .loopk f => some (587202560 + f.bits)
  | .loope f => some (603979776 + f.bits)
  | .wfe f => some (620756992 + f.bits)
  | .ldB f => some (671088640 + f.bits)
  | .ldH f => some (671088641 + f.bits)
  | .ldW f => some (671088642 + f.bits)
  | .ldD f => some (671088643 + f.bits)
  | .lduB f => some (687865856 + f.bits)
  | .lduH f => some (687865857 + f.bits)
  | .lduW f => some (687865858 + f.bits)
  | .stB f => some (704643072 + f.bits)
  | .stH f => some (704643073 + f.bits)
  | .stW f => some (704643074 + f.bits)
  | .stD f => some (704643075 + f.bits)
  | .ldy f => some (721420288 + f.bits)
  | .sty f => some (721420289 + f.bits)
  | .ldyb f => some (721420290 + f.bits)
  | .ldyf f => some (721420291 + f.bits)
  | .ldsW f => some (738197504 + f.bits)
  | .ldsD f => some (738197505 + f.bits)
  | .ldseW f => some (738197506 + f.bits)
  | .ldseD f => some (738197507 + f.bits)
  | .stfW f => some (754974720 + f.bits)
  | .stfD f => some (754974721 + f.bits)
  | .sete f => some (754974722 + f.bits)
  | .aadd f => some (771751936 + f.bits)
  | .aand f => some (771751937 + f.bits)
  | .aor f => some (771751938 + f.bits)
  | .axor f => some (771751939 + f.bits)
  | .aswp f => some (788529152 + f.bits)
  | .acas f => some (788529153 + f.bits)
  | .amax f => some (788529154 + f.bits)
  | .amin f => some (788529155 + f.bits)
  | .fenceAcq f => some (805306368 + f.bits)
  | .fenceRel f => some (805306369 + f.bits)
  | .fenceSc f => some (805306370 + f.bits)
  | .tfence f => some (805306371 + f.bits)
  | .cflush f => some (822083584 + f.bits)
  | .cinv f => some (822083585 + f.bits)
  | .cpref f => some (822083586 + f.bits)
  | .ldl f => some (838860800 + f.bits)
  | .stl f => some (855638016 + f.bits)
  | .ldld f => some (872415232 + f.bits)
  | .stld f => some (889192448 + f.bits)
  | .hstart f => some (939524096 + f.bits)
  | .hjoin f => some (939524097 + f.bits)
  | .hkill f => some (939524098 + f.bits)
  | .hself f => some (939524099 + f.bits)
  | .qpeek f => some (956301312 + f.bits)
  | .qdepth f => some (956301313 + f.bits)
  | .qclose f => some (956301314 + f.bits)
  | .qdrop f => some (956301315 + f.bits)
  | .gbar f => some (973078528 + f.bits)
  | .garrive f => some (973078529 + f.bits)
  | .gwait f => some (973078530 + f.bits)
  | .grank f => some (973078531 + f.bits)
  | .repf f => some (989855744 + f.bits)
  | .done f => some (1006632960 + f.bits)
  | .signal f => some (1006632961 + f.bits)
  | .yield f => some (1006632962 + f.bits)
  | .waitev f => some (1006632963 + f.bits)
  | .tenonV f => some (1023410176 + f.bits)
  | .tenonW f => some (1023410177 + f.bits)
  | .tenonQ f => some (1023410178 + f.bits)
  | .rmaPut f => some (1040187392 + f.bits)
  | .rmaGet f => some (1040187393 + f.bits)
  | .rmaFlush f => some (1040187394 + f.bits)
  | .rmaArm f => some (1040187395 + f.bits)
  | .rmaAmo f => some (1056964608 + f.bits)
  | .rmaWait f => some (1056964609 + f.bits)
  | .rmaSend f => some (1056964610 + f.bits)
  | .yaddF32 f => some (1073741824 + f.bits)
  | .ysubF32 f => some (1073741825 + f.bits)
  | .ymulF32 f => some (1073741826 + f.bits)
  | .yfmaF32 f => some (1073741827 + f.bits)
  | .yaddBf16 f => some (1090519040 + f.bits)
  | .ysubBf16 f => some (1090519041 + f.bits)
  | .ymulBf16 f => some (1090519042 + f.bits)
  | .yfmaBf16 f => some (1090519043 + f.bits)
  | .yaddI32 f => some (1107296256 + f.bits)
  | .ysubI32 f => some (1107296257 + f.bits)
  | .ymulI32 f => some (1107296258 + f.bits)
  | .ymacI32 f => some (1107296259 + f.bits)
  | .yminF32 f => some (1124073472 + f.bits)
  | .ymaxF32 f => some (1124073473 + f.bits)
  | .yminI32 f => some (1124073474 + f.bits)
  | .ymaxI32 f => some (1124073475 + f.bits)
  | .ycvtBf16F32 f => some (1140850688 + f.bits)
  | .ycvtF32Bf16 f => some (1140850689 + f.bits)
  | .ycvtI32F32 f => some (1140850690 + f.bits)
  | .ycvtF32I32 f => some (1140850691 + f.bits)
  | .yand f => some (1157627904 + f.bits)
  | .yor f => some (1157627905 + f.bits)
  | .yxor f => some (1157627906 + f.bits)
  | .yshf f => some (1157627907 + f.bits)
  | .yrsumF32 f => some (1174405120 + f.bits)
  | .yrmaxF32 f => some (1174405121 + f.bits)
  | .yrsumI32 f => some (1174405122 + f.bits)
  | .yrmaxI32 f => some (1174405123 + f.bits)
  | .ybcast f => some (1191182336 + f.bits)
  | .yext f => some (1191182337 + f.bits)
  | .yins f => some (1191182338 + f.bits)
  | .ysel f => some (1191182339 + f.bits)
  | .vaddF32 f => some (1342177280 + f.bits)
  | .vsubF32 f => some (1342177281 + f.bits)
  | .vmulF32 f => some (1342177282 + f.bits)
  | .vfmaF32 f => some (1342177283 + f.bits)
  | .vminF32 f => some (1358954496 + f.bits)
  | .vmaxF32 f => some (1358954497 + f.bits)
  | .vabsF32 f => some (1358954498 + f.bits)
  | .vnegF32 f => some (1358954499 + f.bits)
  | .vaddBf16 f => some (1375731712 + f.bits)
  | .vsubBf16 f => some (1375731713 + f.bits)
  | .vmulBf16 f => some (1375731714 + f.bits)
  | .vfmaBf16 f => some (1375731715 + f.bits)
  | .vminBf16 f => some (1392508928 + f.bits)
  | .vmaxBf16 f => some (1392508929 + f.bits)
  | .vabsBf16 f => some (1392508930 + f.bits)
  | .vnegBf16 f => some (1392508931 + f.bits)
  | .vaddF16 f => some (1409286144 + f.bits)
  | .vsubF16 f => some (1409286145 + f.bits)
  | .vmulF16 f => some (1409286146 + f.bits)
  | .vfmaF16 f => some (1409286147 + f.bits)
  | .vminF16 f => some (1426063360 + f.bits)
  | .vmaxF16 f => some (1426063361 + f.bits)
  | .vabsF16 f => some (1426063362 + f.bits)
  | .vnegF16 f => some (1426063363 + f.bits)
  | .vaddI32 f => some (1442840576 + f.bits)
  | .vsubI32 f => some (1442840577 + f.bits)
  | .vmulI32 f => some (1442840578 + f.bits)
  | .vmacI32 f => some (1442840579 + f.bits)
  | .vminI32 f => some (1459617792 + f.bits)
  | .vmaxI32 f => some (1459617793 + f.bits)
  | .vabsI32 f => some (1459617794 + f.bits)
  | .vnegI32 f => some (1459617795 + f.bits)
  | .vaddI16 f => some (1476395008 + f.bits)
  | .vsubI16 f => some (1476395009 + f.bits)
  | .vmulI16 f => some (1476395010 + f.bits)
  | .vmacI16 f => some (1476395011 + f.bits)
  | .vminI16 f => some (1493172224 + f.bits)
  | .vmaxI16 f => some (1493172225 + f.bits)
  | .vabsI16 f => some (1493172226 + f.bits)
  | .vnegI16 f => some (1493172227 + f.bits)
  | .vaddI8 f => some (1509949440 + f.bits)
  | .vsubI8 f => some (1509949441 + f.bits)
  | .vmulI8 f => some (1509949442 + f.bits)
  | .vmacI8 f => some (1509949443 + f.bits)
  | .vminI8 f => some (1526726656 + f.bits)
  | .vmaxI8 f => some (1526726657 + f.bits)
  | .vabsI8 f => some (1526726658 + f.bits)
  | .vnegI8 f => some (1526726659 + f.bits)
  | .vcvtF32Bf16 f => some (1543503872 + f.bits)
  | .vcvtF32F16 f => some (1543503873 + f.bits)
  | .vcvtBf16F32 f => some (1543503874 + f.bits)
  | .vcvtF16F32 f => some (1543503875 + f.bits)
  | .vcvtF32I32 f => some (1560281088 + f.bits)
  | .vcvtI32F32 f => some (1560281089 + f.bits)
  | .vcvtI16I32 f => some (1560281090 + f.bits)
  | .vcvtI8I16 f => some (1560281091 + f.bits)
  | .vqnt f => some (1577058304 + f.bits)
  | .vdq f => some (1577058305 + f.bits)
  | .vscl f => some (1577058306 + f.bits)
  | .vcomp f => some (1577058307 + f.bits)
  | .vexp2 f => some (1593835520 + f.bits)
  | .vrcp f => some (1593835521 + f.bits)
  | .vrsq f => some (1593835522 + f.bits)
  | .vlog2 f => some (1593835523 + f.bits)
  | .vcmpEqF32 f => some (1610612736 + f.bits)
  | .vcmpLtF32 f => some (1610612737 + f.bits)
  | .vcmpLeF32 f => some (1610612738 + f.bits)
  | .vcmpNeF32 f => some (1610612739 + f.bits)
  | .vcmpEqI32 f => some (1627389952 + f.bits)
  | .vcmpLtI32 f => some (1627389953 + f.bits)
  | .vcmpLeI32 f => some (1627389954 + f.bits)
  | .vcmpNeI32 f => some (1627389955 + f.bits)
  | .vand f => some (1644167168 + f.bits)
  | .vor f => some (1644167169 + f.bits)
  | .vxor f => some (1644167170 + f.bits)
  | .vnot f => some (1644167171 + f.bits)
  | .vshuf f => some (1660944384 + f.bits)
  | .vrot f => some (1660944385 + f.bits)
  | .vbcst f => some (1660944386 + f.bits)
  | .vtrn f => some (1660944387 + f.bits)
  | .vsel f => some (1677721600 + f.bits)
  | .vfill f => some (1677721601 + f.bits)
  | .vmerge f => some (1677721602 + f.bits)
  | .vmask f => some (1677721603 + f.bits)
  | .vrsumF32 f => some (1694498816 + f.bits)
  | .vrmaxF32 f => some (1694498817 + f.bits)
  | .vrsumI32 f => some (1694498818 + f.bits)
  | .vrmaxI32 f => some (1694498819 + f.bits)
  | .vld f => some (1711276032 + f.bits)
  | .vst f => some (1711276033 + f.bits)
  | .vldb f => some (1711276034 + f.bits)
  | .vstm f => some (1711276035 + f.bits)
  | .vmova f => some (1728053248 + f.bits)
  | .vmovv f => some (1728053249 + f.bits)
  | .vsplat f => some (1728053250 + f.bits)
  | .viota f => some (1728053251 + f.bits)
  | .mmB8 f => some (1744830464 + f.bits)
  | .mmI8 f => some (1744830465 + f.bits)
  | .mmI4 f => some (1744830466 + f.bits)
  | .mmBf16 f => some (1744830467 + f.bits)
  | .mmsB8 f => some (1761607680 + f.bits)
  | .mmsI8 f => some (1761607681 + f.bits)
  | .mmsBf16 f => some (1761607682 + f.bits)
  | .spsel f => some (1761607683 + f.bits)
  | .arel f => some (1778384896 + f.bits)
  | .ard f => some (1778384897 + f.bits)
  | .awr f => some (1778384898 + f.bits)
  | .azero f => some (1778384899 + f.bits)
  | .osmUpd f => some (1795162112 + f.bits)
  | .osmMrg f => some (1795162113 + f.bits)
  | .osmFin f => some (1795162114 + f.bits)
  | .osmRst f => some (1795162115 + f.bits)
  | .lload f => some (1811939328 + f.bits)
  | .lpass f => some (1811939329 + f.bits)
  | .lswap f => some (1811939330 + f.bits)
  | .lstat f => some (1811939331 + f.bits)
  | .vdot4I8 f => some (1828716544 + f.bits)
  | .vdot4sI8 f => some (1828716545 + f.bits)
  | .vdot2I16 f => some (1828716546 + f.bits)
  | .vdot2sI16 f => some (1828716547 + f.bits)
  | .winSig f => some (1879048192 + f.bits)
  | .winCmp f => some (1879048193 + f.bits)
  | .winSkip f => some (1879048194 + f.bits)
  | .winKeep f => some (1879048195 + f.bits)
  | .winStep f => some (1895825408 + f.bits)
  | .winMap f => some (1895825409 + f.bits)
  | .winSet f => some (1895825410 + f.bits)
  | .winClr f => some (1895825411 + f.bits)
  | .cpyBox f => some (1946157056 + f.bits)
  | .cpyMcast f => some (1946157057 + f.bits)
  | .cpyRed f => some (1946157058 + f.bits)
  | .cpyLin f => some (1946157059 + f.bits)
  | .barInit f => some (1962934272 + f.bits)
  | .barArrive f => some (1962934273 + f.bits)
  | .barWait f => some (1962934274 + f.bits)
  | .barTest f => some (1962934275 + f.bits)
  | .jigLoad f => some (1979711488 + f.bits)
  | .jigGo f => some (1979711489 + f.bits)
  | .jigStop f => some (1979711490 + f.bits)
  | .jigStat f => some (1979711491 + f.bits)
  | .wmSet f => some (1996488704 + f.bits)
  | .wmRd f => some (1996488705 + f.bits)
  | .clSend f => some (1996488706 + f.bits)
  | .clChk f => some (1996488707 + f.bits)
  | .chPut f => some (2013265920 + f.bits)
  | .chGet f => some (2013265921 + f.bits)
  | .chRed f => some (2013265922 + f.bits)
  | .chStat f => some (2013265923 + f.bits)
  | .splGrp f => some (2030043136 + f.bits)
  | .splRst f => some (2030043137 + f.bits)
  | .splLdr f => some (2030043138 + f.bits)
  | .splStat f => some (2030043139 + f.bits)
  | .ringSet f => some (2046820352 + f.bits)
  | .ringNext f => some (2046820353 + f.bits)
  | .ringSkip f => some (2046820354 + f.bits)
  | .ringRd f => some (2046820355 + f.bits)
  | .anchor f => some (2080374784 + f.bits)
  | .mlatch f => some (2080374785 + f.bits)
  | .slipchk f => some (2080374786 + f.bits)
  | .fcnt f => some (2080374787 + f.bits)
  | .seql f => some (2097152000 + f.bits)
  | .seqlRead f => some (2097152004 + f.bits)
  | .bhalt f => some (2097152001 + f.bits)
  | .pause f => some (2097152002 + f.bits)
  | .bhdr f => some (2097152003 + f.bits)
  | .trap f => some (2113929216 + f.bits)
  | .sysrd f => some (2113929217 + f.bits)
  | .syswr f => some (2113929218 + f.bits)
  | .eret f => some (2113929219 + f.bits)
  | .ext f => some (2130706432 + f.bits)
  | .segmentReady _ => none
  | .blockRelease _ => none
  | .anchorLate _ => none
  | .holdEnd => none
  | .holdTimeout => none
  | .resultLanding _ => none
  | .matrixResultLanding _ => none
  | .latchLanding _ => none
  | .copyGranuleRequest _ _ => none
  | .frameSlotStart _ => none
  | .copyLanding _ _ => none
  | .eccRereadComplete _ _ _ => none
  | .channelEntryLanding _ _ => none
  | .lpassLanding _ => none
  | .winnowCopyLanding _ => none
  | .jigIteration _ => none
  | .mortiseOpen _ => none
  | .mortiseClose _ => none
  | .holdLatch _ => none
  | .frameLaunchSetup _ => none
  | .frameLaunchComplete => none
  | .framePause => none
  | .nopause => none
  | .launchRecordReady _ => none
  | .dispatchStep _ => none
  | .priorityAgeing _ => none
  | .deferralExpiry _ => none
  | .weaveLaunchComplete _ => none
  | .storeBufferDrain _ => none
  | .weavePortAccess _ => none
  | .wfeWake _ => none
  | .wfeTimeout _ => none
  | .yieldResume _ => none
  | .pipeStallResume _ => none
  | .hjoinWake _ => none
  | .gwaitWake _ => none
  | .waitevWake _ => none
  | .barWaitWake _ => none
  | .ldsFillWake _ => none
  | .watermarkStallResume _ => none
  | .engineSlotFree _ => none
  | .splPendingWake _ => none
  | .rmaWaitWake _ => none
  | .replayExecution _ => none
  | .bteCopyPart _ _ => none
  | .bteCopyComplete _ _ => none
  | .rmaCompletion _ _ _ => none
  | .rmaIncomingRequest _ => none
  | .rmaSendMatch _ _ _ => none
  | .rmaSendRetry _ => none
  | .connectionContextFetch _ _ => none
  | .switchContribution _ => none
  | .switchGroupTimeout _ _ => none
  | .splResultArrival _ _ _ _ => none
  | .collectiveOrder _ _ _ => none
  | .shootdownRange _ _ _ _ => none
  | .shootdownAsid _ _ _ => none
  | .shootdownAll _ _ => none
  | .shootdownComplete _ => none
  | .eventCounterWrite _ _ => none
  | .queueDoorbell _ _ => none
  | .queueEnable _ _ => none
  | .queueArm _ _ => none
  | .completionHeadWrite _ _ => none
  | .preempt _ _ => none
  | .resume _ _ => none
  | .destroy _ => none
  | .destroyForce _ => none
  | .roleHalt _ _ => none
  | .gangSave _ => none
  | .completionEntryWrite _ => none
  | .interruptWindowClose _ => none
  | .connectionOpen _ _ => none
  | .connectionClose _ _ => none
  | .companderTableWrite _ _ _ => none
  | .pcapWrite _ => none
  | .frameClockRequest _ => none
  | .frameClockChange => none
  | .registerWrite _ _ => none
  | .ebudgetUpdate _ => none
  | .lifetimeRecordUpdate => none
  | .orderlyPowerDown => none
  | .boot _ => none
  | .alignGo _ _ => none
  | .alignDissolve _ => none
  | .alignmentTimeout => none
  | .alignReadyNotice _ _ _ _ => none
  | .startInstantNotice _ => none
  | .alignedStart => none
  | .holdNotice _ _ _ => none
  | .remoteHold => none
  | .faultNotice _ _ => none
  | .preemptForward _ _ _ => none
  | .linkReplay _ => none
  | .portRetrain _ => none
  | .illegalEncoding _ => none
  | .fetchNonexec _ => none
  | .link _ => none
  | .powerLoss => none
  | .hostAccess _ => none
  | .contributionResend _ => none
  | .groupIncomplete _ _ _ => none
  | .translationEviction _ _ => none
  | .cacheLineEviction _ _ => none
  | .alignmentDone _ _ _ => none
  | .ueLinkRetrain _ => none
  | .frameStart => none

/-- The four bytes of a syllable as the hardware stores it, little-endian (R59). -/
def syllableBytes (w : Nat) : List Nat := [fld w 0 8, fld w 8 8, fld w 16 8, fld w 24 8]

/-- The word that four stored bytes form, the first byte lowest. -/
def wordOfBytes (bs : List Nat) : Nat := bs.foldr (fun b acc => b % 256 + 256 * acc) 0

/-- What the decoder reads from a table row's bits: one syllable, stored as its four bytes and read back. -/
noncomputable def decodeTableWord (nbits w : Nat) : Option Instr :=
  match decode (wordOfBytes (syllableBytes (w % 2 ^ (min nbits 32)))) with
  | .ok i => some i
  | .error _ => none

end Sys2Proof
end

