-- ==== Sys2Proof/Word.lean ====
section
/-! DEFINITION. The word types of the manual: bytes, 16-, 32- and 64-bit words, y registers, v registers. -/

namespace Sys2Proof

abbrev Byte := BitVec 8
abbrev W16 := BitVec 16
abbrev W32 := BitVec 32
abbrev W64 := BitVec 64
/-- A y register (R11). -/
abbrev W256 := BitVec 256
/-- A v register (R157). -/
abbrev W1024 := BitVec 1024

end Sys2Proof
end

