-- ==== Sys2Proof/Machine/Map.lean ====
section
/-! DEFINITION. Sparse tables from a number to a value, kept in ascending order of key, and byte memory in its canonical
form: addresses strictly rising and no entry equal to 0, which is what an unlisted address reads as (DESIGN CHOICE, log 1). -/

namespace Sys2Proof.Machine

/-- A table from keys to values. -/
abbrev Tbl (α : Type) := List (Nat × α)

/-- The value under key `k`, if the table lists one. -/
def tget {α : Type} : Tbl α → Nat → Option α
  | [], _ => none
  | (j, v) :: t, k => if k = j then some v else tget t k

/-- The value under key `k`, or `d`. -/
def tgetD {α : Type} (m : Tbl α) (k : Nat) (d : α) : α := (tget m k).getD d

/-- The table with `v` under key `k`. -/
def tset {α : Type} : Tbl α → Nat → α → Tbl α
  | [], k, v => [(k, v)]
  | (j, w) :: t, k, v =>
    if k < j then (k, v) :: (j, w) :: t else if k = j then (k, v) :: t else (j, w) :: tset t k v

/-- The table without key `k`. -/
def terase {α : Type} : Tbl α → Nat → Tbl α
  | [], _ => []
  | (j, w) :: t, k => if k = j then terase t k else (j, w) :: terase t k

/-- Apply `f` to the entry under `k`, or to `d` where there is none. -/
def tmod {α : Type} (m : Tbl α) (k : Nat) (d : α) (f : α → α) : Tbl α := tset m k (f (tgetD m k d))

/-- Keys strictly rising, every key above `lo`. -/
def tsortedFrom {α : Type} : Nat → Tbl α → Bool
  | _, [] => true
  | lo, (j, _) :: t => decide (lo < j) && tsortedFrom j t

/-- Keys strictly rising. -/
def tsorted {α : Type} : Tbl α → Bool
  | [] => true
  | (j, _) :: t => tsortedFrom j t

/-- Byte memory: the cells that differ from 0. -/
abbrev Memory := List Host.Cell

/-- What a byte that nothing has written reads as (DESIGN CHOICE, log 1). -/
def Memory.blank : Byte := 0

/-- One byte. -/
def Memory.read (m : Memory) (a : Nat) : Byte := tgetD m a Memory.blank

/-- Store one byte, keeping the canonical form. -/
def Memory.write (m : Memory) (a : Nat) (v : Byte) : Memory := if v = Memory.blank then terase m a else tset m a v

/-- The canonical form: addresses strictly rising, and no entry equal to what an unlisted address reads as. -/
abbrev Memory.wf (m : Memory) : Prop := tsorted m = true ∧ m.all (fun c => c.2 != Memory.blank) = true

/-- `n` bytes from address `a`, lowest first. -/
def Memory.readBytes (m : Memory) (a : Nat) : Nat → List Byte
  | 0 => []
  | n + 1 => m.read a :: Memory.readBytes m (a + 1) n

/-- Store bytes from address `a` on. -/
def Memory.writeBytes (m : Memory) (a : Nat) : List Byte → Memory
  | [] => m
  | b :: bs => Memory.writeBytes (m.write a b) (a + 1) bs

/-- The number that bytes form, the first byte lowest (R28: little-endian). -/
def leNat : List Byte → Nat
  | [] => 0
  | b :: bs => b.toNat + 256 * leNat bs

/-- The `n` bytes of a number, lowest first. -/
def leBytes : Nat → Nat → List Byte
  | 0, _ => []
  | n + 1, v => BitVec.ofNat 8 v :: leBytes n (v / 256)

end Sys2Proof.Machine
end

