-- ==== Sys2Proof/Machine/Bits.lean ====
section
/-! DEFINITION. Bit-field, sign-extension and counting helpers, and the dowel generator of R50. -/

namespace Sys2Proof.Machine

/-- An `n`-bit number read as two's complement. -/
def toI (n v : Nat) : Int := (BitVec.ofNat n v).toInt

/-- An `n`-bit number sign-extended to 64 bits (R62, R85). -/
def sx (n v : Nat) : W64 := (BitVec.ofNat n v).signExtend 64

/-- Replace bits `lo` to `lo + n - 1` of a 64-bit word. -/
def setFld (w : W64) (lo n v : Nat) : W64 :=
  BitVec.ofNat 64 (w.toNat - fld w.toNat lo n * 2 ^ lo + v % 2 ^ n * 2 ^ lo)

/-- A flag of a word as a truth value. -/
def bitOf (w n : Nat) : Bool := fld w n 1 == 1

/-- 1 for true, 0 for false. -/
def ofBool (b : Bool) : W64 := if b then 1 else 0

/-- Number of ones among the low `n` bits. -/
def ones : Nat → Nat → Nat
  | 0, _ => 0
  | n + 1, v => v % 2 + ones n (v / 2)

/-- Trailing zeros of an `n`-bit number; `n` for zero. -/
def ctz : Nat → Nat → Nat
  | 0, _ => 0
  | n + 1, v => if v % 2 = 1 then 0 else 1 + ctz n (v / 2)

/-- Position of the highest one plus one, among the low `n` bits. -/
def bitLen : Nat → Nat → Nat
  | 0, _ => 0
  | n + 1, v => if v = 0 then 0 else 1 + bitLen n (v / 2)

/-- The low `n` bits in reverse order. -/
def brev : Nat → Nat → Nat
  | 0, _ => 0
  | n + 1, v => v % 2 * 2 ^ n + brev n (v / 2)

/-- Lane `i` of `n` bits of a wider value. -/
def lane (n i : Nat) (w : Nat) : Nat := fld w (n * i) n

/-- A value from its lanes of `n` bits, lane 0 lowest. -/
def ofLanes (n : Nat) : List Nat → Nat
  | [] => 0
  | l :: ls => l % 2 ^ n + 2 ^ n * ofLanes n ls

/-- The first `k` lanes of `n` bits. -/
def lanesOf (n k w : Nat) : List Nat := (List.range k).map (fun i => lane n i w)

/-- Combine neighbours once (one level of the tree of R55). -/
def pairUp {α : Type} (f : α → α → α) : List α → List α
  | a :: b :: t => f a b :: pairUp f t
  | l => l

/-- The pairwise tree of R55 over at most `2 ^ fuel` values. -/
def treeFold {α : Type} (f : α → α → α) : Nat → List α → List α
  | 0, l => l
  | n + 1, l => treeFold f n (pairUp f l)

/-- The dowel generator of R50. -/
def dowelRound (key : W64) : Nat → W64 × W64 → W64 × W64
  | i, (z, tag) =>
    let z := z + key + BitVec.ofNat 64 (i + 1) * 0x6A09E667F3BCC909
    let z := z ^^^ tag
    let z := (z ^^^ (z >>> 31)) * 0x8F1D3A6BC47E59A3
    let z := (z ^^^ (z >>> 27)) * 0xC3A52F719B4E06D5
    let z := z ^^^ (z >>> 33)
    (z, tag.rotateLeft 17)

/-- dowel(key, tag, ctr) of R50. -/
def dowel (key tag ctr : W64) : W64 :=
  (dowelRound key 3 (dowelRound key 2 (dowelRound key 1 (dowelRound key 0 (ctr, tag))))).1

/-- The 24-bit draw of R49 for one element. -/
def drawOf (seed drawc : W64) (lidx : Nat) : Nat := fld (dowel seed drawc (BitVec.ofNat 64 lidx)).toNat 40 24

/-- Every number below `n`, with the least that fails `p`. -/
def firstIdx (p : Nat → Bool) : Nat → Option Nat
  | 0 => none
  | n + 1 => match firstIdx p n with
    | some i => some i
    | none => if p n then some n else none

end Sys2Proof.Machine
end

