-- ==== Sys2Proof/Machine/Float.lean ====
section
/-! DEFINITION. Floating-point formats and arithmetic (R35 to R41, R48, R49, R52, R53): values are exact dyadic numbers,
each helper rounds once, and every result comes with the flags of R56. -/

namespace Sys2Proof.Machine

/-- Flag masks of R19. -/
def NX : Nat := 1
def UF : Nat := 2
def OF : Nat := 4
def DZ : Nat := 8
def NV : Nat := 16
def SAT : Nat := 32

/-- A rounding mode of R48. -/
inductive Rm where
  | rne | rtz | rup | rdn | sr
  deriving DecidableEq, Repr

/-- The mode a three-bit code names (R17). -/
def Rm.ofCode : Nat → Rm
  | 1 => .rtz
  | 2 => .rup
  | 3 => .rdn
  | 4 => .sr
  | _ => .rne

/-- The exact number ± m × 2^e. -/
structure Dy where
  neg : Bool
  m : Nat
  e : Int
  deriving DecidableEq, Repr

/-- A floating-point value: NaN, an infinity, or an exact number (zero keeps its sign). -/
inductive Fv where
  | nan
  | inf (neg : Bool)
  | fin (d : Dy)
  deriving DecidableEq, Repr

/-- An IEEE format (R36): precision, exponent of the quantum, width. -/
structure Fmt where
  p : Nat
  qmin : Int
  width : Nat
  deriving DecidableEq, Repr

def f32 : Fmt := ⟨24, -149, 32⟩
def f16 : Fmt := ⟨11, -24, 16⟩
def bf16 : Fmt := ⟨8, -133, 16⟩

/-- Magnitude code of infinity. -/
def Fmt.infCode (f : Fmt) : Nat := 2 ^ (f.width - 1) - 2 ^ (f.p - 1)
/-- The canonical NaN of R36. -/
def Fmt.nanCode (f : Fmt) : Nat := f.infCode + 2 ^ (f.p - 2)
/-- The sign bit's weight. -/
def Fmt.signBit (f : Fmt) : Nat := 2 ^ (f.width - 1)
/-- A code with its sign. -/
def Fmt.signed (f : Fmt) (neg : Bool) (c : Nat) : Nat := if neg then f.signBit + c else c

/-- The number that a finite magnitude code stands for, in a format of precision `p` and quantum 2^`q`. -/
def decodeMag (p : Nat) (q : Int) (neg : Bool) (c : Nat) : Dy :=
  let ex := c / 2 ^ (p - 1)
  let t := c % 2 ^ (p - 1)
  if ex = 0 then ⟨neg, t, q⟩ else ⟨neg, 2 ^ (p - 1) + t, q + ex - 1⟩

/-- The value of an encoding in an IEEE format (R36, R37). -/
def Fmt.value (f : Fmt) (bits : Nat) : Fv :=
  let c := bits % f.signBit
  let neg := bits / f.signBit % 2 == 1
  if f.infCode < c then .nan else if c = f.infCode then .inf neg else .fin (decodeMag f.p f.qmin neg c)

/-- The result of rounding a magnitude: the multiple of 2^`q`, `q`, and whether it is inexact. -/
structure Rounded where
  m : Nat
  q : Int
  inexact : Bool
  deriving DecidableEq, Repr

/-- Whether the lower neighbour `lo` × 2^q of a precision-`p` format has an odd code (for p = 1 the code is the exponent,
DEDUCED, log 14). -/
def oddCode (p : Nat) (qmin : Int) (lo : Nat) (q : Int) : Bool :=
  if p = 1 then lo != 0 && ((q - qmin + 1) % 2 == 1) else lo % 2 == 1

/-- Round ± m × 2^e to a multiple of 2^q (R48, R49): `u` is the 24-bit draw used under SR. -/
def roundAt (rm : Rm) (u : Nat) (p : Nat) (qmin q : Int) (d : Dy) : Rounded :=
  if q ≤ d.e then ⟨d.m * 2 ^ (d.e - q).toNat, q, false⟩
  else
    let s := 2 ^ (q - d.e).toNat
    let lo := d.m / s
    let r := d.m % s
    let up := match rm with
      | .rne => decide (s < 2 * r) || (decide (2 * r = s) && oddCode p qmin lo q)
      | .rtz => false
      | .rup => !d.neg && decide (r ≠ 0)
      | .rdn => d.neg && decide (r ≠ 0)
      | .sr => decide (u * s < 2 ^ 24 * r)
    ⟨if up then lo + 1 else lo, q, decide (r ≠ 0)⟩

/-- Exponent of the quantum that a precision-`p` result of this size has when the exponent is unbounded below. -/
def freeQuantum (p : Nat) (d : Dy) : Int := (Nat.log2 d.m : Int) + d.e - ((p : Int) - 1)

/-- Round a nonzero number in a format of precision `p` and least quantum 2^`qmin`, its exponent unbounded above, and
say whether the result is tiny (R56: after rounding, with the exponent unbounded below). -/
def roundMag (rm : Rm) (u : Nat) (p : Nat) (qmin : Int) (d : Dy) : Rounded × Bool :=
  let q0 := freeQuantum p d
  let r := roundAt rm u p qmin (max q0 qmin) d
  let t := roundAt rm u p q0 q0 d
  (r, decide (q0 < qmin) && decide (t.m < 2 ^ (p - 1 + (qmin - q0).toNat)))

/-- The magnitude code of a rounded number. -/
def Rounded.code (p : Nat) (qmin : Int) (r : Rounded) : Nat := (r.q - qmin).toNat * 2 ^ (p - 1) + r.m

/-- Whether an overflow goes to infinity rather than to the largest finite number (R41, IEEE 754). -/
def overflowsToInf (rm : Rm) (neg : Bool) : Bool :=
  match rm with
  | .rne => true
  | .sr => true
  | .rtz => false
  | .rup => !neg
  | .rdn => neg

/-- Under SR a magnitude above the largest finite one rounds as under RNE (R49). -/
def effectiveMode (rm : Rm) (p : Nat) (qmin : Int) (maxCode : Nat) (d : Dy) : Rm :=
  match rm with
  | .sr => if maxCode ≤ (roundMag .rtz 0 p qmin d).1.code p qmin && (roundMag .rtz 0 p qmin d).1.inexact then .rne
    else .sr
  | m => m

/-- Round an exact number into an IEEE format: bits and flags (R36, R56). -/
def Fmt.round (f : Fmt) (rm : Rm) (u : Nat) (d : Dy) : Nat × Nat :=
  if d.m = 0 then (f.signed d.neg 0, 0)
  else
    let mode := effectiveMode rm f.p f.qmin (f.infCode - 1) d
    let (r, tiny) := roundMag mode u f.p f.qmin d
    let c := r.code f.p f.qmin
    if f.infCode ≤ c then
      (f.signed d.neg (if overflowsToInf mode d.neg then f.infCode else f.infCode - 1), OF ||| NX)
    else (f.signed d.neg c, if r.inexact then NX ||| (if tiny then UF else 0) else 0)

/-- Bits and flags of a value in an IEEE format. -/
def Fmt.ofValue (f : Fmt) (rm : Rm) (u : Nat) : Fv → Nat × Nat
  | .nan => (f.nanCode, 0)
  | .inf neg => (f.signed neg f.infCode, 0)
  | .fin d => f.round rm u d

/-! ### Exact operations -/

def Dy.zero (neg : Bool) : Dy := ⟨neg, 0, 0⟩
def Dy.negate (d : Dy) : Dy := { d with neg := !d.neg }
/-- The signed integer of `d` in units of 2^e, for e at most its own exponent. -/
def Dy.units (d : Dy) (e : Int) : Int :=
  let n : Int := (d.m * 2 ^ (d.e - e).toNat : Nat)
  if d.neg then -n else n
def Dy.ofInt (n : Int) (e : Int) (zeroNeg : Bool) : Dy := ⟨if n = 0 then zeroNeg else decide (n < 0), n.natAbs, e⟩

/-- Exact sum; a zero sum is -0 when both terms are -0, or under RDN when the terms cancel. -/
def Dy.add (rm : Rm) (a b : Dy) : Dy :=
  let e := min a.e b.e
  let zn := if a.m = 0 ∧ b.m = 0 ∧ a.neg = b.neg then a.neg else decide (rm = .rdn)
  Dy.ofInt (a.units e + b.units e) e zn

/-- Exact product. -/
def Dy.mul (a b : Dy) : Dy := ⟨a.neg != b.neg, a.m * b.m, a.e + b.e⟩

def Fv.negate : Fv → Fv
  | .nan => .nan
  | .inf n => .inf (!n)
  | .fin d => .fin d.negate

def Fv.isNeg : Fv → Bool
  | .nan => false
  | .inf n => n
  | .fin d => d.neg

def Fv.abs : Fv → Fv
  | .nan => .nan
  | .inf _ => .inf false
  | .fin d => .fin { d with neg := false }

/-- Sum of two values, exact, with NV for infinities of both signs (R37). -/
def Fv.add (rm : Rm) : Fv → Fv → Fv × Nat
  | .nan, _ => (.nan, 0)
  | _, .nan => (.nan, 0)
  | .inf a, .inf b => if a = b then (.inf a, 0) else (.nan, NV)
  | .inf a, .fin _ => (.inf a, 0)
  | .fin _, .inf b => (.inf b, 0)
  | .fin a, .fin b => (.fin (a.add rm b), 0)

/-- Product of two values, exact, with NV for 0 × ∞ (R37). -/
def Fv.mul : Fv → Fv → Fv × Nat
  | .nan, _ => (.nan, 0)
  | _, .nan => (.nan, 0)
  | .inf a, .inf b => (.inf (a != b), 0)
  | .inf a, .fin b => if b.m = 0 then (.nan, NV) else (.inf (a != b.neg), 0)
  | .fin a, .inf b => if a.m = 0 then (.nan, NV) else (.inf (a.neg != b), 0)
  | .fin a, .fin b => (.fin (a.mul b), 0)

/-! ### Rounded helpers of R9 on bit patterns -/

/-- Round a value that came with flags. -/
def finishF (f : Fmt) (rm : Rm) (u : Nat) (v : Fv × Nat) : Nat × Nat :=
  let r := f.ofValue rm u v.1
  (r.1, r.2 ||| v.2)

def fadd (f : Fmt) (rm : Rm) (u a b : Nat) : Nat × Nat := finishF f rm u ((f.value a).add rm (f.value b))
def fsub (f : Fmt) (rm : Rm) (u a b : Nat) : Nat × Nat := finishF f rm u ((f.value a).add rm (f.value b).negate)
def fmul (f : Fmt) (rm : Rm) (u a b : Nat) : Nat × Nat := finishF f rm u ((f.value a).mul (f.value b))
/-- a × b + c with one rounding. A NaN addend gives NaN; 0 × ∞ beside it is not examined (R37). -/
def ffma (f : Fmt) (rm : Rm) (u a b c : Nat) : Nat × Nat :=
  match f.value c with
  | .nan => (f.nanCode, 0)
  | vc =>
    let p := (f.value a).mul (f.value b)
    let s := p.1.add rm vc
    finishF f rm u (s.1, s.2 ||| p.2)

/-- Quotient of two nonzero numbers to 64 bits beyond the binary point and a sticky bit. -/
def Dy.div (a b : Dy) : Dy :=
  let n := a.m * 2 ^ 64
  ⟨a.neg != b.neg, 2 * (n / b.m) + (if n % b.m = 0 then 0 else 1), a.e - b.e - 65⟩

/-- a / b: DZ for a finite nonzero number over zero, NV for 0/0 and ∞/∞ (R19, R37). -/
def Fv.div : Fv → Fv → Fv × Nat
  | .nan, _ => (.nan, 0)
  | _, .nan => (.nan, 0)
  | .inf _, .inf _ => (.nan, NV)
  | .inf a, .fin b => (.inf (a != b.neg), 0)
  | .fin a, .inf b => (.fin (Dy.zero (a.neg != b)), 0)
  | .fin a, .fin b =>
    if b.m = 0 then (if a.m = 0 then (.nan, NV) else (.inf (a.neg != b.neg), DZ))
    else if a.m = 0 then (.fin (Dy.zero (a.neg != b.neg)), 0)
    else (.fin (a.div b), 0)

def fdiv (f : Fmt) (rm : Rm) (u a b : Nat) : Nat × Nat := finishF f rm u ((f.value a).div (f.value b))

/-- Compare two non-NaN values: a < b. -/
def Fv.lt : Fv → Fv → Bool
  | .nan, _ => false
  | _, .nan => false
  | .inf a, .inf b => a && !b
  | .inf a, .fin _ => a
  | .fin _, .inf b => !b
  | .fin a, .fin b => let e := min a.e b.e; decide (a.units e < b.units e)

/-- Equality by value (−0 equals +0); false on NaN. -/
def Fv.eqv : Fv → Fv → Bool
  | .nan, _ => false
  | _, .nan => false
  | .inf a, .inf b => a == b
  | .inf _, .fin _ => false
  | .fin _, .inf _ => false
  | .fin a, .fin b => let e := min a.e b.e; decide (a.units e = b.units e)

/-- Below in the order of R58, in which −0 stands below +0. -/
def Fv.below (a b : Fv) : Bool :=
  a.lt b || (a.eqv b && a.isNeg && !b.isNeg)

/-- Maximum and minimum of R58: the first operand on equality, the canonical NaN for a NaN. -/
def fmax (f : Fmt) (a b : Nat) : Nat :=
  match f.value a, f.value b with
  | .nan, _ => f.nanCode
  | _, .nan => f.nanCode
  | va, vb => if va.below vb then b else a
def fmin (f : Fmt) (a b : Nat) : Nat :=
  match f.value a, f.value b with
  | .nan, _ => f.nanCode
  | _, .nan => f.nanCode
  | va, vb => if vb.below va then b else a

/-! ### Integers (R34, R35) -/

/-- The integer nearest to an exact number under a mode. -/
def Dy.toInt (rm : Rm) (u : Nat) (d : Dy) : Int × Bool :=
  let r := roundAt rm u 24 0 0 d
  (if d.neg then -(r.m : Int) else (r.m : Int), r.inexact)

/-- Conversion to an integer range (R35). Under SR a value between the range's end and the next integer draws between the two, and
the outer one raises NV; R49's last sentence could also be read to round it as under RNE (DESIGN CHOICE, log 75). -/
def toIntRange (rm : Rm) (u : Nat) (lo hi : Int) : Fv → Int × Nat
  | .nan => (0, NV)
  | .inf true => (lo, NV)
  | .inf false => (hi, NV)
  | .fin d =>
    let (n, ix) := d.toInt rm u
    if n < lo then (lo, NV) else if hi < n then (hi, NV) else (n, if ix then NX else 0)

/-- An integer as an exact value. -/
def Fv.ofInt (n : Int) : Fv := .fin (Dy.ofInt n 0 false)

/-- Clamp to a range, with SAT when the clamp changes the value (R34). -/
def clampSat (lo hi n : Int) : Int × Nat := if n < lo then (lo, SAT) else if hi < n then (hi, SAT) else (n, 0)

/-- The `n`-bit pattern of an integer. -/
def ofI (n : Nat) (v : Int) : Nat := (v % (2 ^ n : Nat)).toNat

/-! ### exp2 (R52, R53) -/

/-- Set the bits of `acc` from position `n - 1` down where `p` still holds. -/
def bisect (p : Nat → Bool) : Nat → Nat → Nat
  | 0, acc => acc
  | n + 1, acc => bisect p n (if p (acc + 2 ^ n) then acc + 2 ^ n else acc)

/-- The significand of T[i]: 2^(23 + i/128) rounded to the nearest integer (R52). -/
def expSig (i : Nat) : Nat := bisect (fun n => decide ((2 * n - 1) ^ 128 ≤ 2 ^ (24 * 128 + i))) 25 0

/-- T[i] of R52 as F32 bits. -/
def expT (i : Nat) : Nat := (f32.round .rne 0 ⟨false, expSig i, -23⟩).1

/-- S[i] of R52: T[i+1] - T[i], rounded, times 128 exactly. -/
def expS (i : Nat) : Dy :=
  match f32.value (fsub f32 .rne 0 (expT (i + 1)) (expT i)).1 with
  | .fin d => { d with e := d.e + 7 }
  | _ => Dy.zero false

/-- exp2 of R53 on F32 bits: result and flags. -/
def exp2 (t : Nat) : Nat × Nat :=
  match f32.value t with
  | .nan => (f32.nanCode, 0)
  | .inf true => (0, 0)
  | .inf false => (f32.infCode, 0)
  | .fin d =>
    let sh := (max (-d.e) 0).toNat
    let num : Int := d.units (min d.e 0)
    let n : Int := num / (2 ^ sh : Nat)
    let f : Nat := (num % (2 ^ sh : Nat)).toNat
    let i := 128 * f / 2 ^ sh
    let rem : Dy := ⟨false, 128 * f % 2 ^ sh, -(sh : Int) - 7⟩
    let prod := (f32.round .rne 0 ((expS i).mul rem)).1
    let m := (fadd f32 .rne 0 (expT i) prod).1
    let nx := if f ≠ 0 then NX else 0
    match f32.value m with
    | .fin dm =>
      let top : Int := (Nat.log2 dm.m : Int) + dm.e + n
      if 128 ≤ top then (f32.infCode, OF ||| NX)
      else if top < -126 then (0, UF ||| NX ||| nx)
      else ((f32.round .rne 0 { dm with e := dm.e + n }).1, nx)
    | _ => (f32.nanCode, nx)

/-! ### Special functions of R200 -/

/-- Largest n with n × n ≤ v, for v below 2^(2·fuel). -/
def isqrt (fuel v : Nat) : Nat := bisect (fun n => decide (n * n ≤ v)) fuel 0

/-- 1/x (R200). -/
def frcp (x : Nat) : Nat × Nat :=
  match f32.value x with
  | .fin d => if d.m = 0 then (f32.signed d.neg f32.infCode, DZ) else f32.round .rne 0 ((⟨false, 1, 0⟩ : Dy).div d)
  | .inf neg => (f32.signed neg 0, 0)
  | .nan => (f32.nanCode, 0)

/-- 1/√x (R200). -/
def frsq (x : Nat) : Nat × Nat :=
  match f32.value x with
  | .nan => (f32.nanCode, 0)
  | .inf true => (f32.nanCode, NV)
  | .inf false => (0, 0)
  | .fin d =>
    if d.m = 0 then (f32.signed d.neg f32.infCode, DZ)
    else if d.neg then (f32.nanCode, NV)
    else
      let odd := (d.e % 2).toNat
      let m := d.m * 2 ^ odd
      let y := 2 ^ 128 / m
      let n := isqrt 65 y
      f32.round .rne 0 ⟨false, 2 * n + (if n * n * m = 2 ^ 128 then 0 else 1), -65 - (d.e - odd) / 2⟩

/-- Bits of the fraction of log2 by repeated squaring of z / 2^256 in [1, 2) (DEDUCED, log 13). -/
def log2Bits : Nat → Nat → Nat → Nat
  | 0, _, acc => acc
  | n + 1, z, acc =>
    let s := z * z / 2 ^ 256
    if 2 ^ 257 ≤ s then log2Bits n (s / 2) (2 * acc + 1) else log2Bits n s (2 * acc)

/-- log2 x (R200). -/
def flog2 (x : Nat) : Nat × Nat :=
  match f32.value x with
  | .nan => (f32.nanCode, 0)
  | .inf true => (f32.nanCode, NV)
  | .inf false => (f32.infCode, 0)
  | .fin d =>
    if d.m = 0 then (f32.signed true f32.infCode, DZ)
    else if d.neg then (f32.nanCode, NV)
    else
      let l := Nat.log2 d.m
      let ex : Int := (l : Int) + d.e
      if d.m = 2 ^ l then f32.ofValue .rne 0 (Fv.ofInt ex)
      else
        let fr := log2Bits 80 (d.m * 2 ^ (256 - l)) 0
        let n : Int := ex * (2 ^ 80 : Nat) + fr
        let mag : Nat := if n < 0 then 2 * (n.natAbs - 1) + 1 else 2 * n.natAbs + 1
        f32.round .rne 0 ⟨decide (n < 0), mag, -81⟩

end Sys2Proof.Machine
end

