-- ==== Sys2Proof/Machine/Quant.lean ====
section
/-! DEFINITION. Element formats (R33, R34, R38 to R41), block scales (R42, R43), companders (R44 to R46) and quantisation
both ways (R47). -/

namespace Sys2Proof.Machine

/-- Whether a code names a binary8 format (R38): bits [4:3] are 0b00 and P is not 0. -/
def isB8 (fmt : Nat) : Bool := fld fmt 7 1 == 1 && fld fmt 3 2 == 0 && fld fmt 0 3 != 0

/-- Whether a code is listed in R33 or R38. -/
def validFmt (fmt : Nat) : Bool :=
  (decide (1 ≤ fmt) && decide (fmt ≤ 9)) || (decide (16 ≤ fmt) && decide (fmt ≤ 19)) || (decide (fmt < 256) && isB8 fmt)

/-- Width in bits of an element format (R33). -/
def fmtWidth (fmt : Nat) : Nat :=
  if 128 ≤ fmt then 8
  else match fmt with
    | 1 => 8
    | 2 => 16
    | 3 => 32
    | 4 => 64
    | 5 => 8
    | 6 => 16
    | 7 => 32
    | 8 => 64
    | 9 => 4
    | 16 => 32
    | 17 => 16
    | 18 => 16
    | _ => 8

/-- The range of an integer format (R34), if the code names one. -/
def intRange (fmt : Nat) : Option (Int × Int) :=
  match fmt with
  | 1 => some (-128, 127)
  | 2 => some (-32768, 32767)
  | 3 => some (-2147483648, 2147483647)
  | 4 => some (-9223372036854775808, 9223372036854775807)
  | 5 => some (0, 255)
  | 6 => some (0, 65535)
  | 7 => some (0, 4294967295)
  | 8 => some (0, 18446744073709551615)
  | 9 => some (-8, 7)
  | _ => none

/-- The IEEE format a code names (R33). -/
def ieeeOf (fmt : Nat) : Option Fmt :=
  match fmt with
  | 16 => some f32
  | 17 => some f16
  | 18 => some bf16
  | _ => none

/-! ### binary8 (R38 to R41) -/

def b8P (fmt : Nat) : Nat := fld fmt 0 3
def b8Nat (fmt : Nat) : Bool := fld fmt 5 1 == 1
def b8Ext (fmt : Nat) : Bool := fld fmt 6 1 == 1
/-- Exponent width w of R39. -/
def b8W (fmt : Nat) : Nat := (if b8Nat fmt then 9 else 8) - b8P fmt
/-- Exponent of the quantum: 1 - bias - (P - 1). -/
def b8Q (fmt : Nat) : Int := 2 - (2 ^ (b8W fmt - 1) : Nat) - (b8P fmt : Int)
/-- The NaN code of R39. -/
def b8NaN (fmt : Nat) : Nat := if b8Nat fmt then 255 else 128
/-- The magnitude code of the largest finite value (R39, R40). -/
def b8Max (fmt : Nat) : Nat := (if b8Nat fmt then 254 else 127) - (if b8Ext fmt then 1 else 0)

/-- The value of a binary8 code (R39). -/
def b8Decode (fmt c : Nat) : Fv :=
  if c = b8NaN fmt then .nan
  else if b8Nat fmt then
    (if b8Ext fmt ∧ c = 254 then .inf false else .fin (decodeMag (b8P fmt) (b8Q fmt) false c))
  else if b8Ext fmt ∧ c % 128 = 127 then .inf (decide (128 ≤ c))
  else .fin (decodeMag (b8P fmt) (b8Q fmt) (decide (128 ≤ c)) (c % 128))

/-- A nonzero magnitude code with its sign; zero has one code (R39, R41). -/
def b8Signed (fmt : Nat) (neg : Bool) (c : Nat) : Nat := if neg && c != 0 && !b8Nat fmt then 128 + c else c

/-- Encoding into a binary8 format (R41). -/
def b8Encode (fmt : Nat) (rm : Rm) (u : Nat) : Fv → Nat × Nat
  | .nan => (b8NaN fmt, 0)
  | .inf neg =>
    if neg && b8Nat fmt then (b8NaN fmt, NV)
    else if b8Ext fmt then (b8Signed fmt neg (b8Max fmt + 1), 0)
    else (b8Signed fmt neg (b8Max fmt), OF ||| NX)
  | .fin d =>
    if d.m = 0 then (0, 0)
    else
      let mode := effectiveMode rm (b8P fmt) (b8Q fmt) (b8Max fmt) d
      let (r, tiny) := roundMag mode u (b8P fmt) (b8Q fmt) d
      let c := r.code (b8P fmt) (b8Q fmt)
      if c = 0 then (0, UF ||| NX)
      else if d.neg && b8Nat fmt then (b8NaN fmt, NV)
      else if b8Max fmt < c then
        (b8Signed fmt d.neg (if b8Ext fmt && overflowsToInf mode d.neg then b8Max fmt + 1 else b8Max fmt), OF ||| NX)
      else (b8Signed fmt d.neg c, if r.inexact then NX ||| (if tiny then UF else 0) else 0)

/-! ### Elements of any format -/

/-- The exact value of an element code. E8 bytes have none here (R33). -/
def elemValue (fmt c : Nat) : Fv :=
  match ieeeOf fmt, intRange fmt with
  | some f, _ => f.value c
  | none, some (lo, _) => Fv.ofInt (if lo < 0 then toI (fmtWidth fmt) c else (c : Int))
  | none, none => b8Decode fmt c

/-- The NaN encoding of a format, with NV where an integer format takes code 0 (R47 step 1). -/
def nanEncoding (fmt : Nat) : Nat × Nat :=
  match ieeeOf fmt, intRange fmt with
  | some f, _ => (f.nanCode, 0)
  | none, some _ => (0, NV)
  | none, none => (b8NaN fmt, 0)

/-- Round a value into a format (R47 step 4). -/
def elemEncode (fmt : Nat) (rm : Rm) (u : Nat) (v : Fv) : Nat × Nat :=
  match ieeeOf fmt, intRange fmt with
  | some f, _ => f.ofValue rm u v
  | none, some (lo, hi) =>
    let r := toIntRange rm u lo hi v
    (ofI (fmtWidth fmt) r.1, r.2)
  | none, none => b8Encode fmt rm u v

/-- Multiply exactly by 2^k. -/
def Fv.scale (k : Int) : Fv → Fv
  | .fin d => .fin { d with e := d.e + k }
  | v => v

/-! ### Companders (R44 to R46) -/

/-- Word `w` of a compander table. -/
def knotWord (t : Tbl W32) (w : Nat) : Nat := (tgetD t w 0).toNat
/-- Knot K[i]. -/
def knot (t : Tbl W32) (i : Nat) : Nat := knotWord t (i + 1)
/-- Range exponent EC. -/
def tblEC (t : Tbl W32) : Int := toI 8 (fld (knotWord t 0) 0 8)

/-- Whether a table is valid (R45). -/
def tblValid (t : Tbl W32) : Bool :=
  fld (knotWord t 0) 31 1 == 1 && decide (-120 ≤ tblEC t) && decide (tblEC t ≤ 120) && knot t 0 == 0 &&
    (List.range 32).all (fun i => (f32.value (knot t i)).lt (f32.value (knot t (i + 1)))) &&
    (List.range 33).all (fun i => decide (knot t i < f32.infCode))

/-- A small integer as F32 bits. -/
def f32OfNat (n : Nat) : Nat := (f32.ofValue .rne 0 (Fv.ofInt n)).1

/-- The largest integer at most a non-negative F32, capped at `cap`. -/
def floorCap (cap bits : Nat) : Nat :=
  match f32.value bits with
  | .fin d => if 0 ≤ d.e then min cap (d.m * 2 ^ (min d.e 6).toNat) else min cap (d.m / 2 ^ (-d.e).toNat)
  | _ => cap

/-- compand of R46 on an exact magnitude: F32 bits and flags. -/
def compand (t : Tbl W32) : Fv → Nat × Nat
  | .nan => (f32.nanCode, 0)
  | .inf _ => (f32.infCode, 0)
  | .fin a =>
    let u := f32.round .rne 0 { a with neg := false, e := a.e + 5 - tblEC t }
    let s := floorCap 31 u.1
    let f := fsub f32 .rne 0 u.1 (f32OfNat s)
    let d := fsub f32 .rne 0 (knot t (s + 1)) (knot t s)
    let r := ffma f32 .rne 0 d.1 f.1 (knot t s)
    (r.1, u.2 ||| f.2 ||| d.2 ||| r.2)

/-- The largest i in 0..31 with K[i] ≤ b (R46). -/
def segmentOf (t : Tbl W32) (b : Nat) : Nat → Nat
  | 0 => 0
  | i + 1 => if (f32.value b).lt (f32.value (knot t (i + 1))) then segmentOf t b i else i + 1

/-- expand of R46 on an F32 magnitude. -/
def expand (t : Tbl W32) (b : Nat) : Nat × Nat :=
  match f32.value b with
  | .nan => (f32.nanCode, 0)
  | .inf _ => (f32.infCode, 0)
  | .fin _ =>
    let s := segmentOf t b 31
    let n := fsub f32 .rne 0 b (knot t s)
    let d := fsub f32 .rne 0 (knot t (s + 1)) (knot t s)
    let q := fdiv f32 .rne 0 n.1 d.1
    let a := fadd f32 .rne 0 (f32OfNat s) q.1
    let r := finishF f32 .rne 0 ((f32.value a.1).scale (tblEC t - 5), 0)
    (r.1, n.2 ||| d.2 ||| q.2 ||| a.2 ||| r.2)

/-- Put the sign back on a magnitude; a NaN has none (R46). -/
def withSign (neg : Bool) (r : Nat × Nat) : Nat × Nat :=
  (if r.1 = f32.nanCode then r.1 else f32.signed neg r.1, r.2)

/-- The forward map on a value with its sign removed and restored. -/
def compandSigned (t : Tbl W32) (v : Fv) : Nat × Nat := withSign v.isNeg (compand t v.abs)
/-- The inverse map on F32 bits with the sign removed and restored. -/
def expandSigned (t : Tbl W32) (b : Nat) : Nat × Nat := withSign ((f32.value b).isNeg) (expand t (b % f32.signBit))

/-! ### Quantisation (R47) -/

/-- Quantise a value under scale byte `e` and table number `tn`: code and flags. -/
def quantise (t : Tbl W32) (tn fmt e : Nat) (rm : Rm) (u : Nat) (v : Fv) : Nat × Nat :=
  if e = 255 then nanEncoding fmt
  else
    let s := v.scale (127 - (e : Int))
    if tn = 0 then elemEncode fmt rm u s
    else
      let c := compandSigned t s
      let r := elemEncode fmt rm u (f32.value c.1)
      (r.1, c.2 ||| r.2)

/-- The value of an element before its last rounding: inverse-companded and scaled (R42, R46), with flags. A code whose
value is no F32 number is rounded into F32 by RNE before expand (DEDUCED, log 14). -/
def dequantValue (t : Tbl W32) (tn fmt e c : Nat) : Fv × Nat :=
  if e = 255 then (.nan, 0)
  else if tn = 0 then ((elemValue fmt c).scale ((e : Int) - 127), 0)
  else
    let b := f32.ofValue .rne 0 (elemValue fmt c)
    let x := expandSigned t b.1
    ((f32.value x.1).scale ((e : Int) - 127), b.2 ||| x.2)

/-- Decode an element into F32 (R43): bits and flags. -/
def dequant (t : Tbl W32) (tn fmt e c : Nat) : Nat × Nat := finishF f32 .rne 0 (dequantValue t tn fmt e c)

/-- EMAX of R196 for FMTSEL under table 0: floor(log2(largest finite magnitude)). -/
def emaxOf (fmt : Nat) : Int :=
  match fmt with
  | 1 => 6
  | 5 => 7
  | 9 => 2
  | _ => match decodeMag (b8P fmt) (b8Q fmt) false (b8Max fmt) with
    | d => (Nat.log2 d.m : Int) + d.e

end Sys2Proof.Machine
end

