-- ==== Sys2Proof/Config.lean ====
section
/-! DEFINITION. What the part fixes (R1, R3, R154, R162, R257) and the free values: quantities whose value the manual
leaves open, each a constant with no body. -/

namespace Sys2Proof.Config

def benches : Nat := 256
def cores : Nat := 1024
def clusters : Nat := 128
def coresPerCluster : Nat := 8
def slotsPerCore : Nat := 11
def pipeEntriesPerCluster : Nat := 2048
def sramBytes : Nat := 0x300000
def localBytes : Nat := 0x20000
def coreTlb : Nat := 64
def clusterTlb : Nat := 2048
def pinnedStore : Nat := 16384
def copyLimit : Nat := 512
def bteLimit : Nat := 256
def rmaTicketLimit : Nat := 64
def ageingTicks : Nat := 131072
def deferralTicks : Nat := 262144
def ebudgetTicks : Nat := 65536
def stagedWords : Nat := 256
def shootdownQueue : Nat := 16
def weavePortQueue : Nat := 16
def connectionCache : Nat := 16384
def prefetchTicks : Nat := 2048
/-- Lines of a core's L1 and of a die's L2 (R3). -/
def l1Lines : Nat := 512
def l2Lines : Nat := 1048576

/-- The weave power that a die's power manager measures (R414), at the n-th measurement: a free value. -/
opaque weavePower : Nat → Nat
/-- Ticks that the n-th expansion of a segment takes, up to the limit `prefetchTicks` (R159): a free value. -/
opaque prefetchDelay : Nat → Nat
/-- Whether a buffered store of a launch that a launch-wide fault ends drains or is dropped (R369), at the n-th such
choice: a free value. -/
opaque faultedStoreDrains : Nat → Bool
/-- What the n-th update of the lifetime records adds to bin `i` of the temperature and supply histograms (0 to 127
temperature, 128 to 255 supply; die 0 before die 1), and the seconds that an orderly power-down finds powered since the
update before (R385, R417): free values. -/
opaque histogramCount : Nat → Nat → Nat
opaque poweredSeconds : Nat → Nat
/-- Byte `i` of a connection's transport state at its n-th spill (R404, R418): a free value. -/
opaque transportState : Nat → Nat → BitVec 8
/-- Latency from a bench to a Spline port in ticks (R323): a free value. -/
opaque portPath : Nat → Nat → Nat
/-- How far beyond the horizon a leader sets its n-th pause tick (R400): a free value. -/
opaque pauseChoice : Nat → Nat

/-- Ticks that a command on a connection takes, and the fetch of a connection's context, from the tick at which it begins (R404, R418);
whether the fetch of a context succeeds (R404): free values. -/
opaque connectionDelay : Nat → Nat → Nat
opaque contextFetchDelay : Nat → Nat → Nat
opaque contextFetched : Nat → Nat → Bool

end Sys2Proof.Config
end

