-- ==== Sys2Proof/Machine/State.lean ====
section
/-! DEFINITION. The state of one OCF-4208 package: everything the manual gives it, as plain data, in six parts (control
of the step, memory, weave plane, frame plane, engines and fabric, host side), and the state after reset. -/

namespace Sys2Proof.Machine

/-- Why the machine stops with a fault. It names no behaviour of the manual: it says that `exec` was asked to run an
event that has nothing to act on (safe: the machine itself never asks so). -/
inductive Fault where
  /-- Raised by an event's meaning when what the event is about (a copy, a request, a launch) does not exist. Safe. -/
  | noSubject
  deriving DecidableEq, Repr

/-- Why an instruction has no meaning. -/
inductive Refusal where
  /-- The arm of `exec` gives the instruction no meaning yet. Safe. -/
  | notModelled (mnemonic : String)
  deriving DecidableEq, Repr

/-! ### Control of the step -/

/-- The slots of a bundle, in slot order (R64). -/
inductive SlotName where
  | a0 | a1 | m | v0 | v1 | x | l | c
  deriving DecidableEq, Repr

/-- Who executes a syllable: a context (16 × core + slot), a slot of a bench's bundle, or a bench reading a bundle's
header. -/
inductive Actor where
  | none
  | ctx (c : Nat)
  | slot (b : Nat) (sl : SlotName)
  | header (b : Nat)
  deriving DecidableEq, Repr

/-- What became of the last syllable executed. -/
inductive Verdict where
  | retired | trapped | waiting | faulted
  | issued                   -- its group has issued, and waits (R102, R129)
  deriving DecidableEq, Repr

/-- What the machine does next. -/
inductive Act where
  /-- An event of the opcode table. -/
  | event (i : Instr)
  /-- A context issues its next group. -/
  | issue (c : Nat)
  /-- A context's group that has issued and waits tries to end; it takes no issue slot (R102, R129, R260). -/
  | finish (c : Nat)
  /-- The conditions of a context's stalled group are tested (R117). -/
  | test (c : Nat)
  /-- A context's replay unit runs the next group of its block (R144). -/
  | replay (c : Nat)
  /-- A bench issues its next bundle, after the nullifier (R167, R168). -/
  | bundle (b : Nat)
  /-- A bench issues its jig's template bundle (R322). -/
  | template (b : Nat)
  /-- A part of a tick, planned when it is reached. -/
  | phase (n : Nat)
  deriving DecidableEq, Repr

/-- Control of the step: the executing party, its group, and the agenda of the tick in progress. -/
structure Ctl where
  cur : Actor                -- who executes
  group : Nat                -- address of the group's first syllable, or of the bundle's BHDR
  syl : Nat                  -- address of the syllable being executed
  link : Nat                 -- address after the group or bundle (R92)
  ext : Option Nat           -- EXT[23:0] standing before the syllable (R62)
  verdict : Verdict
  agenda : List Act
  inbox : List Instr         -- events that come from outside the package and wait for their tick (DESIGN CHOICE, log 11)
  now : Nat                  -- arithmetic-clock ticks since boot
  free : Nat                 -- the model's counter of free values drawn
  deriving DecidableEq, Repr

/-! ### Memory -/

/-- A translation as a TLB or a pinned store holds it (R272, R273): page base and size, and the leaf's attributes. -/
structure Leaf where
  va : Nat          -- first virtual address of the page (57 bits)
  pa : Nat
  size : Nat
  typed : Bool
  fmt : Nat
  geo : Nat
  tbl : Nat
  cmp : Bool
  nc : Bool
  x : Bool
  w : Bool
  rd : Bool
  u : Bool
  deriving DecidableEq, Repr

/-- A translation with the address space it belongs to (R278). -/
structure TlbEntry where
  asid : Nat
  leaf : Leaf
  deriving DecidableEq, Repr

/-- Memory of the package: every byte by physical address (HBM, tensor SRAM, host memory), what L2 and the L1s of the
home die hold newer than HBM, the words that are empty, and the local memories by core × 128 KiB + offset. -/
structure Mem where
  cells : Memory
  dirty : Tbl Byte           -- L2 and home-die L1 data not yet in HBM (R263)
  empties : Tbl Unit         -- words marked empty, by word-aligned address; every other word is full (R292)
  local_ : Memory            -- local memories (R115, R257)
  deriving DecidableEq, Repr

/-! ### Weave plane -/

/-- A cut-list register: the image's words by index, and the address CL.SEND last filled it from (R330). -/
structure ClReg where
  bytes : List Byte
  addr : Nat
  deriving DecidableEq, Repr

/-- What a context that is not ready waits for (R129 and the rules named). -/
inductive Wait where
  | pipe (token : Bool)           -- R117; a stop token stands among the entries to be popped (R382)
  | wfe (bound : Nat)             -- R102
  | yield (others : List Nat)     -- R147
  | join                          -- R137
  | gwait                         -- R141
  | event                         -- R148
  | barrier                       -- R337
  | fill                          -- R298
  | watermark                     -- R318
  | engine                        -- R302
  | spline                        -- R342, R343
  | ticket                        -- R347
  | port (b : Nat)                -- R260
  | drain                         -- R29: a partly overlapping buffered store
  deriving DecidableEq, Repr

/-- A pending replay (R144): the block's words, the execution and the position reached. -/
structure Replay where
  words : List Nat
  addr : Nat
  fm : Nat
  stride : Nat
  count : Nat                -- executions still to begin after the one in progress
  k : Nat
  pos : Nat
  deriving DecidableEq, Repr

/-- A weave context (R11, R20, R51, R101, R330, R347, R364). -/
structure Ctx where
  xs : Tbl W64
  ys : Tbl W256
  ps : BitVec 8              -- bit n is p n; bit 0 is not read (p0 reads true)
  pc : W64
  jumped : Bool              -- PC was reached by a control transfer, a trap or a return, not by falling through (R14, R74)
  status : W64
  flags : W64
  firsterr : W64
  seed : W64
  epc : W64
  cause : W64
  faddr : W64
  asid : W64
  drawc : W64
  evpend : W64
  evnew : W64                -- this cycle's arrivals, EVPEND bits as well (R101, R102)
  sscr : Tbl W64
  clr : Tbl ClReg
  ticket : W64               -- ticket counter (R347)
  gen : Nat                  -- generation of the helper (R135)
  wait : Option Wait
  since : Option Nat         -- tick at which the present wait began
  arrived : Tbl Nat          -- by syllable address, the phase and barrier in which a waiting GBAR has arrived (R141)
  granted : Bool             -- its access stands at the head of a weave port this tick (R260)
  elems : Option (Leaf × Nat) -- what a LDYF has read whose scale byte is still to be read, with its translation (R260, R299)
  replay : Option Replay
  gang : Nat
  role : Nat
  halted : Bool              -- halted by a stop token (R382)
  deriving DecidableEq, Repr

/-- An entry of a core's store buffer (R29): to physical memory or to a core's local memory. -/
structure BufStore where
  ctx : Nat
  isLocal : Bool
  addr : Nat                 -- physical address, or core × 128 KiB + offset
  bytes : List Byte
  nc : Bool                  -- to an uncacheable page (R261)
  more : Bool                -- the entry before it belongs to the same store (R30)
  asid : Nat                 -- address space of the store, which may outlast its context (R280)
  deriving DecidableEq, Repr

/-- A weave core: what its contexts share. -/
structure Core where
  sb : List BufStore         -- oldest first
  remote : Tbl (List Byte)   -- L1 copies of lines homed on the other die, by line address (R261)
  fetched : Tbl (List Byte)  -- fetched lines, not coherent with stores (R32)
  tlb : List TlbEntry        -- oldest first
  last : Nat                 -- slot that issued last (R129)
  gang : Option Nat
  role : Nat
  nhlp : Nat
  gens : Tbl Nat             -- generation of each helper slot (R135)
  deriving DecidableEq, Repr

/-- A block-transfer copy in flight (R302, R303, R335). -/
structure BteCopy where
  ctx : Nat
  asid : Nat
  user : Bool
  clr : ClReg
  draw : W64
  seed : W64
  rm : Nat
  done : Nat                 -- elements performed
  counted : Nat              -- bytes already subtracted from its barrier
  flags : W64
  linear : Option (Nat × Nat) -- watermark channel and epoch (R318)
  launch : Nat
  gang : Nat
  gen : Nat
  epc : Nat                  -- address of the group that issued it
  leaves : List Leaf         -- the translations that its parts use, one for each page (R281)
  deriving DecidableEq, Repr

/-- A watermark channel (R317, R318): its two registers and the byte ranges its epoch's copies have written. -/
structure Watermark where
  cfg : W64
  pos : W64
  done : List (Nat × Nat)
  deriving DecidableEq, Repr

/-- What the eight cores of a cluster share (R109, R131, R278, R302, R317). -/
structure Cluster where
  fused : Bool
  tlb : List TlbEntry
  bte : Tbl BteCopy
  wm : Tbl Watermark
  deriving DecidableEq, Repr

/-- An entry of a pipe: a pushed value, or a stop token (R116, R382). -/
inductive PipeEntry where
  | value (w : W64)
  | token
  deriving DecidableEq, Repr

/-- A pipe of a gang (R112, R116, R118). -/
structure Pipe where
  entries : List PipeEntry   -- oldest first
  depth : Nat
  prole : Nat
  pq : Nat
  crole : Nat
  cq : Nat
  pclosed : Bool
  cclosed : Bool
  deriving DecidableEq, Repr

/-- A gang barrier (R141). -/
structure GBar where
  phase : Nat
  arr : Nat
  tgt : Nat
  deriving DecidableEq, Repr

/-- A placed gang (R111, R114): its launch, index and cluster, the core of each role, its pipes and barriers. -/
structure Gang where
  launch : Nat
  idx : Nat
  cluster : Nat
  cores : List Nat
  pipes : List Pipe
  bars : Tbl GBar
  haltedRoles : List Nat
  stopping : Bool
  deriving DecidableEq, Repr

/-- A gang descriptor as read from memory (R112). -/
structure GangDesc where
  entries : List Nat         -- entry of each role
  helpers : List Nat
  pipes : List Pipe
  deriving DecidableEq, Repr

/-- Where a weave launch record stands (R124, R125); one that is spent has ended, and waits for the entry that reports its end (R412). -/
inductive LaunchState where
  | waiting | ready | running | preempting | preempted | spent
  deriving DecidableEq, Repr

/-- A cause that ends a launch, with what the fault record reports (R361, R370, R371). -/
structure FaultCause where
  code : Nat
  info : Nat
  faddr : Nat
  epc : Nat
  kind : Nat                 -- 0 weave context, 1 bench, 2 package
  who : Nat                  -- context number or bench
  firsterr : W64
  deriving DecidableEq, Repr

/-- A weave launch record that has been read (R123, R125). -/
structure Launch where
  queue : Nat
  index : Nat
  asid : Nat
  tvec : Nat
  ngang : Nat
  dies : Nat
  prio : Nat
  ecls : Nat
  det : Bool
  tsq : Bool
  fl1 : Bool
  clx : Bool
  desc : GangDesc
  waitval : Nat
  wctr : Nat
  sctr : Nat
  siginc : Nat
  seed : Nat
  ltag : Nat
  args : List Nat
  state : LaunchState
  readyAt : Nat
  age : Nat                  -- priority steps gained by waiting (R127)
  undeferred : List Nat      -- dies on which its energy deferral has ended (R128)
  placed : List Nat          -- gang indexes placed, the ended ones among them
  ended : List Nat           -- gang indexes ended
  save : Option Nat          -- save address of a pre-emption in progress or made
  savedGangs : List Nat
  opened : List Nat          -- saved gangs for which a mortise has opened since they were saved (R101, R103)
  jumps : List Nat           -- saved contexts, by placeCode, that a transfer brought to their PC (R14, R74)
  faults : List FaultCause   -- causes that arose at this tick
  deriving DecidableEq, Repr

/-- A die's dispatcher (R126 to R128): its reservation (launch, gang, cluster) and energy budget. -/
structure Dispatcher where
  reserved : Option (Nat × Nat × Nat)
  ebudget : Nat
  deriving DecidableEq, Repr

/-- The weave plane. -/
structure Weave where
  ctxs : Tbl Ctx             -- by 16 × core + slot
  cores : Tbl Core
  clusters : Tbl Cluster
  gangs : Tbl Gang
  launches : Tbl Launch
  dispatchers : Tbl Dispatcher
  left : Tbl Ctx             -- control contexts as they ended, until their core takes another role (R390, R424); nothing reads it (R22)
  evctr : Tbl W64            -- event counters (R122)
  nextId : Nat               -- the model's next number for a gang, launch or copy
  deriving DecidableEq, Repr

/-! ### Frame plane -/

/-- An operand latch (R221). -/
structure Latch where
  valid : Bool
  rows : List (List Byte)    -- 128 rows of element codes, ascending k
  scales : List (List Byte)
  fmt : Nat
  geo : Nat
  tbl : Nat
  kg : Nat
  deriving DecidableEq, Repr

/-- A bound accumulator slot (R222): the tile by 128 × row + column, and the row state. -/
structure AccSlot where
  acc : Tbl W32
  m : Tbl W32
  l : Tbl W32
  deriving DecidableEq, Repr

/-- A winnow entry (R244). -/
structure WinEntry where
  valid : Bool
  desc : W64
  sv : Bool
  sig : List W32
  deriving DecidableEq, Repr

/-- What a result in flight does when it lands (R81, R188, R224, R251). -/
inductive Effect where
  | a (i : Nat) (v : W64)
  | v (i : Nat) (lo n : Nat) (v : W1024)   -- physical register, bit range, value
  | g (i : Nat) (b : Bool)
  | flags (f : W64)
  | slot (h : Nat) (mm : Bool) (s : AccSlot)  -- mm: from an MM or MMS (R225)
  | release (h : Nat)
  | rows (h : Nat) (w : List (Nat × List Byte)) -- P rows: offset and bytes, with the handle of their OSM.UPD (R226)
  | latch (t : Latch)
  | swap
  | seqlen (i : Nat) (v : W32)
  | keep (acc : Nat) (w : List (Nat × List Byte)) -- WIN.KEEP copy, with its tick of issue (R254, R313)
  deriving DecidableEq, Repr

/-- A result in flight on a bench: landing tick in the ticks that the bench runs, and order of issue. -/
structure Pending where
  at_ : Nat
  ord : Nat
  eff : Effect
  deriving DecidableEq, Repr

/-- State of a bench's jig (R319 to R322). -/
inductive JigState where
  | idle | loaded | run
  deriving DecidableEq, Repr

/-- A bench's jig: stored program, state, iterations made, start tick and anchor of the last JIG.GO, trip counts. -/
structure Jig where
  store : List Byte
  addr : Nat
  state : JigState
  iter : Nat
  start : Nat
  anchor : Nat
  trips : List Nat
  deriving DecidableEq, Repr

/-- A half of a loop buffer (R159): the expanded segment, and when it is ready. -/
structure Half where
  hdr : Nat
  body : Nat
  nsyl : Nat
  bitmap : List Byte
  words : List Nat
  next : Nat
  readyAt : Nat
  ready : Bool
  deriving DecidableEq, Repr

/-- An access at a weave port: a context's, or an RMA.AMO of another package in an address space (R260, R297). -/
inductive PortAccess where
  | ctx (c : Nat)
  | amo (asid : Nat) (rq : RemoteRequest)
  deriving DecidableEq, Repr

/-- A bench (R157 and the registers other chapters add), with its code path and what it has in flight. -/
structure Bench where
  a : Tbl W64
  v : Tbl W1024              -- by physical index
  g : BitVec 16              -- bit 0 is not read (g0 reads true)
  h : Tbl AccSlot            -- bound handles
  kctl : W64
  ktrip : W64
  ktop : W64
  seqlen : Tbl W32
  kvb : Tbl W64
  kvss : W64
  kvps : W64
  fmtsel : Byte
  winthr : W32
  winref : W64
  winmap : W64
  win : Tbl WinEntry
  winBusy : Nat              -- bench tick at which the winnow unit is free (R253)
  flags : W64
  drawc : W64
  clr : Tbl ClReg
  wm : Tbl Watermark
  jig : Jig
  active : Latch
  shadow : Latch
  mlatch : Tbl Bool          -- outcome of each mortise's most recent latch (R181)
  busy : Bool
  ran : Bool                 -- a block has been released on it in this launch
  entry : Nat
  release : Nat              -- FCNT of the running block's release
  lastAnchor : Nat           -- FCNT of the last anchored bundle issued, or the release (R169)
  lastPause : Nat            -- FCNT of the last pause-point anchor issued, or the release (R174)
  pc : Nat                   -- BHDR address of the next bundle
  half : Nat                 -- half that holds it
  halves : Tbl Half
  fed : Bool                 -- the successor of the segment in `half` has been begun (R159)
  w0 : Nat                   -- widths of the bundle in progress, in bits
  w1 : Nat
  bubble : Nat               -- bench tick before which nothing issues (R94)
  tick : Nat                 -- ticks at which the bench has run
  pend : List Pending
  arrayBusy : Nat            -- bench tick at which the matrix array is free (R225)
  landed : List (Nat × Nat)  -- bench tick and handle of the latest landings of P rows (R226, R355)
  port : List PortAccess     -- accesses that wait at the weave port (R260)
  deriving DecidableEq, Repr

/-- An entry of the timetable (R164). -/
structure TtEntry where
  release : Nat
  energy : Nat
  mask : Nat
  seg : Nat
  live : List (Nat × Nat)
  deriving DecidableEq, Repr

/-- A mortise (R176): its regions as bench, offset and length. -/
structure Mortise where
  open_ : Nat
  close : Nat
  asid : Nat
  hold : Bool
  regions : List (Nat × Nat × Nat)
  mask : Nat
  deriving DecidableEq, Repr

/-- A tenon (R177). -/
structure Tenon where
  dkind : Nat
  didx : Nat
  mort : Nat
  dflt : Nat
  deriving DecidableEq, Repr

/-- An entry of the channel table (R323) with the entries put, as due tick, issue tick and
value, and those landed, as landing tick and value, oldest first. -/
structure Channel where
  prod : Nat
  cons : Nat
  route : Nat
  xpkg : Bool
  sport : Nat
  ty : Nat
  width : Nat
  depth : Nat
  lat : Nat
  flying : List (Nat × Nat × W1024)
  landed : List (Nat × W1024)
  inbound : List (Nat × W1024) -- entries of another package that wait for their due tick (R324, R399)
  deriving DecidableEq, Repr

/-- A granule that a copy touches: its address, whether it is written, the tick its request falls due, the slot start
assigned, the tick it effected, and the bytes sampled. -/
structure Granule where
  pa : Nat
  write : Bool
  reqAt : Nat
  asked : Bool
  slotAt : Option Nat
  taken : Bool
  bytes : List Byte
  late : Bool                -- an ECC re-read is outstanding (R269)
  deriving DecidableEq, Repr

/-- An in-bounds element of a copy, translated: logical index, virtual and physical address of its byte, which half of the byte an
I4 element is, and its page's translation. -/
structure CopyElem where
  idx : Nat
  va : Nat
  pa : Nat
  odd : Nat
  leaf : Leaf
  deriving DecidableEq, Repr

/-- A bench copy in flight (R302, R312): its cut list as snapshot, due tick, granules, and the bytes it has read. -/
structure Copy where
  bench : Nat
  clr : ClReg
  due : Nat
  accepted : Nat             -- arithmetic tick of acceptance (R313)
  draw : W64
  elems : List CopyElem      -- in-bounds elements, by logical index
  grans : List Granule
  src : List (Nat × Byte)    -- bytes read at acceptance from tensor SRAM, by physical address
  dense : List Nat           -- dense codes read at acceptance, for a store, in the order of elems
  scaleReads : Nat           -- leading granules that hold scale bytes of a store
  linear : Option (Nat × Nat)
  flags : Nat
  counted : Bool             -- its barrier has had its subtraction
  epc : Nat
  deriving DecidableEq, Repr

/-- What a write kept for the end of its tick does to what stands there: plain bytes, an engine's element of so many half-bytes, or
an engine's reduction (R309), each of which sets full the words that it writes (R293). -/
inductive EndOp where
  | bytes (bs : List Byte)
  | elem (half odd v : Nat)
  | reduce (red v : Nat)
  deriving DecidableEq, Repr

/-- A write kept for the end of its tick, in the order of R207, R313: class, acceptance tick, bench, order, address. -/
structure EndWrite where
  cls : Nat
  acc : Nat
  bench : Nat
  ord : Nat
  pa : Nat
  op : EndOp
  deriving DecidableEq, Repr

/-- A latch that its close tick has settled and that takes effect at the end of the tick (R181): mortise, whether every
tenon was posted, staged words by address, register destinations (kind, index, value) and benches. -/
structure MortiseLatch where
  mort : Nat
  posted : Bool
  words : List (Nat × W64)
  dests : List (Nat × Nat × W64)
  mask : Nat
  deriving DecidableEq, Repr

/-- A pending hold cause (R171, R172): code, catching-up bench (256 for none), log index of its entry, and what it is
about. -/
structure Cause where
  code : Nat
  bench : Nat
  idx : Nat
  slot : Nat
  deriving DecidableEq, Repr

/-- The frame launch that runs, or last ran (R163, R409), with every structure that set-up copied. -/
structure FrameLaunch where
  queue : Nat
  index : Nat
  asid : Nat
  seed : W64
  align : Bool
  tsq : Bool
  dtag : Nat
  nframes : Nat
  flen : Nat
  fslots : Nat
  holdmax : Nat
  pausebnd : Nat
  entries : List TtEntry
  morts : List Mortise
  tenons : List Tenon
  dicts : Tbl (List Nat)     -- dictionary store of each bench that has one (R160)
  sctr : Nat
  siginc : Nat
  readyAt : Nat
  deriving DecidableEq, Repr

/-- A write of an aligned launch, as a fault notice may take it back (R400): its FCNT and address, the bytes before and after, and the
words that were empty before it. -/
structure FrameWrite where
  fcnt : Nat
  pa : Nat
  before : List Byte
  after : List Byte
  emptied : List Nat
  deriving DecidableEq, Repr

/-- A launch of a domain that has ended by a fault, until no notice of an earlier one can come (R400): the CODE it reports, its F, and the
ticks until its entry may be written. -/
structure Settling where
  code : Nat
  at_ : Nat
  left : Nat
  deriving DecidableEq, Repr

/-- The frame plane. -/
structure Frame where
  running : Bool
  launch : Option FrameLaunch
  pending : Bool             -- the launch is set up and waits for its segments or its aligned start (R159, R396)
  fcnt : W64
  flen : W64
  pausebnd : W64
  holdmax : W64
  total : Nat                -- SLIPLOG.TOTAL
  next : Nat                 -- SLIPLOG.NEXT
  slip : Tbl (W64 × W64)
  slipsNow : Nat             -- what entries written at the tick in progress have added to TOTAL (R213)
  held : Nat                 -- hold ticks of the hold in progress
  heldHere : Nat             -- hold ticks taken at the present FCNT (R397)
  holdSlots : List Nat       -- slip-log entries of the hold in progress whose HELD still counts
  causes : List Cause
  tested : Bool              -- the causes at the present FCNT have been tested (R170)
  sub : Nat                  -- arithmetic ticks into a try-square frame tick (R183)
  openM : List Nat           -- mortises open
  posts : Tbl W64            -- posts of the window in progress, by tenon
  staged : List (Nat × Nat × W64) -- mortise, address, word
  latches : List MortiseLatch
  tenonHeld : List Nat       -- mortises that TENON_HOLD held at the present FCNT (R182)
  pinned : List TlbEntry
  channels : Tbl Channel
  copies : Tbl Copy
  lateLinks : List (Nat × Nat) -- channel and due tick of each entry that a link replay delays (R392, R399)
  lpass : List (Nat × Nat × Latch)  -- receiving bench, due tick, tile (R233)
  slotTaken : List (Nat × Nat)      -- stack and slot start taken by a request (R268)
  ringView : Tbl (List W64)
  ringViewN : Nat
  ends : List EndWrite
  subs : List (Nat × Nat × Nat)     -- barrier subtractions of the tick: bench, offset, bytes (R329)
  advances : List (Nat × Nat × Nat × Nat × Nat) -- bench, channel, epoch, first byte, length (R318)
  benches : Tbl Bench
  faults : List FaultCause
  endAt : Option (Nat × Nat)        -- FCNT and port of a remote fault notice (R400)
  pauseReq : Option (Nat × Nat × Nat) -- queue, save address, FCNT of the request (R378)
  pauseFrom : Nat            -- earliest FCNT at which the pause may fall; in a domain of several members, its FCNT (R400)
  settling : Option Settling -- an aligned launch that ended by a fault (R400)
  pauseAsked : Option (Nat × Nat)   -- queue and save address of a PREEMPT that went to the leader (R400)
  remoteSlot : Option Nat    -- slip-log entry of the remote hold at the present FCNT (R397)
  wrote : List FrameWrite    -- an aligned launch's writes, the latest first (R400)
  flagEcc : List (Nat × Nat × Nat)  -- errors still to meet: bench-copy granule address, kind, ticks (R269)
  deriving DecidableEq, Repr

/-! ### Engines and fabric -/

/-- An entry of the Spline group table (R342). -/
structure Group where
  asid : Option Nat
  state : Nat                -- 0 IDLE, 1 PENDING, 2 DONE, 3 INCOMPLETE
  gid : Nat
  nmem : Nat
  midx : Nat
  ty : Nat
  ord : Bool
  count : Nat
  src : Nat
  dst : Nat
  tmo : Nat
  sq : Nat
  sent : Nat                 -- sequence number of the outstanding contribution
  vals : List Nat            -- the outstanding contribution's elements
  launch : Nat
  pas : List (Nat × Bool)    -- physical address of each word of the result, and whether its page is NC (R281)
  deriving DecidableEq, Repr

/-- An entry of a Spline switch (R402): what it records, and the contributions received in arrival order. -/
structure SwitchEntry where
  gid : Nat
  sq : Nat
  nmem : Nat
  ty : Nat
  ord : Bool
  count : Nat
  deadline : Nat
  parts : List (Nat × List W32)
  spoiled : Bool
  deriving DecidableEq, Repr

/-- A remote-access request and its ticket (R346 to R350). Its context is named by launch, gang index, role, slot and
generation, which outlast a pre-emption (R383). -/
structure RmaReq where
  launch : Nat
  gidx : Nat
  role : Nat
  slot : Nat
  gen : Nat
  ticket : Nat
  asid : Nat
  user : Bool
  epc : Nat
  op : Nat                   -- 0 PUT, 1 GET, 2 AMO, 3 SEND, 4 RECV, 5 FLUSH
  aop : Nat
  ev : Option Nat
  conn : Nat
  laddr : Nat
  raddr : Nat
  len : Nat
  tag : Nat
  opnd1 : Nat
  opnd2 : Nat
  armed : Option Nat         -- trigger tag while it waits on its connection (R349)
  retries : Nat
  status : Option Nat        -- the ticket's status, none while it is incomplete
  deriving DecidableEq, Repr

/-- A connection (R404, R418): its address space, descriptor bytes and whether its context is in the cache. -/
structure Conn where
  asid : Nat
  desc : List Byte
  cached : Bool
  used : Nat                 -- order of last use
  fetchAt : Option Nat       -- tick at which the fetch of its context ends (R404)
  deriving DecidableEq, Repr

/-- What the package sends: to other packages, to Spline switches and, from its switch, to members. -/
inductive Message where
  | entry (ch due v : Nat)                                  -- a channel entry (R324)
  | contribute (c : Contribution)                           -- to the switch of a group (R343)
  | collective (gid sq outcome : Nat) (tos vals : List Nat) -- 0 sum, 1 GROUP_INCOMPLETE, 2 COLLECTIVE_ORDER, 3 retry-later (R402)
  | rma (id conn op aop raddr len opnd1 opnd2 tag : Nat) (data : List Nat)  -- a request of this package (R348)
  | answer (conn status : Nat) (data : List Nat)            -- to a request of another package (R348)
  | sendAnswer (conn tag : Nat) (matched : Bool)            -- to an arriving SEND (R349)
  | retryLater (conn : Nat)                                 -- a packet met no cached context (R404)
  | align (members dtag : Nat)                              -- R394
  | ready (dtag flen nframes : Nat)                         -- to the leader (R396)
  | start (after : Nat)                                     -- from the leader (R396)
  | mismatch (dtag : Nat)                                   -- R396
  | hold (m e : Nat)                                        -- R397
  | fault (f : Nat)                                         -- R400
  | preempt (p save : Nat)                                  -- R400
  | pauseAt (p z : Nat)                                     -- R400
  deriving DecidableEq, Repr

/-- A queued shoot-down request (R279). -/
structure Shootdown where
  kind : Nat
  asid : Nat
  ectr : Nat
  va : Nat
  npages : Nat
  deriving DecidableEq, Repr

/-- Engines, fabric and package-wide tables. -/
structure Eng where
  groups : Tbl Group
  switch : Tbl SwitchEntry
  ring : Tbl (List W64)      -- four words per entry (R325)
  ringN : Nat
  companders : Tbl (Tbl W32) -- tables 1 to 15, words 0 to 33 (R44)
  reqs : Tbl RmaReq
  conns : Tbl Conn
  sdva : Tbl W64
  sdstat : Tbl W64           -- OVF and BAD
  sdq : Tbl (List Shootdown) -- by die, oldest first
  outbox : List Message      -- messages sent, oldest first
  deriving DecidableEq, Repr

/-! ### Host side -/

/-- A completion entry waiting to be written (R411, R412). -/
structure Completion where
  status : Nat
  index : Nat
  frec : List W64
  plane : Bool               -- it reports the end of a launch that has the frame plane until it is written (R412)
  deriving DecidableEq, Repr

/-- A launch queue (R408): weave queue q of die d is 64 × d + q, frame queue q is 128 + q. -/
structure Queue where
  cfg : W64
  base : W64
  cbase : W64
  tvec : W64
  tail : Nat
  head : Nat
  chead : Nat
  ctail : Nat
  ivec : Nat
  armed : Bool
  window : Bool
  records : List Nat         -- launches read and not yet ended, in ring order
  completions : List Completion
  held : Option Nat          -- save address of a frame record pre-empted while it was ready (R413)
  deriving DecidableEq, Repr

/-- A command on a connection in progress (R418): whether it opens, the descriptor staged at its write, and the tick at which it ends. -/
structure ConnCommand where
  opens : Bool
  asid : Nat
  conn : Nat
  desc : List Byte
  due : Nat
  deriving DecidableEq, Repr

/-- The host side: queues, device registers, boot and power. -/
structure Hst where
  queues : Tbl Queue
  bootstat : W64
  pcap : W64
  fclkreq : W64
  fclk : Nat                 -- frame-clock code in force (R401)
  fclkGot : List (Option Nat × Nat × Option Nat) -- request received: member (none: here), FCLKREQ, and FCNT; none before the launch (R401)
  asidtb : W64
  cmplo : W64
  cmphi : W64
  mdbase : W64
  alignctl : W64
  alignstat : W64
  aligning : Bool            -- an alignment is in progress (R394)
  ports : List Nat           -- Spline ports that the boot image enables (R394, R415)
  splport : Tbl W64
  ccspill : W64
  ccstat : W64
  ccdesc : Memory            -- the 256 staging bytes
  ccCmd : Option ConnCommand -- the command in progress (R418)
  lifeNow : Tbl W64          -- counts since the last update
  life : Tbl W64             -- LIFEREC, by word index
  msi : List (Nat × Nat)     -- messages sent: host port and vector, latest first (R407, R412)
  ready : List (Nat × Nat × Nat × Nat) -- ready notices that the leader has: package, DTAG, FLEN, NFRAMES (R396)
  asked : Option Nat         -- save address of a PREEMPT that reached the leader before its launch started (R400)
  startIn : Option Nat       -- frame ticks to the start instant (R396)
  notices : Tbl (Nat × Nat)  -- remote demand by FCNT: ticks and port of the first notice (R397)
  parked : Tbl Frame         -- what the device keeps of a paused frame launch, by queue (R378, R381)
  resuming : Tbl Nat         -- frame queues whose RESUME waits for the plane, with its save address (R381, R409)
  busyReply : Bool           -- the last host write was answered BUSY
  unsupported : Bool         -- the last host access returned an unsupported-request completion (R407)
  reply : W64                -- value the last host read returned
  deriving DecidableEq, Repr

/-! ### The whole -/

structure State where
  ctl : Ctl
  mem : Mem
  weave : Weave
  frame : Frame
  eng : Eng
  host : Hst
  deriving DecidableEq, Repr

/-! ### Reset -/

def ClReg.zero : ClReg := ⟨[], 0⟩
def Latch.empty : Latch := ⟨false, [], [], 0, 0, 0, 0⟩
def WinEntry.zero : WinEntry := ⟨false, 0, false, []⟩
def Jig.idle : Jig := ⟨[], 0, .idle, 0, 0, 0, []⟩
def Watermark.zero : Watermark := ⟨0, 0, []⟩
def GBar.zero : GBar := ⟨0, 0, 0⟩
def Core.empty : Core := ⟨[], [], [], [], 10, none, 0, 0, []⟩
def Cluster.empty : Cluster := ⟨false, [], [], []⟩
def Dispatcher.start : Dispatcher := ⟨none, 3⟩
def Group.unbound : Group := ⟨none, 0, 0, 0, 0, 0, false, 0, 0, 0, 0, 0, 0, [], 0, []⟩
def Queue.zero : Queue := ⟨0, 0, 0, 0, 0, 0, 0, 0, 0, false, false, [], [], none⟩

/-- A bench at frame-launch start (R157): every item zero. -/
def Bench.zero : Bench :=
  { a := [], v := [], g := 0, h := [], kctl := 0, ktrip := 0, ktop := 0, seqlen := [], kvb := [], kvss := 0, kvps := 0
    fmtsel := 0, winthr := 0, winref := 0, winmap := 0, win := [], winBusy := 0, flags := 0, drawc := 0, clr := []
    wm := [], jig := Jig.idle, active := Latch.empty, shadow := Latch.empty, mlatch := [], busy := false, ran := false, entry := 0
    release := 0, lastAnchor := 0, lastPause := 0, pc := 0, half := 0, halves := [], fed := false, w0 := 256, w1 := 256, bubble := 0
    tick := 0, pend := [], arrayBusy := 0, landed := [], port := [] }

/-- A context at its start, before a launch or an HSTART fills what R21 names: zero. -/
def Ctx.zero : Ctx :=
  { xs := [], ys := [], ps := 0, pc := 0, jumped := false, status := 0, flags := 0, firsterr := 0, seed := 0, epc := 0, cause := 0
    faddr := 0, asid := 0, drawc := 0, evpend := 0, evnew := 0, sscr := [], clr := [], ticket := 1, gen := 0
    wait := none, since := none, arrived := [], granted := false, elems := none, replay := none, gang := 0, role := 0
    halted := false }

def Ctl.reset : Ctl := ⟨.none, 0, 0, 0, none, .retired, [], [], 0, 0⟩
def Mem.reset : Mem := ⟨[], [], [], []⟩
def Weave.reset : Weave := ⟨[], [], [], [], [], [], [], [], 1⟩

/-- The frame plane before the package's first frame launch (R162): every register at its reset value; those the launch
gives (FLEN, PAUSEBND, HOLDMAX) are zero (DESIGN CHOICE, log 2). -/
def Frame.reset : Frame :=
  { running := false, launch := none, pending := false, fcnt := 0, flen := 0, pausebnd := 0
    holdmax := 0, total := 0, next := 0, slip := [], slipsNow := 0, held := 0, heldHere := 0, holdSlots := [], causes := [], tested := false, sub := 0
    openM := [], posts := [], staged := [], latches := [], tenonHeld := [], pinned := [], channels := [], copies := [], lateLinks := [], lpass := [], slotTaken := []
    ringView := [], ringViewN := 1, ends := [], subs := [], advances := [], benches := [], faults := [], endAt := none
    pauseReq := none, pauseFrom := 0, settling := none, pauseAsked := none, remoteSlot := none, wrote := [], flagEcc := [] }

def Eng.reset : Eng :=
  { groups := [], switch := [], ring := [], ringN := 1, companders := [], reqs := [], conns := [], sdva := []
    sdstat := [], sdq := [], outbox := [] }

/-- The host side after reset (R408, R416, R417): BOOTSTAT.BHOLD is 1, PCAP 2,800, FCLKREQ.CLK 6, all else 0. -/
def Hst.reset : Hst :=
  { queues := [], bootstat := 0x8000000000000000, pcap := 2800, fclkreq := 0x0600000000000000, fclk := 6, fclkGot := [], asidtb := 0
    cmplo := 0, cmphi := 0, mdbase := 0, alignctl := 0, alignstat := 0, aligning := false, ports := [], splport := [], ccspill := 0, ccstat := 0
    ccdesc := [], ccCmd := none, lifeNow := [], life := [], msi := [], ready := [], asked := none, startIn := none, notices := [], parked := [], resuming := [], busyReply := false
    unsupported := false, reply := 0 }

/-- The machine right after reset: boot hold, no context, no launch, memory with nothing listed. -/
def State.reset : State :=
  { ctl := Ctl.reset, mem := Mem.reset, weave := Weave.reset, frame := Frame.reset, eng := Eng.reset
    host := Hst.reset }

end Sys2Proof.Machine
end

