-- ==== Sys2Proof/Machine/Ops.lean ====
section
/-! DEFINITION. The named operations on the state: reading and updating its parts, the registers of a context with x0 and
p0 hard-wired, taking an exception and returning from one (R362, R363, R368), launch-wide faults (R369, R371), and how a
weave syllable's outcome becomes a state. -/

namespace Sys2Proof.Machine

/-- Why a syllable does not retire: a cause of R361 with its FADDR and INFO, the same found at an element of a copy
(R57), or found by an engine and so launch-wide whatever its class (R311), or a wait. -/
inductive Stop where
  | cause (code faddr info : Nat)
  | wide (code faddr info : Nat)
  | elem (code faddr info lidx : Nat)
  | wait (w : Wait)
  deriving DecidableEq, Repr

/-- A meaning before its outcome is folded back. -/
abbrev Run (α : Type) := Except Stop α

/-- Cause codes of R361. -/
def cIllegal : Nat := 0x01
def cFetch : Nat := 0x02
def cUnderflow : Nat := 0x03
def cOverflow : Nat := 0x04
def cAttr : Nat := 0x05
def cBank : Nat := 0x06
def cBreach : Nat := 0x07
def cCap : Nat := 0x08
def cUnalloc : Nat := 0x09
def cLocal : Nat := 0x0A
def cAtomic : Nat := 0x0B
def cRma : Nat := 0x0C
def cShape : Nat := 0x0D
def cTrap : Nat := 0x0E
def cTranslation : Nat := 0x20
def cEcc : Nat := 0x21
def cHold : Nat := 0x22
def cOrder : Nat := 0x23
def cTimed : Nat := 0x24
def cDirty : Nat := 0x25
def cMatrix : Nat := 0x26
def cWinnow : Nat := 0x27
def cSram : Nat := 0x28
def cShapeAlign : Nat := 0x29
def cShapeOverlap : Nat := 0x2A
def cShapeFormat : Nat := 0x2B
def cEngineFull : Nat := 0x2C
def cJigProgram : Nat := 0x2D
def cJigBusy : Nat := 0x2E
def cChEmpty : Nat := 0x2F
def cChFull : Nat := 0x30
def cChRole : Nat := 0x31
def cOwner : Nat := 0x32
def cRemote : Nat := 0x33
def cCancelled : Nat := 0x34
def cSpacing : Nat := 0x35

def stop {α : Type} (code faddr info : Nat) : Run α := .error (.cause code faddr info)
def illegal {α : Type} : Run α := stop cIllegal 0 0
def waitFor {α : Type} (w : Wait) : Run α := .error (.wait w)
/-- A cause of `r` was found at element `lidx` (R57). -/
def atElem {α : Type} (lidx : Nat) : Run α → Run α
  | .error (.cause code faddr info) => .error (.elem code faddr info lidx)
  | r => r
/-- Go on only where `b` holds; otherwise stop with the cause. -/
def need (b : Bool) (code faddr info : Nat) : Run Unit := if b then .ok () else stop code faddr info

/-! ### Places -/

/-- Core, slot, cluster and die of a context. -/
def coreOf (c : Nat) : Nat := c / 16
def slotOf (c : Nat) : Nat := c % 16
def clusterOfCore (k : Nat) : Nat := k / 8
def clusterOf (c : Nat) : Nat := clusterOfCore (coreOf c)
def dieOfCluster (cl : Nat) : Nat := cl / 64
def dieOf (c : Nat) : Nat := dieOfCluster (clusterOf c)
def dieOfBench (b : Nat) : Nat := b / 128

/-! ### Parts of the state -/

def State.ctx? (s : State) (c : Nat) : Option Ctx := tget s.weave.ctxs c
def State.ctx (s : State) (c : Nat) : Ctx := tgetD s.weave.ctxs c Ctx.zero
def State.core (s : State) (k : Nat) : Core := tgetD s.weave.cores k Core.empty
def State.cluster (s : State) (cl : Nat) : Cluster := tgetD s.weave.clusters cl Cluster.empty
def State.bench (s : State) (b : Nat) : Bench := tgetD s.frame.benches b Bench.zero
def State.evctr (s : State) (n : Nat) : W64 := tgetD s.weave.evctr n 0
def State.queue (s : State) (q : Nat) : Queue := tgetD s.host.queues q Queue.zero
def State.group (s : State) (g : Nat) : Group := tgetD s.eng.groups g Group.unbound
def State.compander (s : State) (t : Nat) : Tbl W32 := tgetD s.eng.companders t []
def State.dispatcher (s : State) (d : Nat) : Dispatcher := tgetD s.weave.dispatchers d Dispatcher.start
/-- Word `w` of ring entry `i`. -/
def ringWord (m : Tbl (List W64)) (i w : Nat) : W64 := (tgetD m i []).getD w 0

def State.setCtx (s : State) (c : Nat) (x : Ctx) : State :=
  { s with weave := { s.weave with ctxs := tset s.weave.ctxs c x } }
def State.modCtx (s : State) (c : Nat) (f : Ctx → Ctx) : State := s.setCtx c (f (s.ctx c))
def State.dropCtx (s : State) (c : Nat) : State :=
  { s with weave := { s.weave with ctxs := terase s.weave.ctxs c } }
def State.setCore (s : State) (k : Nat) (x : Core) : State :=
  { s with weave := { s.weave with cores := tset s.weave.cores k x } }
def State.modCore (s : State) (k : Nat) (f : Core → Core) : State := s.setCore k (f (s.core k))
def State.setCluster (s : State) (cl : Nat) (x : Cluster) : State :=
  { s with weave := { s.weave with clusters := tset s.weave.clusters cl x } }
def State.modCluster (s : State) (cl : Nat) (f : Cluster → Cluster) : State := s.setCluster cl (f (s.cluster cl))
def State.setGang (s : State) (g : Nat) (x : Gang) : State :=
  { s with weave := { s.weave with gangs := tset s.weave.gangs g x } }
def State.setLaunch (s : State) (l : Nat) (x : Launch) : State :=
  { s with weave := { s.weave with launches := tset s.weave.launches l x } }
def State.setBench (s : State) (b : Nat) (x : Bench) : State :=
  { s with frame := { s.frame with benches := tset s.frame.benches b x } }
def State.modBench (s : State) (b : Nat) (f : Bench → Bench) : State := s.setBench b (f (s.bench b))
def State.setQueue (s : State) (q : Nat) (x : Queue) : State :=
  { s with host := { s.host with queues := tset s.host.queues q x } }
def State.setGroup (s : State) (g : Nat) (x : Group) : State :=
  { s with eng := { s.eng with groups := tset s.eng.groups g x } }
/-- SIGNAL and its kin: add to an event counter, modulo 2^64 (R122). -/
def State.signal (s : State) (n : Nat) (v : W64) : State :=
  { s with weave := { s.weave with evctr := tset s.weave.evctr n (s.evctr n + v) } }
/-- Put acts at the head of the agenda. -/
def State.push (s : State) (as : List Act) : State := { s with ctl := { s.ctl with agenda := as ++ s.ctl.agenda } }
def State.pushEvent (s : State) (i : Instr) : State := s.push [.event i]
def State.verdict (s : State) (v : Verdict) : State := { s with ctl := { s.ctl with verdict := v } }
/-- A lifetime count (R385, R417), by word index of LIFEREC. -/
def State.life (s : State) (w n : Nat) : State :=
  { s with host := { s.host with lifeNow := tmod s.host.lifeNow w 0 (fun v => v + BitVec.ofNat 64 n) } }
/-- The n-th draw of a free value has been taken. -/
def State.drew (s : State) : State := { s with ctl := { s.ctl with free := s.ctl.free + 1 } }
/-- A fresh number for a gang, launch, copy or request. -/
def State.fresh (s : State) : State := { s with weave := { s.weave with nextId := s.weave.nextId + 1 } }

/-- Every key below which a table lists an entry satisfying `p`, in ascending order. -/
def keysWhere {α : Type} (m : Tbl α) (p : Nat → α → Bool) : List Nat :=
  m.filterMap (fun e => if p e.1 e.2 then some e.1 else none)

/-! ### Registers of a context (R11) -/

/-- x register `i`; x0 reads zero. -/
def Ctx.x (c : Ctx) (i : Nat) : W64 := if i = 0 then 0 else tgetD c.xs i 0
/-- A write to x0 is discarded. -/
def Ctx.setX (c : Ctx) (i : Nat) (v : W64) : Ctx := if i = 0 then c else { c with xs := tset c.xs i v }
/-- y register by its index in the field space (R11: 32 to 47). -/
def Ctx.y (c : Ctx) (i : Nat) : W256 := tgetD c.ys (i - 32) 0
def Ctx.setY (c : Ctx) (i : Nat) (v : W256) : Ctx := { c with ys := tset c.ys (i - 32) v }
/-- Predicate `i`; p0 reads true. -/
def Ctx.p (c : Ctx) (i : Nat) : Bool := i == 0 || c.ps.getLsbD i
/-- A write to p0 is discarded. -/
def Ctx.setP (c : Ctx) (i : Nat) (b : Bool) : Ctx :=
  if i = 0 then c
  else { c with ps := BitVec.ofNat 8 (c.ps.toNat - (if c.ps.getLsbD i then 2 ^ i else 0) + (if b then 2 ^ i else 0)) }
/-- Flags are ORed in at retirement (R19, R26). -/
def Ctx.orFlags (c : Ctx) (f : Nat) : Ctx := { c with flags := c.flags ||| BitVec.ofNat 64 f }
/-- STATUS fields of R17. -/
def Ctx.priv (c : Ctx) : Bool := c.status.getLsbD 0
def Ctx.rm (c : Ctx) : Rm := Rm.ofCode (fld c.status.toNat 2 3)
def Ctx.setPriv (c : Ctx) (b : Bool) : Ctx := { c with status := setFld c.status 0 1 (if b then 1 else 0) }
/-- One step of the draw counter, 63 bits (R51). -/
def nextDraw (d : W64) : W64 := BitVec.ofNat 64 ((d.toNat + 1) % 2 ^ 63)
/-- The guard of a weave syllable (R25): p[GRD[22:20]] XOR GRD[23]. -/
def Ctx.guard (c : Ctx) (g : Nat) : Bool := c.p (g % 8) != (g / 8 % 2 == 1)

/-! ### Launches of contexts -/

def State.launchOf (s : State) (c : Ctx) : Nat := ((tget s.weave.gangs c.gang).map (·.launch)).getD 0
/-- TVEC as the context reads it (R362, R364). -/
def State.tvec (s : State) (c : Ctx) : Nat := ((tget s.weave.launches (s.launchOf c)).map (·.tvec)).getD 0
/-- Whether the gang's launch takes whole clusters (CLX, or FL1 which implies it; R123, R132). -/
def State.clx (s : State) (c : Ctx) : Bool :=
  ((tget s.weave.launches (s.launchOf c)).map (fun l => l.clx || l.fl1)).getD false

/-- Causes that a context's launch has met at this tick. -/
def State.launchFaults (s : State) (x : Ctx) : Nat := ((tget s.weave.launches (s.launchOf x)).map (fun l => l.faults.length)).getD 0

/-- Add a cause to a weave launch (R369, R371). -/
def State.faultLaunch (s : State) (l : Nat) (f : FaultCause) : State :=
  match tget s.weave.launches l with
  | some r => s.setLaunch l { r with faults := r.faults ++ [f] }
  | none => s

/-- Add a cause to the frame launch. -/
def State.faultFrame (s : State) (f : FaultCause) : State :=
  { s with frame := { s.frame with faults := s.frame.faults ++ [f] } }

/-! ### Taking an exception -/

/-- The value of CAUSE for a code and its detail (R360). -/
def causeWord (code info : Nat) : W64 := BitVec.ofNat 64 (info * 2 ^ 16 + code)

/-- The precise trap of R362: EPC, CAUSE and FADDR are written, PRIV becomes 1 and PC becomes TVEC, whose bits [1:0] a PC
does not hold (R14); nothing else changes. -/
def Ctx.takeTrap (x : Ctx) (tvec epc code faddr info : Nat) : Ctx :=
  { x.setPriv true with epc := BitVec.ofNat 64 epc, cause := causeWord code info, faddr := BitVec.ofNat 64 faddr
                        pc := BitVec.ofNat 64 (tvec / 4 * 4), jumped := true, wait := none, since := none, granted := false }

/-- The return of R368: PC := EPC with bits [1:0] cleared, PRIV := 0. -/
def Ctx.returnTrap (x : Ctx) : Ctx := { x.setPriv false with pc := BitVec.ofNat 64 (x.epc.toNat / 4 * 4), jumped := true }

/-- FIRSTERR for a logical index (R20, R57). -/
def firstErr (lidx : Nat) : W64 := BitVec.ofNat 64 (2 ^ 63 + min lidx 0xFFFF)

/-- A context raises a cause that names no element (R359, R362, R363): a class-P cause at user level with TVEC ≠ 0 traps; every other raising
ends the launch. -/
def State.raise (s : State) (c : Nat) (epc code faddr info : Nat) : State :=
  let x := s.ctx c
  let tv := s.tvec x
  if code < 0x20 ∧ x.priv = false ∧ tv ≠ 0 then (s.setCtx c (x.takeTrap tv epc code faddr info)).verdict .trapped
  else
    ((s.setCtx c { x with pc := BitVec.ofNat 64 s.ctl.group }).faultLaunch (s.launchOf x)
      ⟨code, info, faddr, epc, 0, c, 0⟩).verdict .faulted

/-- A cause found at an element: FIRSTERR takes its logical index, in the context if it traps and in the fault record if the
launch ends (R57, R362, R370). -/
def State.raiseAt (s : State) (c : Nat) (epc code faddr info lidx : Nat) : State :=
  let x := s.ctx c
  let tv := s.tvec x
  if code < 0x20 ∧ x.priv = false ∧ tv ≠ 0 then
    (s.setCtx c { x.takeTrap tv epc code faddr info with firsterr := firstErr lidx }).verdict .trapped
  else
    ((s.setCtx c { x with pc := BitVec.ofNat 64 s.ctl.group }).faultLaunch (s.launchOf x)
      ⟨code, info, faddr, epc, 0, c, firstErr lidx⟩).verdict .faulted

/-- An access that waits for a bench's weave port joins its queue (R260). -/
def State.joinPort (s : State) (c : Nat) : Wait → State
  | .port b => s.modBench b (fun k => if k.port.contains (.ctx c) then k else { k with port := k.port ++ [.ctx c] })
  | _ => s

/-- A context leaves its group unretired and waits; the group runs again from its beginning (R120, R134). An
access that a port performs at this tick stands performed while the group waits in WFE for the cycle's end (R102, R260). -/
def State.park (s : State) (c : Nat) (w : Wait) : State :=
  ((s.joinPort c w).modCtx c (fun x =>
    { x with wait := some w, since := some (x.since.getD s.ctl.now), pc := BitVec.ofNat 64 s.ctl.group
             granted := match w with
               | .wfe _ => x.granted
               | _ => false })).verdict .waiting

/-- The phase of a tick in which the waits of R102, R137, R141 and R148 end, but for timeouts, which end in the next. -/
def phWaits : Nat := 21
def phTimeouts : Nat := 22
/-- Waits of a group that has issued (R102, R129, R137, R141, R148, R260; DEDUCED, log 69). -/
def Wait.hasIssued : Wait → Bool
  | .wfe _ => true
  | .join => true
  | .gwait => true
  | .event => true
  | .port _ => true
  | _ => false

/-- A syllable of a context has retired: its EXT is used up. -/
def State.retire (s : State) : State := { s with ctl := { s.ctl with ext := none, verdict := .retired } }

/-- The outcome of a weave syllable. -/
def finishW (s : State) (c : Nat) : Run State → Host.Outcome State Fault Refusal
  | .ok t => .next t.retire
  | .error (.cause code faddr info) => .next (s.raise c s.ctl.group code faddr info)
  | .error (.wide code faddr info) =>
    let x := s.ctx c
    .next (((s.setCtx c { x with pc := BitVec.ofNat 64 s.ctl.group }).faultLaunch (s.launchOf x)
      ⟨code, info, faddr, s.ctl.group, 0, c, 0⟩).verdict .faulted)
  | .error (.elem code faddr info lidx) => .next (s.raiseAt c s.ctl.group code faddr info lidx)
  | .error (.wait w) => .next (s.park c w)

/-! ### Immediates (R62) -/

/-- The immediate of a form with `n` bits of its own, signed: EXT's bits stand above them. -/
def State.immS (s : State) (n v : Nat) : W64 :=
  match s.ctl.ext with
  | some e => sx (n + 24) (e * 2 ^ n + v)
  | none => sx n v

/-- The same, natural. -/
def State.immU (s : State) (n v : Nat) : Nat :=
  match s.ctl.ext with
  | some e => e * 2 ^ n + v
  | none => v

end Sys2Proof.Machine
end

