-- ==== Sys2Proof/Machine/Phys.lean ====
section
/-! DEFINITION. Physical memory: the map of R258, homes (R262, R266), what each party reads and writes there, the
full/empty bits (R292, R293), the store buffer (R29, R286) and the L1 copies of remote lines (R261). -/

namespace Sys2Proof.Machine

def hbmEnd : Nat := 0xC000000000
def sramBase : Nat := 0xE000000000000
def devBase : Nat := 0xE000100000000
def devEnd : Nat := 0xE000101000000
def hostBase : Nat := 0xF000000000000

/-- What stands at a physical address (R258). -/
inductive Region where
  | hbm
  | sram (b off : Nat)
  | device (off : Nat)
  | host
  | none
  deriving DecidableEq, Repr

def regionOf (pa : Nat) : Region :=
  if pa < hbmEnd then .hbm
  else if sramBase ≤ pa ∧ pa < sramBase + 0x40000000 then
    let b := (pa - sramBase) / 0x400000
    let o := (pa - sramBase) % 0x400000
    if o < Config.sramBytes then .sram b o else .none
  else if devBase ≤ pa ∧ pa < devEnd then .device (pa - devBase)
  else if hostBase ≤ pa ∧ pa < 2 ^ 52 then .host
  else .none

/-- Physical address of an offset in a bench's tensor SRAM. -/
def sramPa (b off : Nat) : Nat := sramBase + 0x400000 * b + off

/-- The HBM stack of an address, and its home die (R262, R266). -/
def stackOf (pa : Nat) : Nat := pa / 4096 % 12
def homeDie (pa : Nat) : Nat := if stackOf pa < 6 then 0 else 1

/-- Whether the bytes of a leaf's page are all backed by one range (R258). -/
def pageBacked (pa size : Nat) : Bool :=
  match regionOf pa with
  | .hbm => decide (pa + size ≤ hbmEnd)
  | .sram _ o => decide (o + size ≤ Config.sramBytes)
  | .device _ => decide (pa + size ≤ devEnd)
  | .host => decide (pa + size ≤ 2 ^ 52)
  | .none => false

/-- A byte as L2 presents it: what L2 or a home-die L1 holds, else what memory holds. -/
def Mem.byte (m : Mem) (pa : Nat) : Byte := (tget m.dirty pa).getD (m.cells.read pa)
def Mem.bytes (m : Mem) (pa n : Nat) : List Byte := (List.range n).map (fun i => m.byte (pa + i))
/-- A weave store reaching its home: cacheable HBM data stay in L2, all else goes to memory. -/
def Mem.put (m : Mem) (cacheable : Bool) (pa : Nat) (v : Byte) : Mem :=
  if pa < hbmEnd ∧ cacheable then { m with dirty := tset m.dirty pa v }
  else { m with cells := m.cells.write pa v, dirty := terase m.dirty pa }
def Mem.putBytes (m : Mem) (cacheable : Bool) (pa : Nat) : List Byte → Mem
  | [] => m
  | b :: bs => (m.put cacheable pa b).putBytes cacheable (pa + 1) bs
/-- A frame-plane read of HBM or tensor SRAM does not see L2 (R263). -/
def Mem.rawBytes (m : Mem) (pa n : Nat) : List Byte := (List.range n).map (fun i => m.cells.read (pa + i))
/-- Whether the frame launch that runs is one of an alignment domain (R395, R396). -/
def State.inDomain (s : State) : Bool :=
  s.frame.running && (s.frame.launch.map (·.align)).getD false && bitOf s.host.alignstat.toNat 63
/-- Drop what the caches hold of `n` bytes. -/
def Mem.discard (m : Mem) (pa : Nat) : Nat → Mem
  | 0 => m
  | n + 1 => { m with dirty := terase m.dirty pa }.discard (pa + 1) n
/-- Write bytes to memory itself. -/
def Mem.rawPut (m : Mem) (pa : Nat) (bs : List Byte) : Mem := { m with cells := m.cells.writeBytes pa bs }
/-- Write the dirty data of `n` bytes back to HBM; the copies are clean (R300). -/
def Mem.writeBack (m : Mem) (pa : Nat) : Nat → Mem
  | 0 => m
  | n + 1 =>
    match tget m.dirty pa with
    | some v => ({ m with cells := m.cells.write pa v, dirty := terase m.dirty pa }).writeBack (pa + 1) n
    | none => m.writeBack (pa + 1) n

/-- Whether a location carries full/empty bits (R292): HBM outside the compressed range, and tensor SRAM. -/
def State.hasFullBits (s : State) (pa : Nat) : Bool :=
  match regionOf pa with
  | .hbm => !(decide (s.host.cmplo.toNat ≤ pa) && decide (pa < s.host.cmphi.toNat))
  | .sram _ _ => true
  | _ => false
/-- Number of 4-byte words that `n` bytes from `pa` touch. -/
def wordsTouched (pa n : Nat) : Nat := if n = 0 then 0 else (pa + n - 1) / 4 - pa / 4 + 1
def Mem.full (m : Mem) (pa : Nat) : Bool := (tget m.empties (pa / 4 * 4)).isNone
def Mem.setFull (m : Mem) (pa : Nat) : Nat → Mem
  | 0 => m
  | n + 1 => { m with empties := terase m.empties (pa / 4 * 4) }.setFull (pa / 4 * 4 + 4) n
def Mem.setEmpty (m : Mem) (pa : Nat) : Nat → Mem
  | 0 => m
  | n + 1 => { m with empties := tset m.empties (pa / 4 * 4) () }.setEmpty (pa / 4 * 4 + 4) n
/-- An engine's write: the bytes, and every word of which it writes a byte set full (R293). -/
def Mem.enginePut (m : Mem) (cacheable : Bool) (pa : Nat) (bs : List Byte) : Mem :=
  (m.putBytes cacheable pa bs).setFull pa (wordsTouched pa bs.length)
/-- Addresses of the empty words that `n` bytes from `pa` touch. -/
def Mem.emptyWords (m : Mem) (pa n : Nat) : List Nat :=
  ((List.range (wordsTouched pa n)).map (fun i => pa / 4 * 4 + 4 * i)).filter (fun a => !m.full a)

/-- Bytes that the frame plane writes; an engine's write sets full the words it touches (R293). In a domain the write is remembered,
since a fault of another member may end the launch at an FCNT that has passed here (R400). -/
def State.framePut (s : State) (engine : Bool) (pa : Nat) (bs : List Byte) : State :=
  let m := { s.mem with cells := s.mem.cells.writeBytes pa bs }
  let t := { s with mem := if engine then m.setFull pa (wordsTouched pa bs.length) else m }
  if s.inDomain then
    { t with frame := { s.frame with wrote := ⟨s.frame.fcnt.toNat, pa, s.mem.rawBytes pa bs.length, bs,
      if engine then s.mem.emptyWords pa bs.length else []⟩ :: s.frame.wrote } }
  else t
/-- One write is taken back, except where a byte has been written again since; a word that it set full is empty again. -/
def FrameWrite.undo (w : FrameWrite) (m : Mem) : Mem :=
  let n := ((List.range w.before.length).zip (w.before.zip w.after)).foldl (fun (u : Mem) b =>
    if u.cells.read (w.pa + b.1) = b.2.2 then { u with cells := u.cells.write (w.pa + b.1) b.2.1 } else u) m
  w.emptied.foldl (fun u a => u.setEmpty a 1) n
/-- The writes of ticks from `f` on are discarded, the latest first (R400). -/
def State.unwrite (s : State) (f : Nat) : State :=
  { s with mem := (s.frame.wrote.filter (fun w => decide (f ≤ w.fcnt))).foldl (fun m w => w.undo m) s.mem }

/-! ### L1 copies of lines homed on the other die (R261) -/

/-- The core whose L1 (or fused slice, R131) serves an address. -/
def State.l1Core (s : State) (k pa : Nat) : Nat :=
  if (s.cluster (clusterOfCore k)).fused then k / 8 * 8 + pa / 64 % 8 else k
def lineOf (pa : Nat) : Nat := pa / 64 * 64
/-- Whether an access of core `k` to a cacheable HBM address may be served by an untracked L1 copy. -/
def remoteLine (k pa : Nat) (nc : Bool) : Bool :=
  decide (pa < hbmEnd) && !nc && homeDie pa != dieOfCluster (clusterOfCore k)

/-- A core's copy of a remote line goes when its home is read or written past it (R285). -/
def State.dropLine (s : State) (k pa : Nat) : State :=
  s.modCore (s.l1Core k pa) (fun c => { c with remote := terase c.remote (lineOf pa) })

/-- Bytes of one line as core `k` loads them: its copy of a remote line if it holds one, else the home's bytes, which
fill the copy. An uncacheable read of the line leaves no older copy behind (R285). -/
def State.loadLine (s : State) (k pa n : Nat) (nc : Bool) : List Byte × State :=
  if nc && remoteLine k pa false then (s.mem.bytes pa n, s.dropLine k pa)
  else if remoteLine k pa nc then
    let j := s.l1Core k pa
    match tget (s.core j).remote (lineOf pa) with
    | some bs => ((bs.drop (pa % 64)).take n, s)
    | none =>
      let bs := s.mem.bytes (lineOf pa) 64
      ((bs.drop (pa % 64)).take n, s.modCore j (fun c => { c with remote := tset c.remote (lineOf pa) bs }))
  else (s.mem.bytes pa n, s)

/-- An uncorrectable error stands in a granule that a read of HBM touches (R269). -/
def State.eccBad (s : State) (pa n : Nat) : Bool :=
  regionOf pa == .hbm && s.frame.flagEcc.any (fun e => e.2.1 == 1 && decide (e.1 < pa + n) && decide (pa < e.1 + 4096))
/-- A read in weave time passes, unless its error is uncorrectable, which is launch-wide. -/
def State.eccRead (s : State) (pa n : Nat) : Run Unit :=
  if s.eccBad pa n then .error (.wide cEcc pa (stackOf pa)) else .ok ()
/-- Correctable errors that it met are corrected and counted (R269, R385). -/
def State.eccCorrect (s : State) (pa n : Nat) : State :=
  let met (e : Nat × Nat × Nat) : Bool := e.2.1 == 0 && decide (e.1 < pa + n) && decide (pa < e.1 + 4096)
  if regionOf pa = .hbm ∧ s.frame.flagEcc.any met then
    ({ s with frame := { s.frame with flagEcc := s.frame.flagEcc.filter (fun e => !met e) } }).life (0x100 + stackOf pa)
      (s.frame.flagEcc.countP met)
  else s

/-- The lowest address of a range at which an uncorrectable error stands. -/
def State.eccLow (s : State) (pa n : Nat) : Option Nat :=
  ((s.frame.flagEcc.filter (fun e => e.2.1 == 1 && decide (e.1 < pa + n) && decide (pa < e.1 + 4096))).map (fun e => max pa e.1)).min?
/-- A read of HBM in weave time meets its errors. -/
def State.eccMeet (s : State) (pa n : Nat) : Run State := (s.eccRead pa n).map (fun _ => s.eccCorrect pa n)

/-- Put bytes into a held copy of a line. -/
def patchLine (line : List Byte) (off : Nat) (bs : List Byte) : List Byte :=
  line.take off ++ bs ++ line.drop (off + bs.length)

/-- A store of core `k` becomes visible: it reaches its home, and the core's own remote copy follows, also when the store went
through an uncacheable page (R29; DESIGN CHOICE, log 6). -/
def State.storeLine (s : State) (k pa : Nat) (bs : List Byte) (nc : Bool) : State :=
  let s1 := { s with mem := s.mem.putBytes (!nc) pa bs }
  if remoteLine k pa false then
    let j := s.l1Core k pa
    match tget (s.core j).remote (lineOf pa) with
    | some line => s1.modCore j (fun c => { c with remote := tset c.remote (lineOf pa) (patchLine line (pa % 64) bs) })
    | none => s1
  else s1

/-! ### Capacities (R3) -/

/-- Beyond `cap` entries, those of the lowest addresses go (DESIGN CHOICE, log 70). -/
def keepLines {α : Type} (cap : Nat) (t : Tbl α) : Tbl α := t.drop (t.length - cap)
/-- A core's L1 holds 32 KiB, data and code together (R3, R257); code goes before data (DESIGN CHOICE, log 70). -/
def Core.keep (k : Core) : Core :=
  let data := keepLines Config.l1Lines k.remote
  { k with remote := data, fetched := keepLines (Config.l1Lines - data.length) k.fetched }
/-- Lines of a die that L2 or an L1 holds newer than HBM. -/
def Mem.dirtyLines (m : Mem) (die : Nat) : List Nat :=
  ((m.dirty.filter (fun e => homeDie e.1 == die)).map (fun e => lineOf e.1)).eraseDups
/-- A die's L2 holds 64 MiB (R3): what it holds beyond that is written back to HBM (DESIGN CHOICE, log 70). -/
def Mem.keep (m : Mem) (die : Nat) : Mem :=
  if m.dirty.length ≤ Config.l2Lines then m
  else
    let ls := m.dirtyLines die
    (ls.take (ls.length - Config.l2Lines)).foldl (fun n l => n.writeBack l 64) m
/-- The caches hold no more than they can. -/
def State.keepCaches (s : State) : State :=
  { s with mem := (s.mem.keep 0).keep 1
           weave := { s.weave with cores := s.weave.cores.map (fun (e : Nat × Core) => (e.1, e.2.keep)) } }

/-! ### The store buffer (R29, R286) -/

/-- The event row by which a store to a device register acts (R416). -/
def deviceEvent (off v : Nat) : Instr :=
  let qOf (base : Nat) (o : Nat) : Nat := (off - base) / 0x80 + o
  let inQ (q reg : Nat) : Instr :=
    match reg with
    | 0x00 => .queueEnable q v
    | 0x20 => .queueDoorbell q (v % 2 ^ 32)
    | 0x28 => .queueArm q (v % 2048)
    | 0x30 => match v / 2 ^ 60 with
      | 1 => .preempt q (v % 2 ^ 60)
      | 2 => .resume q (v % 2 ^ 60)
      | 3 => .destroy q
      | 4 => .destroyForce q
      | _ => .registerWrite off v
    | 0x40 => .completionHeadWrite q (v % 2 ^ 32)
    | _ => .registerWrite off v
  if off = 0x08 then .pcapWrite v
  else if off = 0x10 then .frameClockRequest (v, none)
  else if off = 0x400 ∧ v / 2 ^ 63 = 1 ∧ v % 2 ^ 32 ≠ 0 then .alignGo (fld v 40 8 % 128) (v % 2 ^ 32)
  else if off = 0x400 ∧ v % 2 ^ 32 = 0 then .alignDissolve (fld v 40 8 % 128)
  else if off = 0x208 ∨ off = 0x248 then
    let d := (off - 0x208) / 0x40
    if fld v 34 6 ≠ 0 then .registerWrite off v
    else match fld v 32 2 with
      | 0 => .shootdownRange d (fld v 52 12) (fld v 40 12) (v % 2 ^ 32)
      | 1 => .shootdownAsid d (fld v 52 12) (fld v 40 12)
      | 2 => .shootdownAll d (fld v 40 12)
      | _ => .registerWrite off v
  else if off = 0x4000 ∧ v / 2 ^ 62 = 1 then .connectionOpen (fld v 44 12) (v % 2 ^ 24)
  else if off = 0x4000 ∧ v / 2 ^ 62 = 2 then .connectionClose (fld v 44 12) (v % 2 ^ 24)
  else if 0x8000 ≤ off ∧ off < 0xA000 then inQ (qOf 0x8000 0) (off % 0x80)
  else if 0xA000 ≤ off ∧ off < 0xC000 then inQ (qOf 0xA000 64) (off % 0x80)
  else if 0xC000 ≤ off ∧ off < 0xC200 then inQ (qOf 0xC000 128) (off % 0x80)
  else if 0x20000 ≤ off ∧ off < 0x28000 then .eventCounterWrite ((off - 0x20000) / 8) v
  else .registerWrite off v

/-- A write reaches the device registers: 8-byte accesses, but 4-byte ones at the compander tables; any other access is
ignored (R416). -/
def State.deviceStore (s : State) (off size v : Nat) : State :=
  if 0x2100 ≤ off ∧ off < 0x3000 then
    (if size = 4 ∧ off % 4 = 0 ∧ off % 0x100 < 0x88 then
      s.pushEvent (.companderTableWrite ((off - 0x2000) / 0x100) (off % 0x100 / 4) v) else s)
  else if size = 8 ∧ off % 8 = 0 then s.pushEvent (deviceEvent off v) else s

/-- One buffered store leaves the buffer and becomes visible. -/
def State.performStore (s : State) (k : Nat) (e : BufStore) : State :=
  if e.isLocal then { s with mem := { s.mem with local_ := s.mem.local_.writeBytes e.addr e.bytes } }
  else match regionOf e.addr with
    | .device off => s.deviceStore off e.bytes.length (leNat e.bytes)
    | .hbm => s.storeLine k e.addr e.bytes e.nc
    | _ => { s with mem := s.mem.putBytes false e.addr e.bytes }

/-- The head of core `k`'s store buffer drains (R286). -/
def State.drainOne (s : State) (k : Nat) : State :=
  match (s.core k).sb with
  | [] => s
  | e :: rest => (s.modCore k (fun c => { c with sb := rest })).performStore k e

/-- Drain `n` stores. -/
def State.drainN (s : State) (k : Nat) : Nat → State
  | 0 => s
  | n + 1 => (s.drainOne k).drainN k n

/-- Drain the whole store buffer of core `k` (R107, R296, R297, R298, R300, R336). -/
def State.drainAll (s : State) (k : Nat) : State := s.drainN k (s.core k).sb.length

/-- What an acquire above core scope does (R287, R296): the copies of lines homed on the other die that serve core `k`
are dropped, so that later loads read their homes. -/
def State.acquire (s : State) (k : Nat) : State :=
  if (s.cluster (clusterOfCore k)).fused then
    (List.range 8).foldl (fun t j => t.modCore (k / 8 * 8 + j) (fun c => { c with remote := [] })) s
  else s.modCore k (fun c => { c with remote := [] })

/-- Whether two byte ranges share a byte. -/
def overlaps (a n b m : Nat) : Bool := decide (a < b + m) && decide (b < a + n)

/-- The newest buffered store of context `c` that touches the bytes, with its place in the buffer, whose entries from place `i`
on are given, oldest first. -/
def newestOverlap (c : Nat) (isLocal : Bool) (addr n : Nat) : Nat → List BufStore → Option (Nat × BufStore)
  | _, [] => none
  | i, e :: rest =>
    match newestOverlap c isLocal addr n (i + 1) rest with
    | some f => some f
    | none => if e.ctx = c ∧ e.isLocal = isLocal ∧ overlaps e.addr e.bytes.length addr n then some (i, e) else none

/-- What forwarding gives one part of a load. -/
inductive Forwarded where
  | none                                  -- no own store overlaps it
  | some (at_ : Nat) (e : BufStore) (bs : List Byte)  -- the newest overlapping store covers it
  | partly                                -- it covers it only in part
  deriving DecidableEq, Repr

/-- Forwarding of R29 for one part. -/
def State.forwardPart (s : State) (c : Nat) (isLocal : Bool) (addr n : Nat) : Forwarded :=
  match newestOverlap c isLocal addr n 0 (s.core (coreOf c)).sb with
  | .none => .none
  | .some (i, e) =>
    if e.addr ≤ addr ∧ addr + n ≤ e.addr + e.bytes.length then .some i e ((e.bytes.drop (addr - e.addr)).take n)
    else .partly

/-- Forwarding of R29 for a whole load, given by its parts: its bytes, if the newest overlapping store of the context covers
them all; nothing, if none of its stores overlaps them; else a wait until what overlaps has drained. -/
def State.forward (s : State) (c : Nat) (isLocal : Bool) (ps : List (Nat × Nat)) : Run (Option (List Byte)) :=
  match ps.map (fun p => s.forwardPart c isLocal p.1 p.2) with
  | [] => .ok .none
  | [.none] => .ok .none
  | [.some _ _ bs] => .ok (.some bs)
  | [.none, .none] => .ok .none
  | [.some i _ bs, .some j f cs] => if j = i + 1 ∧ f.more then .ok (.some (bs ++ cs)) else waitFor .drain
  | _ => waitFor .drain

end Sys2Proof.Machine
end

