-- ==== Sys2Proof/Machine/Translate.lean ====
section
/-! DEFINITION. Translation (R270 to R276, R278), open mortises (R179), and the ordered checks of a weave access
(R106). -/

namespace Sys2Proof.Machine

/-- Bits [63:57] are copies of bit [56] (R14). -/
def canonical (va : Nat) : Bool := fld va 56 8 == 0 || fld va 56 8 == 255

/-- Eight bytes of memory as a number, as walkers and set-up read them. -/
def State.phys8 (s : State) (pa : Nat) : Nat := leNat (s.mem.bytes pa 8)

/-- The compressed range of R270. -/
def State.cmpLo (s : State) : Nat := s.host.cmplo.toNat
def State.cmpHi (s : State) : Nat := s.host.cmphi.toNat

/-- Whether a leaf's CMP bit agrees with the compressed range (R264). -/
def State.cmpAgrees (s : State) (pa size : Nat) (cmp : Bool) : Bool :=
  let lo := s.cmpLo
  let hi := s.cmpHi
  if hi ≤ lo then !cmp
  else if lo ≤ pa ∧ pa + size ≤ hi then cmp
  else if pa + size ≤ lo ∨ hi ≤ pa then !cmp
  else false

/-- Size of the page that a leaf at level `lvl` maps (R272). -/
def leafSize (lvl : Nat) (g64 : Bool) : Nat :=
  match lvl with
  | 0 => 4096
  | 1 => 0x200000
  | _ => if g64 then 0x1000000000 else 0x40000000

/-- The leaf that an entry at level `lvl` holds, if it meets R274. -/
def State.leafOf (s : State) (va lvl e : Nat) : Option Leaf :=
  let g64 := bitOf e 61
  let size := leafSize lvl g64
  let pa := fld e 6 40 * 4096
  let typed := bitOf e 60
  if 3 ≤ lvl then none
  else if g64 && lvl != 2 then none
  else if pa % size ≠ 0 then none
  else if !typed && (fld e 46 14 != 0) then none
  else if typed && !validFmt (fld e 52 8) then none
  else if !pageBacked pa size then none
  else if !s.cmpAgrees pa size (bitOf e 5) then none
  else some { va := va / size * size, pa := pa, size := size, typed := typed, fmt := fld e 52 8, geo := fld e 50 2
              tbl := fld e 46 4, cmp := bitOf e 5, nc := bitOf e 4, x := bitOf e 3, w := bitOf e 2, rd := bitOf e 1
              u := bitOf e 0 }

/-- The walk of R272 and R274 from a table at level `lvl - 1` down. -/
def State.walkFrom (s : State) (va : Nat) : Nat → Nat → Option Leaf
  | 0, _ => none
  | lvl + 1, table =>
    if hbmEnd ≤ table then none
    else
      let e := s.phys8 (table + 8 * fld va (12 + 9 * lvl) 9)
      if !bitOf e 63 then none
      else if bitOf e 62 then s.leafOf va lvl e
      else if fld e 0 6 ≠ 0 ∨ fld e 46 17 ≠ 0 then none
      else s.walkFrom va lvl (fld e 6 40 * 4096)

/-- The table entries that a walk from a table at level `lvl - 1` down reads, in order. -/
def State.walkReads (s : State) (va : Nat) : Nat → Nat → List Nat
  | 0, _ => []
  | lvl + 1, table =>
    let at_ := table + 8 * fld va (12 + 9 * lvl) 9
    if hbmEnd ≤ table then []
    else
      let e := s.phys8 at_
      at_ :: (if !bitOf e 63 || bitOf e 62 then [] else s.walkReads va lvl (fld e 6 40 * 4096))

/-- A walk under an address space (R271, R272); `va` has 57 bits. -/
def State.walk (s : State) (asid va : Nat) : Option Leaf :=
  let e := s.phys8 (s.host.asidtb.toNat + 8 * asid)
  if bitOf e 63 then s.walkFrom va 5 (fld e 12 40 * 4096) else none

/-- The entries that such a walk reads. -/
def State.walkPath (s : State) (asid va : Nat) : List Nat :=
  let at_ := s.host.asidtb.toNat + 8 * asid
  let e := s.phys8 at_
  at_ :: (if bitOf e 63 then s.walkReads va 5 (fld e 12 40 * 4096) else [])
/-- The first of them at which an uncorrectable error stands (R269). -/
def State.walkError (s : State) (asid va : Nat) : Option Nat := (s.walkPath asid va).find? (fun a => s.eccBad a 8)
/-- The correctable errors that such a walk meets are corrected and counted (R269). -/
def State.walkMeet (s : State) (asid va : Nat) : State := (s.walkPath asid va).foldl (fun t a => t.eccCorrect a 8) s

def TlbEntry.hits (t : TlbEntry) (asid va : Nat) : Bool :=
  t.asid == asid && decide (t.leaf.va ≤ va) && decide (va < t.leaf.va + t.leaf.size)

def tlbFind (l : List TlbEntry) (asid va : Nat) : Option Leaf :=
  (l.find? (fun t => t.hits asid va)).map (·.leaf)

/-- Add a translation, evicting the oldest beyond the capacity (DESIGN CHOICE, log 7). -/
def tlbAdd (cap : Nat) (l : List TlbEntry) (e : TlbEntry) : List TlbEntry :=
  let l' := l ++ [e]
  if cap < l'.length then l'.drop 1 else l'

/-- Translation for a core: its TLB, the cluster's, or a walk, which fills both (R278). No invalid entry is cached. -/
def State.translate (s : State) (k asid va : Nat) : Option (Leaf × State) :=
  let v := va % 2 ^ 57
  match tlbFind (s.core k).tlb asid v with
  | some l => some (l, s)
  | none =>
    let cl := clusterOfCore k
    match tlbFind (s.cluster cl).tlb asid v with
    | some l => some (l, s.modCore k (fun c => { c with tlb := tlbAdd Config.coreTlb c.tlb ⟨asid, l⟩ }))
    | none =>
      match s.walk asid v with
      | none => none
      | some l =>
        some (l, ((s.walkMeet asid v).modCore k (fun c => { c with tlb := tlbAdd Config.coreTlb c.tlb ⟨asid, l⟩ })).modCluster cl
          (fun c => { c with tlb := tlbAdd Config.clusterTlb c.tlb ⟨asid, l⟩ }))

/-- What an access needs of its leaf (R276). -/
inductive Use where
  | read | write | both | fetch
  deriving DecidableEq, Repr

def Leaf.allows (l : Leaf) (use : Use) (user : Bool) : Bool :=
  (match use with
    | .read => l.rd
    | .write => l.w
    | .both => l.rd && l.w
    | .fetch => l.x && l.rd) && (!user || l.u)

def Leaf.phys (l : Leaf) (va : Nat) : Nat := l.pa + (va % 2 ^ 57 - l.va)

/-- Uncacheable in the sense of R258: NC, or not HBM. -/
def Leaf.uncached (l : Leaf) : Bool := l.nc || decide (hbmEnd ≤ l.pa)

/-! ### Mortises -/

/-- The running launch's mortise `m`. -/
def State.mortise? (s : State) (m : Nat) : Option Mortise := s.frame.launch.bind (fun l => l.morts[m]?)

/-- Open mortises whose regions hold an offset of a bench. -/
def State.openAt (s : State) (b off : Nat) : List (Nat × Mortise) :=
  s.frame.openM.filterMap (fun m => match s.mortise? m with
    | some r => if r.regions.any (fun g => g.1 == b && decide (g.2.1 ≤ off) && decide (off < g.2.1 + g.2.2)) then some (m, r)
                else none
    | none => none)

/-- Row 5 of R106 with R179, for a range of one bench's tensor SRAM shorter than two bank rows. -/
def State.mortiseCheck (s : State) (asid b off n faddr : Nat) : Run Unit :=
  let first := s.openAt b off
  let last := s.openAt b (off + n - 1)
  let own (l : List (Nat × Mortise)) : Bool := l.any (fun r => r.2.asid == asid)
  if own first && own last then .ok ()
  else if (own first || !first.isEmpty) && (own last || !last.isEmpty) then stop cCap faddr 0
  else stop cBreach faddr 0

/-! ### The checks of R106 -/

/-- One part of a checked access: physical address, length, leaf. -/
structure Part where
  pa : Nat
  len : Nat
  leaf : Leaf
  deriving DecidableEq, Repr

/-- The error met by the walk that a core makes for an address none of its TLBs holds. -/
def State.missError (s : State) (k asid va : Nat) : Option Nat :=
  let v := va % 2 ^ 57
  if (tlbFind (s.core k).tlb asid v).isSome || (tlbFind (s.cluster (clusterOfCore k)).tlb asid v).isSome then none
  else s.walkError asid v

/-- Translate one part with its permission; a failure is the launch-wide translation fault (rows 2 and 3), an uncorrectable error of
the walk the launch-wide ECC fault (R269). -/
def State.checkPart (s : State) (k asid : Nat) (user : Bool) (use : Use) (va len : Nat) : Run (Part × State) :=
  match s.missError k asid va, s.translate k asid va with
  | some at_, _ => .error (.wide cEcc at_ (stackOf at_))
  | none, none => stop cTranslation va 0
  | none, some (l, t) => if l.allows use user then .ok (⟨l.phys va, len, l⟩, t) else stop cTranslation va 0

/-- Bytes of an access that stand before the next multiple of `size`. -/
def beforeEdge (ea n size : Nat) : Nat := min n (size - ea % size)

/-- Rows 1 to 3 of R106: the parts by page, lower first. -/
def State.checkPages (s : State) (c ea n : Nat) (use : Use) : Run (List Part × State) :=
  let x := s.ctx c
  let last := (ea + n - 1) % 2 ^ 64
  if !canonical ea || !canonical last then stop cTranslation ea 0
  else do
    let lo := beforeEdge ea n 4096
    let (p, s1) ← s.checkPart (coreOf c) x.asid.toNat (!x.priv) use ea lo
    if lo = n then pure ([p], s1)
    else
      let (q, s2) ← s1.checkPart (coreOf c) x.asid.toNat (!x.priv) use ((ea + lo) % 2 ^ 64) (n - lo)
      pure ([p, q], s2)

def isSram (pa : Nat) : Bool :=
  match regionOf pa with
  | .sram _ _ => true
  | _ => false

/-- Whether two pages differ as row 4 of R106 asks (R277). -/
def pagesDiffer (p q : Leaf) : Bool :=
  p.typed != q.typed || p.fmt != q.fmt || p.geo != q.geo || p.tbl != q.tbl || p.uncached != q.uncached ||
    p.cmp != q.cmp || isSram p.pa != isSram q.pa

/-- Row 6 of R106. -/
def bankCheck (ea : Nat) (ps : List Part) : Run Unit :=
  match ps with
  | p :: _ =>
    let n := (ps.map (·.len)).foldl (· + ·) 0
    if isSram p.pa then need (decide (p.pa % 128 + n ≤ 128)) cBank ea 0 else .ok ()
  | [] => .ok ()

/-- Rows 4 to 6 of R106. Row 5 is decided at the tick at which the weave port performs the access, and it and row 6 after it are left
until then (R107, R260); a group that its pipes hold up meets them at once (R117). -/
def State.checkRest (s : State) (c ea : Nat) (ps : List Part) : Run Unit := do
  match ps with
  | [p, q] => need (!pagesDiffer p.leaf q.leaf) cAttr ea 0
  | _ => pure ()
  if (s.ctx c).granted then do
    for p in ps do
      match regionOf p.pa with
      | .sram b o => s.mortiseCheck (s.ctx c).asid.toNat b o p.len ea
      | _ => pure ()
    bankCheck ea ps
  else pure ()

/-- All rows of R106 for an access of `n` bytes. -/
def State.checkAccess (s : State) (c ea n : Nat) (use : Use) : Run (List Part × State) := do
  let (ps, t) ← s.checkPages c ea n use
  t.checkRest c ea ps
  pure (ps, t)

/-- Split parts at 64-byte lines (R30). -/
def splitLines (ps : List Part) : List Part :=
  ps.flatMap (fun p =>
    let k := beforeEdge p.pa p.len 64
    if k = p.len then [p] else [{ p with len := k }, { p with pa := p.pa + k, len := p.len - k }])

/-- Frame-plane and engine translation: the pinned store alone (R184). -/
def State.pinnedLeaf (s : State) (va : Nat) : Option Leaf :=
  match s.frame.launch with
  | some l => if canonical va then tlbFind s.frame.pinned l.asid (va % 2 ^ 57) else none
  | none => none

/-! ### Reads that set-up makes (R165, R184) -/

/-- A read of set-up: refused (`none`) where a check fails, ended at the address of an uncorrectable error, with the addresses at which
it met correctable ones (R269). -/
abbrev Setup (α : Type) : Type := ExceptT (Option Nat) (StateM (List Nat)) α
def refuse {α : Type} : Setup α := throw none
def Setup.of {α : Type} : Option α → Setup α
  | some a => pure a
  | none => refuse
/-- Go on only where `b` holds. -/
def ensure (b : Bool) : Setup Unit := if b then pure () else refuse
/-- Elements `0` to `n - 1`, each found by `f`. -/
def collect {α : Type} (f : Nat → Setup α) (n : Nat) : Setup (List α) := (List.range n).mapM f
/-- What it comes to: the outcome, and where correctable errors were met. -/
def Setup.outcome {α : Type} (r : Setup α) : Except (Option Nat) α × List Nat := r.run.run []

/-- `n` bytes at a physical address are read. -/
def State.meets (s : State) (pa n : Nat) : Setup Unit :=
  if s.frame.flagEcc.isEmpty then pure ()
  else if s.eccBad pa n then throw (some pa)
  else modify (fun l => pa :: l)
/-- A walk is made. -/
def State.meetsWalk (s : State) (asid va : Nat) : Setup Unit :=
  if s.frame.flagEcc.isEmpty then pure () else (s.walkPath asid va).forM (fun a => s.meets a 8)
/-- The errors met are corrected and counted (R269, R385). -/
def State.corrects (s : State) (l : List Nat) : State := l.foldl (fun t a => t.eccCorrect a 1) s

/-- Bytes that set-up reads by walking an address space, needing RD and U (R165). -/
def State.walkBytes (s : State) (asid va : Nat) : Nat → Setup (List Byte)
  | 0 => pure []
  | n + 1 =>
    if !canonical va then refuse
    else do
      s.meetsWalk asid (va % 2 ^ 57)
      match s.walk asid (va % 2 ^ 57) with
      | none => refuse
      | some l =>
        if l.rd && l.u then do
          s.meets (l.phys va) 1
          let r ← s.walkBytes asid ((va + 1) % 2 ^ 64) n
          pure (s.mem.byte (l.phys va) :: r)
        else refuse

/-- Eight bytes read by such a walk. -/
def State.walk8 (s : State) (asid va : Nat) : Setup Nat := do
  let bs ← s.walkBytes asid va 8
  pure (leNat bs)

/-- The parts, by physical page of 4 KiB, of `n` bytes that a translation maps. -/
def spanPieces (tr : Nat → Option Leaf) (va n : Nat) : List (Nat × Nat) :=
  (List.range (n / 4096 + 2)).filterMap (fun i =>
    let a := max va (va / 4096 * 4096 + 4096 * i)
    let e := min (va + n) (va / 4096 * 4096 + 4096 * (i + 1))
    if a < e then (tr (a % 2 ^ 64)).map (fun l => (l.phys a, e - a)) else none)

end Sys2Proof.Machine
end

