-- ==== Sys2Proof/Machine/Operands.lean ====
section
/-! DEFINITION. Operand forms: which register file each field of each form names on each plane (R61, R133, R153, R186,
R209, R228, R251, R295, R328, R365), guards, pipes (R116, R117), the registers of a bench with their renaming (R96), and
the wrappers through which every syllable's meaning runs. -/

namespace Sys2Proof.Machine

/-- What a field may name. -/
inductive FK where
  | z          -- unused, holds 0
  | x          -- x0 to x31, or q0 to q7
  | xo         -- x0 to x31
  | q          -- q0 to q7
  | y          -- y0 to y15
  | p          -- p0 to p7
  | a          -- a0 to a31
  | v          -- v0 to v63
  | g          -- g0 to g15
  | g2         -- an even guard g2 to g14
  | h          -- h0 to h15
  | n (max : Nat)  -- a number up to max
  | any        -- an immediate
  deriving DecidableEq, Repr

def FK.ok : FK → Nat → Bool
  | .z, i => i == 0
  | .x, i => decide (i < 32) || (decide (48 ≤ i) && decide (i < 56))
  | .xo, i => decide (i < 32)
  | .q, i => decide (48 ≤ i) && decide (i < 56)
  | .y, i => decide (32 ≤ i) && decide (i < 48)
  | .p, i => decide (i < 8)
  | .a, i => decide (i < 32)
  | .v, i => decide (i < 64)
  | .g, i => decide (i < 16)
  | .g2, i => decide (2 ≤ i) && decide (i < 16) && i % 2 == 0
  | .h, i => decide (i < 16)
  | .n m, i => decide (i ≤ m)
  | .any, _ => true

/-- The files of a form's three fields; whether D is written, and whether it is read. -/
structure Sig where
  d : FK
  a : FK
  b : FK
  w : Bool := true
  r : Bool := false
  deriving DecidableEq, Repr

/-- Forms of the weave plane by major and minor. -/
def sigW (maj x : Nat) : Option Sig :=
  if maj ≤ 6 then some ⟨.x, .x, .x, true, false⟩
  else if 8 ≤ maj ∧ maj ≤ 0x10 then some ⟨.x, .x, .any, true, false⟩
  else if maj = 0x40 ∨ maj = 0x41 ∨ maj = 0x42 then some ⟨.y, .y, .y, true, x == 3⟩
  else if maj = 0x32 ∨ maj = 0x34 then some ⟨.x, .xo, .any, true, false⟩
  else if maj = 0x33 ∨ maj = 0x35 then some ⟨.x, .xo, .any, false, true⟩
  else match maj, x with
    | 0x07, _ => some ⟨.x, .x, .z, true, false⟩
    | 0x11, _ => some ⟨.x, .any, .any, true, false⟩
    | 0x12, _ => some ⟨.xo, .any, .any, true, true⟩
    | 0x13, _ => some ⟨.p, .x, .x, true, false⟩
    | 0x14, _ => some ⟨.p, .x, .any, true, false⟩
    | 0x15, 3 => some ⟨.p, .p, .z, true, false⟩
    | 0x15, _ => some ⟨.p, .p, .p, true, false⟩
    | 0x16, 0 => some ⟨.x, .x, .x, true, false⟩
    | 0x17, _ => some ⟨.x, .x, .x, true, false⟩
    | 0x18, 0 => some ⟨.x, .x, .any, true, false⟩
    | 0x18, 1 => some ⟨.xo, .x, .any, true, true⟩
    | 0x20, _ => some ⟨.any, .any, .any, false, false⟩
    | 0x21, _ => some ⟨.any, .any, .any, false, false⟩
    | 0x22, 0 => some ⟨.z, .xo, .z, false, false⟩
    | 0x22, 1 => some ⟨.x, .xo, .z, true, false⟩
    | 0x22, 2 => some ⟨.z, .xo, .z, false, false⟩
    | 0x25, 0 => some ⟨.x, .x, .x, true, false⟩
    | 0x28, _ => some ⟨.x, .xo, .any, true, false⟩
    | 0x29, _ => if x < 3 then some ⟨.x, .xo, .any, true, false⟩ else none
    | 0x2A, _ => some ⟨.x, .xo, .any, false, true⟩
    | 0x2B, 1 => some ⟨.y, .xo, .any, false, true⟩
    | 0x2B, _ => some ⟨.y, .xo, .any, true, false⟩
    | 0x2C, _ => some ⟨.x, .xo, .any, true, false⟩
    | 0x2D, 2 => some ⟨.z, .xo, .any, false, false⟩
    | 0x2D, _ => if x < 2 then some ⟨.x, .xo, .any, false, true⟩ else none
    | 0x2E, _ => some ⟨.x, .xo, .x, true, false⟩
    | 0x2F, 1 => some ⟨.xo, .xo, .x, true, true⟩
    | 0x2F, _ => some ⟨.x, .xo, .x, true, false⟩
    | 0x30, _ => some ⟨.z, .z, .n 5, false, false⟩
    | 0x31, 2 => some ⟨.n 1, .xo, .any, false, false⟩
    | 0x31, _ => if x < 2 then some ⟨.n 5, .xo, .any, false, false⟩ else none
    | 0x38, 0 => some ⟨.x, .x, .x, true, false⟩
    | 0x38, 3 => some ⟨.x, .z, .z, true, false⟩
    | 0x38, _ => some ⟨.z, .x, .z, false, false⟩
    | 0x39, 2 => some ⟨.z, .q, .z, false, false⟩
    | 0x39, 3 => some ⟨.xo, .q, .x, true, false⟩
    | 0x39, _ => some ⟨.xo, .q, .z, true, false⟩
    | 0x3A, 2 => some ⟨.z, .x, .x, false, false⟩
    | 0x3A, 3 => some ⟨.x, .z, .z, true, false⟩
    | 0x3A, _ => some ⟨.x, .x, .x, true, false⟩
    | 0x3B, _ => some ⟨.n 7, .x, .any, false, false⟩
    | 0x3C, 1 => some ⟨.z, .x, .x, false, false⟩
    | 0x3C, 3 => some ⟨.x, .x, .x, true, false⟩
    | 0x3C, _ => some ⟨.z, .z, .z, false, false⟩
    | 0x3D, 2 => some ⟨.x, .x, .z, true, false⟩
    | 0x3D, _ => if x < 2 then some ⟨.z, .x, .x, false, false⟩ else none
    | 0x3E, 3 => some ⟨.x, .x, .x, true, false⟩
    | 0x3E, _ => some ⟨.x, .x, .z, true, false⟩
    | 0x3F, _ => if x < 3 then some ⟨.x, .x, .z, true, false⟩ else none
    | 0x43, _ => some ⟨.y, .y, .y, true, false⟩
    | 0x44, 0 => some ⟨.y, .y, .y, true, false⟩
    | 0x44, 1 => some ⟨.y, .y, .n 1, true, false⟩
    | 0x44, _ => some ⟨.y, .y, .z, true, false⟩
    | 0x45, _ => some ⟨.y, .y, .y, true, false⟩
    | 0x46, _ => some ⟨.x, .y, .z, true, false⟩
    | 0x47, 0 => some ⟨.y, .x, .z, true, false⟩
    | 0x47, 1 => some ⟨.x, .y, .x, true, false⟩
    | 0x47, 2 => some ⟨.y, .x, .x, true, true⟩
    | 0x47, _ => some ⟨.y, .y, .y, true, true⟩
    | 0x74, 3 => some ⟨.n 3, .z, .n 7, false, false⟩
    | 0x74, _ => some ⟨.n 3, .z, .z, false, false⟩
    | 0x75, 0 => some ⟨.z, .x, .x, false, false⟩
    | 0x75, 1 => some ⟨.x, .x, .x, true, false⟩
    | 0x75, 2 => some ⟨.z, .x, .n 1, false, false⟩
    | 0x75, _ => some ⟨.x, .x, .n 1, true, false⟩
    | 0x77, 0 => some ⟨.n 7, .x, .x, false, false⟩
    | 0x77, 1 => some ⟨.x, .n 7, .z, true, false⟩
    | 0x77, 2 => some ⟨.n 3, .x, .z, false, false⟩
    | 0x77, _ => some ⟨.x, .n 3, .z, true, false⟩
    | 0x79, 0 => some ⟨.n 63, .x, .z, false, false⟩
    | 0x79, 3 => some ⟨.x, .n 63, .z, true, false⟩
    | 0x79, _ => some ⟨.n 63, .z, .z, false, false⟩
    | 0x7A, 0 => some ⟨.z, .x, .x, false, false⟩
    | 0x7A, 3 => some ⟨.x, .x, .n 3, true, false⟩
    | 0x7A, _ => some ⟨.x, .x, .z, true, false⟩
    | 0x7E, 1 => some ⟨.xo, .z, .any, true, false⟩
    | 0x7E, 2 => some ⟨.z, .xo, .any, false, false⟩
    | 0x7E, _ => some ⟨.z, .z, .any, false, false⟩
    | 0x7F, _ => some ⟨.any, .any, .any, false, false⟩
    | _, _ => none

/-- Forms of the frame plane by major and minor. -/
def sigF (maj x : Nat) : Option Sig :=
  if maj ≤ 6 then some ⟨.a, .a, .a, true, false⟩
  else if 8 ≤ maj ∧ maj ≤ 0x10 then some ⟨.a, .a, .any, true, false⟩
  else if 0x50 ≤ maj ∧ maj ≤ 0x5B then
    (if maj % 2 = 0 then some ⟨.v, .v, .v, true, x == 3⟩
     else if x < 2 then some ⟨.v, .v, .v, true, false⟩ else some ⟨.v, .v, .z, true, false⟩)
  else match maj, x with
    | 0x07, _ => some ⟨.a, .a, .z, true, false⟩
    | 0x11, _ => some ⟨.a, .any, .any, true, false⟩
    | 0x12, _ => some ⟨.a, .any, .any, true, true⟩
    | 0x13, _ => some ⟨.g, .a, .a, true, false⟩
    | 0x14, _ => some ⟨.g, .a, .any, true, false⟩
    | 0x15, 3 => some ⟨.g, .g, .z, true, false⟩
    | 0x15, _ => some ⟨.g, .g, .g, true, false⟩
    | 0x16, 0 => some ⟨.a, .a, .a, true, false⟩
    | 0x17, _ => some ⟨.a, .a, .a, true, false⟩
    | 0x18, 0 => some ⟨.a, .a, .any, true, false⟩
    | 0x18, 1 => some ⟨.a, .a, .any, true, true⟩
    | 0x20, _ => some ⟨.any, .any, .any, false, false⟩
    | 0x21, _ => some ⟨.any, .any, .any, false, false⟩
    | 0x22, 0 => some ⟨.z, .a, .z, false, false⟩
    | 0x22, 1 => some ⟨.a, .a, .z, true, false⟩
    | 0x22, 2 => some ⟨.z, .a, .z, false, false⟩
    | 0x23, _ => some ⟨.n 7, .a, .any, false, false⟩
    | 0x24, _ => some ⟨.z, .z, .any, false, false⟩
    | 0x5C, _ => some ⟨.v, .v, .any, true, false⟩
    | 0x5D, _ => some ⟨.v, .v, .any, true, false⟩
    | 0x5E, 0 => some ⟨.v, .v, .a, true, true⟩
    | 0x5E, 1 => some ⟨.v, .v, .a, true, true⟩
    | 0x5E, _ => some ⟨.v, .v, .a, true, false⟩
    | 0x5F, _ => some ⟨.v, .v, .z, true, false⟩
    | 0x60, _ => some ⟨.v, .v, .v, true, false⟩
    | 0x61, _ => some ⟨.v, .v, .v, true, false⟩
    | 0x62, 3 => some ⟨.v, .v, .z, true, false⟩
    | 0x62, _ => some ⟨.v, .v, .v, true, false⟩
    | 0x63, 1 => some ⟨.v, .v, .n 31, true, false⟩
    | 0x63, 2 => some ⟨.v, .v, .n 31, true, false⟩
    | 0x63, _ => some ⟨.v, .v, .v, true, false⟩
    | 0x64, 1 => some ⟨.v, .v, .n 7, true, true⟩
    | 0x64, 3 => some ⟨.g, .v, .n 2, true, false⟩
    | 0x64, _ => some ⟨.v, .v, .v, true, true⟩
    | 0x65, _ => some ⟨.v, .v, .z, true, false⟩
    | 0x66, 0 => some ⟨.v, .a, .any, true, false⟩
    | 0x66, 2 => some ⟨.v, .a, .any, true, false⟩
    | 0x66, _ => some ⟨.v, .a, .any, false, true⟩
    | 0x67, 0 => some ⟨.a, .v, .n 31, true, false⟩
    | 0x67, 1 => some ⟨.v, .v, .z, true, false⟩
    | 0x67, _ => some ⟨.v, .a, .z, true, false⟩
    | 0x68, _ => some ⟨.h, .a, .any, true, true⟩
    | 0x69, 3 => some ⟨.v, .v, .n 1, true, false⟩
    | 0x69, _ => some ⟨.h, .a, .any, true, true⟩
    | 0x6A, 1 => some ⟨.v, .h, .a, true, false⟩
    | 0x6A, 2 => some ⟨.h, .v, .a, true, true⟩
    | 0x6A, _ => some ⟨.h, .z, .z, true, true⟩
    | 0x6B, 0 => some ⟨.h, .h, .a, true, true⟩
    | 0x6B, 1 => some ⟨.h, .h, .z, true, true⟩
    | 0x6B, _ => some ⟨.h, .z, .z, true, true⟩
    | 0x6C, 0 => some ⟨.z, .a, .any, false, false⟩
    | 0x6C, 1 => some ⟨.z, .a, .z, false, false⟩
    | 0x6C, 2 => some ⟨.z, .z, .z, false, false⟩
    | 0x6C, _ => some ⟨.a, .z, .z, true, false⟩
    | 0x6D, _ => some ⟨.v, .v, .v, true, true⟩
    | 0x70, 0 => some ⟨.v, .z, .n 63, true, false⟩
    | 0x70, 1 => some ⟨.g2, .v, .n 63, true, false⟩
    | 0x70, 2 => some ⟨.z, .z, .n 63, false, false⟩
    | 0x70, _ => some ⟨.z, .v, .n 63, false, false⟩
    | 0x71, 0 => some ⟨.a, .z, .z, true, false⟩
    | 0x71, 1 => some ⟨.a, .z, .n 2, true, false⟩
    | 0x71, 2 => some ⟨.n 2, .a, .n 63, false, false⟩
    | 0x71, _ => some ⟨.z, .a, .z, false, false⟩
    | 0x74, 3 => some ⟨.n 15, .a, .n 7, false, false⟩
    | 0x74, _ => some ⟨.n 15, .a, .z, false, false⟩
    | 0x75, 0 => some ⟨.z, .a, .a, false, false⟩
    | 0x75, 1 => some ⟨.a, .a, .a, true, false⟩
    | 0x75, 3 => some ⟨.g, .a, .n 1, true, false⟩
    | 0x76, 0 => some ⟨.z, .a, .z, false, false⟩
    | 0x76, 3 => some ⟨.a, .z, .z, true, false⟩
    | 0x76, _ => some ⟨.z, .z, .z, false, false⟩
    | 0x77, 0 => some ⟨.n 7, .a, .a, false, false⟩
    | 0x77, 1 => some ⟨.a, .n 7, .z, true, false⟩
    | 0x77, 2 => some ⟨.n 15, .a, .z, false, false⟩
    | 0x77, _ => some ⟨.a, .n 15, .z, true, false⟩
    | 0x78, 0 => some ⟨.n 63, .v, .a, false, false⟩
    | 0x78, 1 => some ⟨.v, .n 63, .z, true, false⟩
    | 0x78, 2 => some ⟨.v, .n 63, .n 2, true, true⟩
    | 0x78, _ => some ⟨.a, .n 63, .z, true, false⟩
    | 0x79, 3 => some ⟨.a, .n 63, .z, true, false⟩
    | 0x7A, 1 => some ⟨.a, .a, .z, true, false⟩
    | 0x7A, 3 => some ⟨.a, .a, .n 3, true, false⟩
    | 0x7C, 1 => some ⟨.g, .z, .any, true, false⟩
    | 0x7C, 2 => some ⟨.a, .a, .any, true, false⟩
    | 0x7C, 3 => some ⟨.a, .a, .n 4, true, false⟩
    | 0x7C, _ => some ⟨.z, .z, .any, false, false⟩
    | 0x7D, 0 => some ⟨.any, .any, .n 1, false, false⟩
    | 0x7D, 1 => some ⟨.z, .z, .z, false, false⟩
    | 0x7D, 2 => some ⟨.any, .any, .any, false, false⟩
    | 0x7F, _ => some ⟨.any, .any, .any, false, false⟩
    | _, _ => none

/-- Every field names something its form accepts (R12, R61). -/
def Sig.ok (s : Sig) (d a b : Nat) : Bool := s.d.ok d && s.a.ok a && s.b.ok b
def legalW (maj x d a b : Nat) : Bool := match sigW maj x with
  | some s => s.ok d a b
  | none => false
def legalF (maj x d a b : Nat) : Bool := match sigF maj x with
  | some s => s.ok d a b
  | none => false

/-- Forms with an immediate, before which an EXT may stand (R60, R62, R142, R209, R251, R328). LOOPE is none of them, since R98 calls its imm8
unused (DESIGN CHOICE, log 84). -/
def takesExt (maj x : Nat) : Bool :=
  (decide (8 ≤ maj) && decide (maj ≤ 0x12)) || maj == 0x14 || maj == 0x18 || maj == 0x20 || maj == 0x21 || maj == 0x23 ||
    (decide (0x28 ≤ maj) && decide (maj ≤ 0x2D)) || (decide (0x31 ≤ maj) && decide (maj ≤ 0x35)) || maj == 0x66 ||
    (maj == 0x7C && decide (x < 3)) || maj == 0x7E

/-- Limits that a form's description puts on its immediate (R69, R85, R86, R91, R192, R209, R364, R365); `raw` is the syllable's own
immediate. They hold whatever the guard reads. -/
def immOk (ext : Option Nat) (maj x raw : Nat) : Bool :=
  let e := ext.getD 0
  if 0x0C ≤ maj ∧ maj ≤ 0x0E then decide (e * 256 + raw ≤ 63)
  else if maj = 0x12 then decide (e * 2 ^ 14 + raw < 2 ^ 32)
  else if maj = 0x7C then
    let n := e * 64 + raw
    (if x = 0 then decide (1 ≤ n) else if x = 1 then decide (n ≤ 63) else x != 2 || n == 0)
  else if maj = 0x5C then (if x < 2 then raw % 32 == 0 else fld raw 3 2 == 0 && decide (raw % 8 ≤ 4))
  else if maj = 0x5D then (if x < 2 then decide (raw ≤ 4) else raw % 32 == 0)
  else if maj = 0x18 then ext.isSome && decide (e < 64) && decide (raw + e % 64 + 1 ≤ 64)
  else if maj = 0x7E then
    let n := e * 64 + raw
    if x = 3 then n == 0 else x == 0 || decide (n ≤ 18) || (decide (64 ≤ n) && decide (n < 192))
  else true

/-! ### Pipes (R116 to R118) -/

/-- The pipe, by its place in the gang, whose consumer (or producer) port q`n` is in a role. -/
def consumerPipe (ps : List Pipe) (role n : Nat) : Option Nat := ps.findIdx? (fun p => p.crole == role && p.cq == n)
def producerPipe (ps : List Pipe) (role n : Nat) : Option Nat := ps.findIdx? (fun p => p.prole == role && p.pq == n)

def State.pipesOf (s : State) (c : Nat) : List Pipe := ((tget s.weave.gangs (s.ctx c).gang).map (·.pipes)).getD []
def State.setPipe (s : State) (c i : Nat) (p : Pipe) : State :=
  match tget s.weave.gangs (s.ctx c).gang with
  | some g => s.setGang (s.ctx c).gang { g with pipes := g.pipes.set i p }
  | none => s

/-- What the state of a port means for a group that needs it (R117). -/
inductive Fate where
  | ok | stall | token | trap (code : Nat)
  deriving DecidableEq, Repr

def isToken : PipeEntry → Bool
  | .token => true
  | .value _ => false

def Pipe.popFate (p : Pipe) (n : Nat) : Fate :=
  if p.cclosed then .trap cUnderflow
  else if (p.entries.take n).any isToken then .token
  else if n ≤ p.entries.length then .ok
  else if p.pclosed then .trap cUnderflow
  else .stall
def Pipe.pushFate (p : Pipe) : Fate :=
  if p.pclosed || p.cclosed then .trap cOverflow
  else if p.entries.length < p.depth then .ok else .stall

def State.popFate (s : State) (c q n : Nat) : Fate :=
  match consumerPipe (s.pipesOf c) (s.ctx c).role (q - 48) with
  | some i => match (s.pipesOf c)[i]? with
    | some p => p.popFate n
    | none => .trap cUnderflow
  | none => .trap cUnderflow
def State.pushFate (s : State) (c q : Nat) : Fate :=
  match producerPipe (s.pipesOf c) (s.ctx c).role (q - 48) with
  | some i => match (s.pipesOf c)[i]? with
    | some p => p.pushFate
    | none => .trap cOverflow
  | none => .trap cOverflow

def isQ (i : Nat) : Bool := decide (48 ≤ i) && decide (i < 56)

/-- The pops (with their counts) and the push that a syllable's fields ask for. -/
def popsOf (srcs : List Nat) : List (Nat × Nat) :=
  (srcs.filter isQ).eraseDups.map (fun q => (q, srcs.countP (fun i => i == q)))

/-- The fates of a syllable's pops and push: a trap before a stall (R117). -/
def State.gate (s : State) (c : Nat) (srcs dsts : List Nat) : Run Unit :=
  let fates := (popsOf srcs).map (fun q => (q.1, s.popFate c q.1 q.2)) ++
    (dsts.filter isQ).map (fun q => (q, s.pushFate c q))
  match fates.findSome? (fun f => match f.2 with
    | .trap code => some (code, f.1)
    | _ => none) with
  | some (code, q) => stop code 0 q
  | none =>
    if fates.any (fun f => f.2 == .token) then waitFor (.pipe true)
    else if fates.any (fun f => f.2 == .stall) then waitFor (.pipe false) else .ok ()

/-- An event sets its EVPEND bit by OR; until the cycle ends it is one of the cycle's arrivals (R101, R102). -/
def Ctx.event (x : Ctx) (bitNo : Nat) : Ctx := { x with evnew := x.evnew ||| BitVec.ofNat 64 (2 ^ bitNo) }
/-- EVPEND as it stands, this cycle's arrivals among its bits (R101). -/
def Ctx.pendingEvents (x : Ctx) : W64 := x.evpend ||| x.evnew

/-- EVPEND bits are set in every live context of a role (R101). -/
def State.postEvent (s : State) (gang role bitNo : Nat) : State :=
  (keysWhere s.weave.ctxs (fun _ x => x.gang == gang && x.role == role)).foldl
    (fun t c => t.modCtx c (·.event bitNo)) s

/-- Pop the oldest entry of the port q names, an acquire at cluster scope (R119); the producer's event is posted
(R101). -/
def State.popQ (s : State) (c q : Nat) : W64 × State :=
  match consumerPipe (s.pipesOf c) (s.ctx c).role (q - 48) with
  | none => (0, s)
  | some i => match (s.pipesOf c)[i]? with
    | none => (0, s)
    | some p => match p.entries with
      | .value w :: rest =>
        (w, ((s.setPipe c i { p with entries := rest }).postEvent (s.ctx c).gang p.prole p.pq).acquire (coreOf c))
      | _ => (0, s)

/-- Push a value, a release at cluster scope (R119); the consumer's event is posted (R101). -/
def State.pushQ (s : State) (c q : Nat) (w : W64) : State :=
  match producerPipe (s.pipesOf c) (s.ctx c).role (q - 48) with
  | none => s
  | some i => match (s.pipesOf c)[i]? with
    | none => s
    | some p => ((s.drainAll (coreOf c)).setPipe c i { p with entries := p.entries ++ [.value w] }).postEvent
        (s.ctx c).gang p.crole p.cq

/-- Read a source field: an x register, or a pop. -/
def State.src (s : State) (c i : Nat) : W64 × State := if isQ i then s.popQ c i else ((s.ctx c).x i, s)
/-- Write a destination field: an x register, or a push. -/
def State.dst (s : State) (c i : Nat) (v : W64) : State :=
  if isQ i then s.pushQ c i v else s.modCtx c (fun x => x.setX i v)

/-- The source and destination fields that may name a pipe port, by form. -/
def srcFields (g : Sig) (d a b : Nat) : List Nat :=
  (if g.a == .x then [a] else []) ++ (if g.b == .x then [b] else []) ++ (if g.d == .x && !g.w then [d] else [])
def dstFields (g : Sig) (d : Nat) : List Nat := if g.d == .x && g.w then [d] else []

/-! ### The wrapper of a weave syllable -/

/-- What becomes of a syllable whose pipes have the fates `g` and whose own outcome is `r`: a stall gives way to a trap that needs
no popped value (R117). -/
def gated (g : Run Unit) (popped : Bool) (r : Run State) : Run State :=
  match g with
  | .ok _ => r
  | .error (.wait w) => (match r with
    | .ok _ => waitFor w
    | .error (.wait _) => waitFor w
    | .error e => if popped then waitFor w else .error e)
  | .error e => .error e

/-- Run a syllable of major `maj`, minor `x` in a context: encoding, guard, conditions that need no popped value,
pipes, then the body (R12, R23, R25, R69, R117). Where no source is to be popped every condition can be decided before the
pushes can be performed (R117). A context that a group's other syllable has ended executes nothing. -/
def State.onCtx (s : State) (c maj x g d a b : Nat) (sel : Bool) (pre : Run Unit) (body : State → Run State) :
    Host.Outcome State Fault Refusal :=
  match s.ctx? c with
  | none => .next s
  | some xc =>
    match sigW maj x with
    | none => finishW s c illegal
    | some sg =>
      if !sg.ok d a b || g == 8 || (s.ctl.ext.isSome && !takesExt maj x) || !immOk s.ctl.ext maj x b then
        finishW s c illegal
      else if !sel && !xc.guard g then .next s.retire
      else finishW s c (do
        pre
        gated (s.gate c (srcFields sg d a b) (dstFields sg d)) ((srcFields sg d a b).any isQ) (body s))

/-- No condition to test before the pipes. -/
def noPre (_ : State) (_ : Nat) : Run Unit := .ok ()

/-! ### Registers of a bench (R157) -/

/-- The turn offset KCTL.TURN (R95). -/
def Bench.turn (b : Bench) : Nat := fld b.kctl.toNat 32 5
/-- The physical index of v register `k` (R96). -/
def Bench.phys (b : Bench) (k : Nat) : Nat := if k < 32 then k else 32 + (k + 32 - 32 - b.turn) % 32
def Bench.ra (b : Bench) (i : Nat) : W64 := if i = 0 then 0 else tgetD b.a i 0
def Bench.wa (b : Bench) (i : Nat) (v : W64) : Bench := if i = 0 then b else { b with a := tset b.a i v }
def Bench.rv (b : Bench) (k : Nat) : Nat := (tgetD b.v (b.phys k) 0).toNat
def Bench.rg (b : Bench) (i : Nat) : Bool := i == 0 || b.g.getLsbD i
def Bench.wg (b : Bench) (i : Nat) (v : Bool) : Bench :=
  if i = 0 then b
  else { b with g := BitVec.ofNat 16 (b.g.toNat - (if b.g.getLsbD i then 2 ^ i else 0) + (if v then 2 ^ i else 0)) }

/-- Slot order of R64. -/
def SlotName.idx : SlotName → Nat
  | .a0 => 0
  | .a1 => 1
  | .m => 2
  | .v0 => 3
  | .v1 => 4
  | .x => 5
  | .l => 6
  | .c => 7

/-- The slots a major may occupy (R65). -/
def slotTakes (sl : SlotName) (maj x : Nat) : Bool :=
  match sl with
  | .a0 => decide (maj ≤ 0x18) || (decide (0x20 ≤ maj) && decide (maj ≤ 0x24))
  | .a1 => decide (maj ≤ 0x18)
  | .m => decide (0x68 ≤ maj) && decide (maj ≤ 0x6D)
  | .v0 => (decide (0x50 ≤ maj) && decide (maj ≤ 0x62)) || (decide (0x65 ≤ maj) && decide (maj ≤ 0x67))
  | .v1 => (decide (0x50 ≤ maj) && decide (maj ≤ 0x62)) || (decide (0x65 ≤ maj) && decide (maj ≤ 0x67))
  | .x => maj == 0x63
  | .l => maj == 0x64
  | .c => maj == 0x70 || maj == 0x71 || (decide (0x74 ≤ maj) && decide (maj ≤ 0x7A)) || maj == 0x7C ||
      (maj == 0x7D && decide (x < 3))

/-- Width in bits that the bundle gives a slot (R63, R158, R185). -/
def Bench.width (b : Bench) (sl : SlotName) : Nat :=
  match sl with
  | .v0 => b.w0
  | .v1 => b.w1
  | _ => 1024

/-- A result of bench `b` lands `lat` bench ticks after the tick in progress (R81, R188). -/
def Bench.later (b : Bench) (lat : Nat) (e : Effect) : Bench :=
  { b with pend := b.pend ++ [⟨b.tick + lat, b.tick * 1048576 + b.pend.length, e⟩] }
/-- Flags land with the result. -/
def Bench.laterFlags (b : Bench) (lat f : Nat) : Bench :=
  if f = 0 then b else b.later lat (.flags (BitVec.ofNat 64 f))
/-- A v result of `n` bits from bit `lo`. -/
def Bench.laterV (b : Bench) (lat k lo n v : Nat) : Bench :=
  b.later lat (.v (b.phys k) lo n (BitVec.ofNat 1024 (v % 2 ^ n)))

/-- A cause that a bench raises ends the launch (R359), with EPC the bundle's BHDR. -/
def State.benchFault (s : State) (b epc code faddr info : Nat) : State :=
  (s.faultFrame ⟨code, info, faddr, epc, 1, b, 0⟩).verdict .faulted

/-- The outcome of a slot's syllable. A frame syllable never waits. -/
def finishF' (s : State) (b : Nat) : Run State → Host.Outcome State Fault Refusal
  | .ok t => .next t.retire
  | .error (.cause code faddr info) => .next (s.benchFault b s.ctl.group code faddr info)
  | .error (.wide code faddr info) => .next (s.benchFault b s.ctl.group code faddr info)
  | .error (.elem code faddr info lidx) =>
    .next ((s.faultFrame ⟨code, info, faddr, s.ctl.group, 1, b, firstErr lidx⟩).verdict .faulted)
  | .error (.wait _) => .next s.retire

/-- Run a slot's syllable: encoding, guard, body (R61, R65 to R67). -/
def State.onSlot (s : State) (b : Nat) (sl : SlotName) (maj x g d a bb : Nat) (sel : Bool)
    (body : State → Run State) : Host.Outcome State Fault Refusal :=
  match sigF maj x with
  | none => finishF' s b illegal
  | some sg =>
    if !sg.ok d a bb || !slotTakes sl maj x || (s.ctl.ext.isSome && !takesExt maj x) || !immOk s.ctl.ext maj x bb then
      finishF' s b illegal
    else if !sel && !(s.bench b).rg g then .next s.retire
    else finishF' s b (body s)

/-- A syllable that only the frame plane executes. Where nobody executes it, nothing happens. -/
def frame (maj x g d a bb : Nat) (body : Nat → SlotName → State → Run State) (s : State) :
    Host.Outcome State Fault Refusal :=
  match s.ctl.cur with
  | .slot b sl => s.onSlot b sl maj x g d a bb false (body b sl)
  | .ctx c => s.onCtx c maj x g d a bb true illegal (fun _ => illegal)
  | _ => .next s

/-- A syllable of both planes. -/
def both (maj x g d a bb : Nat) (pre : State → Nat → Run Unit) (wb : Nat → State → Run State)
    (fb : Nat → SlotName → State → Run State) (s : State) : Host.Outcome State Fault Refusal :=
  match s.ctl.cur with
  | .ctx c => s.onCtx c maj x g d a bb false (pre s c) (wb c)
  | .slot b sl => s.onSlot b sl maj x g d a bb false (fb b sl)
  | _ => .next s

/-- A weave-only syllable reached in a bundle is illegal (R8, R65); so it ends there. -/
def weave (maj x g d a b : Nat) (pre : State → Nat → Run Unit) (body : Nat → State → Run State) (s : State) :
    Host.Outcome State Fault Refusal :=
  match s.ctl.cur with
  | .ctx c => s.onCtx c maj x g d a b false (pre s c) (body c)
  | .slot bn _ => finishF' s bn illegal
  | _ => .next s

end Sys2Proof.Machine
end

