-- ==== Sys2Proof/Machine/Device.lean ====
section
/-! DEFINITION. What reads of the device registers return (R393, R395, R408, R416 to R418). -/

namespace Sys2Proof.Machine

/-- SLIPLOG as a word (R162). -/
def Frame.slipLog (f : Frame) : W64 := BitVec.ofNat 64 (f.total * 2 ^ 32 + f.next % 64)

/-- Boot hold (R415, R417). -/
def State.bootHold (s : State) : Bool := bitOf s.host.bootstat.toNat 63

/-- A register of a launch queue; QDB, QARM and QCMD are write-only (R408). -/
def Queue.regValue (q : Queue) (reg : Nat) : W64 :=
  match reg with
  | 0x00 => q.cfg
  | 0x08 => q.base
  | 0x10 => q.cbase
  | 0x18 => q.tvec
  | 0x38 => BitVec.ofNat 64 q.head
  | 0x40 => BitVec.ofNat 64 q.chead
  | 0x48 => BitVec.ofNat 64 q.ctail
  | _ => 0

/-- SDSTAT of a die: OVF, BAD and QLEN (R279). -/
def State.sdstat (s : State) (d : Nat) : W64 :=
  tgetD s.eng.sdstat d 0 ||| BitVec.ofNat 64 ((tgetD s.eng.sdq d []).length % 32)

/-- The register that an offset names, out of boot hold (R416). -/
def State.devReg (s : State) (off : Nat) : W64 :=
  let h := s.host
  if off = 0x08 then h.pcap
  else if off = 0x10 then h.fclkreq
  else if off = 0x100 then h.asidtb
  else if off = 0x108 then h.cmplo
  else if off = 0x110 then h.cmphi
  else if off = 0x118 then h.mdbase
  else if off = 0x200 ∨ off = 0x240 then tgetD s.eng.sdva ((off - 0x200) / 0x40) 0
  else if off = 0x210 ∨ off = 0x250 then s.sdstat ((off - 0x210) / 0x40)
  else if off = 0x400 then h.alignctl
  else if off = 0x408 then h.alignstat
  else if 0x800 ≤ off ∧ off < 0x800 + 8 * 144 then tgetD h.splport ((off - 0x800) / 8) 0
  else if off = 0x4008 then h.ccspill
  else if off = 0x4010 then h.ccstat
  else if 0x4100 ≤ off ∧ off < 0x4200 then BitVec.ofNat 64 (leNat (h.ccdesc.readBytes (off - 0x4100) 8))
  else if 0x8000 ≤ off ∧ off < 0xA000 then (s.queue ((off - 0x8000) / 0x80)).regValue (off % 0x80)
  else if 0xA000 ≤ off ∧ off < 0xC000 then (s.queue (64 + (off - 0xA000) / 0x80)).regValue (off % 0x80)
  else if 0xC000 ≤ off ∧ off < 0xC200 then (s.queue (128 + (off - 0xC000) / 0x80)).regValue (off % 0x80)
  else if off = 0x10000 then s.frame.slipLog
  else if 0x10100 ≤ off ∧ off < 0x10500 then
    let e := tgetD s.frame.slip ((off - 0x10100) / 16) (0, 0)
    if off % 16 = 0 then e.1 else e.2
  else if 0x20000 ≤ off ∧ off < 0x28000 then s.evctr ((off - 0x20000) / 8)
  else 0

/-- A read of `size` bytes at an offset of the device registers (R416, R417). -/
def State.devRead (s : State) (off size : Nat) : Nat :=
  if size = 4 ∧ off % 4 = 0 ∧ 0x2100 ≤ off ∧ off < 0x3000 ∧ off % 0x100 < 0x88 ∧ !s.bootHold then
    (tgetD (s.compander ((off - 0x2000) / 0x100)) (off % 0x100 / 4) 0).toNat
  else if size = 8 ∧ off % 8 = 0 then
    (if off = 0 then s.host.bootstat.toNat
     else if 0x30000 ≤ off ∧ off < 0x40000 then (tgetD s.host.life ((off - 0x30000) / 8) 0).toNat
     else if s.bootHold then 0
     else (s.devReg off).toNat)
  else 0

end Sys2Proof.Machine
end

