-- ==== Sys2Proof/Machine/Flags.lean ====
section
/-! DEFINITION. Flag registers: writes of one that clear (R19, R214), and the folding of an element-wise operation's
flags (R56). -/

namespace Sys2Proof.Machine

/-- A W1C write to the low `n` flags (R7, R19). -/
def w1c (n : Nat) (old v : W64) : W64 := old &&& ~~~(v &&& BitVec.ofNat 64 (2 ^ n - 1))

/-- The OR of the flags of many elements (R56). -/
def orFlags (l : List (Nat × Nat)) : Nat := l.foldl (fun f r => f ||| r.2) 0

/-- Element-wise results with their flags. -/
def mapFlags {α : Type} (f : α → Nat × Nat) (l : List α) : List Nat × Nat :=
  let r := l.map f
  (r.map (·.1), orFlags r)

/-- SYSWR to STATUS writes RM alone; 0b101 to 0b111 store RNE (R16, R18). -/
def writeStatus (old v : W64) : W64 :=
  let r := fld v.toNat 2 3
  setFld old 2 3 (if 5 ≤ r then 0 else r)

end Sys2Proof.Machine
end

