-- ==== Sys2Proof/Machine/WeaveMem.lean ====
section
/-! DEFINITION. Weave memory access: addresses, the port of tensor SRAM (R260), watermark stalls (R318), loads and
stores (R29, R104 to R107), and the forms of majors 0x28 to 0x2B but LDYF. -/

namespace Sys2Proof.Machine

/-- The effective address of a MEMF form (R105). -/
def State.eaOf (s : State) (c a i scale : Nat) : Nat :=
  ((s.ctx c).x a + s.immS 6 i * BitVec.ofNat 64 scale).toNat

/-- Whether a range touches what an enabled channel has not yet covered (R318). -/
def Watermark.stalls (w : Watermark) (off n : Nat) : Bool :=
  let base := fld w.cfg.toNat 32 22
  let len := fld w.cfg.toNat 0 22
  let pos := fld w.pos.toNat 0 32
  bitOf w.cfg.toNat 63 && overlaps off n (base + pos) (len - pos)

def wmStalls (t : Tbl Watermark) (off n : Nat) : Bool := t.any (fun e => e.2.stalls off n)

/-- The watermark stall of an access to a bench's tensor SRAM. -/
def State.sramStall (s : State) (b off n : Nat) : Run Unit :=
  if wmStalls (s.bench b).wm off n then waitFor .watermark else .ok ()

/-- An access reaches tensor SRAM when the port performs it (R260). -/
def State.portWait (s : State) (c b : Nat) : Run Unit := if (s.ctx c).granted then .ok () else waitFor (.port b)

/-- Stalls and the port, for every part in tensor SRAM. -/
def State.sramGate (s : State) (c : Nat) (ps : List Part) : Run Unit :=
  match ps with
  | [] => .ok ()
  | p :: _ =>
    match regionOf p.pa with
    | .sram b o => do
      s.sramStall b o ((ps.map (·.len)).foldl (· + ·) 0)
      s.portWait c b
    | _ => .ok ()

/-- The port, for an access whose place in the windows of mortises it decides (R106 row 5, R260). -/
def State.portGate (s : State) (c : Nat) (ps : List Part) : Run Unit :=
  match ps with
  | [] => .ok ()
  | p :: _ =>
    match regionOf p.pa with
    | .sram b _ => s.portWait c b
    | _ => .ok ()

/-- Bytes of one part within a line, as they stand outside the store buffer (R30, R260, R416). -/
def State.loadPart (s : State) (c : Nat) (p : Part) : Run (List Byte × State) :=
  match regionOf p.pa with
  | .device off => .ok (leBytes p.len (s.devRead off p.len), s)
  | .sram _ _ => .ok (s.mem.rawBytes p.pa p.len, s)
  | _ => do
    let s1 ← s.eccMeet p.pa p.len
    pure (s1.loadLine (coreOf c) p.pa p.len p.leaf.nc)

def State.loadParts (s : State) (c : Nat) : List Part → Run (List Byte × State)
  | [] => .ok ([], s)
  | p :: ps => do
    let (b, s1) ← s.loadPart c p
    let (bs, s2) ← s1.loadParts c ps
    pure (b ++ bs, s2)

/-- The parts of a load as its own buffered stores meet them (R29): by line, but a device access whole; none in tensor SRAM,
whose stores do not wait. -/
def bufferParts (ps : List Part) : List (Nat × Nat) :=
  match ps with
  | [p] => match regionOf p.pa with
    | .device _ => [(p.pa, p.len)]
    | .sram _ _ => []
    | _ => (splitLines ps).map (fun q => (q.pa, q.len))
  | _ => (splitLines ps).map (fun q => (q.pa, q.len))

/-- A checked load of `n` bytes at `ea` (R29, R104 to R107). -/
def State.load (s : State) (c ea n : Nat) (use : Use) : Run (Nat × State) := do
  let (ps, s1) ← s.checkAccess c ea n use
  s1.sramGate c ps
  match ← s1.forward c false (bufferParts ps) with
  | some bs => pure (leNat bs, s1)
  | none => do
    let (bs, s2) ← s1.loadParts c (splitLines ps)
    pure (leNat bs, s2)

/-- A store enters the core's FIFO buffer, line by line (R29, R30). -/
def State.buffer (s : State) (c : Nat) (more : Bool) (ps : List Part) (bs : List Byte) : State :=
  match ps with
  | [] => s
  | p :: rest =>
    (s.modCore (coreOf c) (fun k => { k with sb := k.sb ++ [⟨c, false, p.pa, bs.take p.len, p.leaf.nc, more, (s.ctx c).asid.toNat⟩] })).buffer c true
      rest (bs.drop p.len)

/-- A checked store (R104 to R107): tensor SRAM is reached at once, behind the drained buffer. -/
def State.store (s : State) (c ea : Nat) (bs : List Byte) : Run State := do
  let (ps, s1) ← s.checkAccess c ea bs.length .write
  s1.sramGate c ps
  match ps with
  | p :: _ =>
    if isSram p.pa then
      let s2 := s1.drainAll (coreOf c)
      pure { s2 with mem := s2.mem.rawPut p.pa bs }
    else pure (s1.buffer c false (splitLines ps) bs)
  | [] => pure s1

/-- The lowest of the `k` lanes, `w` bytes each, of an access at `ea` whose own bytes meet the condition `code` of R106; lane 0 for
a condition that the access meets only as a whole (R57; DEDUCED, log 71). -/
def State.lowestLane (s : State) (c ea w k : Nat) (use : Use) (code : Nat) : Nat :=
  ((List.range k).find? (fun i => match s.checkAccess c ((ea + w * i) % 2 ^ 64) w use with
    | .error (.cause code' _ _) => code' == code
    | _ => false)).getD 0
/-- Bytes of an access before the part at `pa`. -/
def offsetOf (pa : Nat) : List Part → Nat
  | [] => 0
  | p :: ps => if p.pa = pa then 0 else p.len + offsetOf pa ps
/-- A cause of an access to the lanes of a y register names the lowest lane at fault (R20, R57). -/
def State.laneErr {α : Type} (s : State) (c ea w k : Nat) (use : Use) : Run α → Run α
  | .error (.cause code faddr info) => .error (.elem code faddr info (s.lowestLane c ea w k use code))
  | .error (.wide code faddr info) => match s.checkAccess c ea (w * k) use with
    | .ok (ps, _) => .error (.elem code faddr info (offsetOf faddr (splitLines ps) / w))
    | .error _ => .error (.wide code faddr info)
  | r => r
/-- The checks of R106 for eight lanes of four bytes, tested before the pipes. -/
def preLanes (a i : Nat) (use : Use) (s : State) (c : Nat) : Run Unit :=
  s.laneErr c (s.eaOf c a i 32) 4 8 use ((s.checkAccess c (s.eaOf c a i 32) 32 use).map (fun _ => ()))

/-- The checks of R106 as conditions tested before the pipes (R117). -/
def preAccess (a i scale n : Nat) (use : Use) (s : State) (c : Nat) : Run Unit :=
  (s.checkAccess c (s.eaOf c a i scale) n use).map (fun _ => ())

/-- A load into an x field. -/
def loadX (maj x size : Nat) (ext : Nat → W64) (t : Imm6) : State → Host.Outcome State Fault Refusal :=
  weave maj x t.g t.d t.a t.i (preAccess t.a t.i size size .read) (fun c s => do
    let (v, s1) ← s.load c (s.eaOf c t.a t.i size) size .read
    pure (s1.dst c t.d (ext v)))

/-- A store from an x field. -/
def storeX (maj x size : Nat) (t : Imm6) : State → Host.Outcome State Fault Refusal :=
  weave maj x t.g t.d t.a t.i (preAccess t.a t.i size size .write) (fun c s =>
    let r := s.src c t.d
    r.2.store c (s.eaOf c t.a t.i size) (leBytes size r.1.toNat))

/-- LD.B (R104). -/
def execLdB (t : Imm6) : State → Host.Outcome State Fault Refusal := loadX 0x28 0 1 (sx 8) t

/-- LD.H (R104). -/
def execLdH (t : Imm6) : State → Host.Outcome State Fault Refusal := loadX 0x28 1 2 (sx 16) t

/-- LD.W (R104). -/
def execLdW (t : Imm6) : State → Host.Outcome State Fault Refusal := loadX 0x28 2 4 (sx 32) t

/-- LD.D (R104). -/
def execLdD (t : Imm6) : State → Host.Outcome State Fault Refusal := loadX 0x28 3 8 (sx 64) t

/-- LDU.B (R104). -/
def execLduB (t : Imm6) : State → Host.Outcome State Fault Refusal := loadX 0x29 0 1 (BitVec.ofNat 64) t

/-- LDU.H (R104). -/
def execLduH (t : Imm6) : State → Host.Outcome State Fault Refusal := loadX 0x29 1 2 (BitVec.ofNat 64) t

/-- LDU.W (R104). -/
def execLduW (t : Imm6) : State → Host.Outcome State Fault Refusal := loadX 0x29 2 4 (BitVec.ofNat 64) t

/-- ST.B (R104). -/
def execStB (t : Imm6) : State → Host.Outcome State Fault Refusal := storeX 0x2A 0 1 t

/-- ST.H (R104). -/
def execStH (t : Imm6) : State → Host.Outcome State Fault Refusal := storeX 0x2A 1 2 t

/-- ST.W (R104). -/
def execStW (t : Imm6) : State → Host.Outcome State Fault Refusal := storeX 0x2A 2 4 t

/-- ST.D (R104). -/
def execStD (t : Imm6) : State → Host.Outcome State Fault Refusal := storeX 0x2A 3 8 t

/-- LDY (R104). -/
def execLdy (t : Imm6) : State → Host.Outcome State Fault Refusal :=
  weave 0x2B 0 t.g t.d t.a t.i (preLanes t.a t.i .read) (fun c s => do
    let ea := s.eaOf c t.a t.i 32
    let (v, s1) ← s.laneErr c ea 4 8 .read (s.load c ea 32 .read)
    pure (s1.modCtx c (fun k => k.setY t.d (BitVec.ofNat 256 v))))

/-- STY (R104). -/
def execSty (t : Imm6) : State → Host.Outcome State Fault Refusal :=
  weave 0x2B 1 t.g t.d t.a t.i (preLanes t.a t.i .write) (fun c s =>
    let ea := s.eaOf c t.a t.i 32
    s.laneErr c ea 4 8 .write (s.store c ea (leBytes 32 ((s.ctx c).y t.d).toNat)))

/-- LDYB: one word to every lane (R104). -/
def execLdyb (t : Imm6) : State → Host.Outcome State Fault Refusal :=
  weave 0x2B 2 t.g t.d t.a t.i (preAccess t.a t.i 4 4 .read) (fun c s => do
    let (v, s1) ← s.load c (s.eaOf c t.a t.i 4) 4 .read
    pure (s1.modCtx c (fun k => k.setY t.d (BitVec.ofNat 256 (ofLanes 32 (List.replicate 8 v))))))

end Sys2Proof.Machine
end

