-- ==== Sys2Proof/Machine/Atomics.lean ====
section
/-! DEFINITION. Majors 0x2C to 0x35 and LDYF: full/empty forms (R298), atomics (R297), fences (R296), cache operations
(R300), the decoding load (R299) and local memory (R132, R301). -/

namespace Sys2Proof.Machine

/-- Rows of R297 and R298 before the target: row 1 of R106, the alignment, then rows 2 to 6. -/
def State.checkAligned (s : State) (c ea n align : Nat) (use : Use) : Run (List Part × State) := do
  need (canonical ea && canonical ((ea + n - 1) % 2 ^ 64)) cTranslation ea 0
  need (ea % align == 0) cAtomic ea 0
  s.checkAccess c ea n use

/-- Whether atomics of operation `op` reach a location: HBM and tensor SRAM take all, host memory AADD (0), ASWP (4)
and ACAS (5) (R297). -/
def atomicTarget (pa op : Nat) : Bool :=
  match regionOf pa with
  | .hbm => true
  | .sram _ _ => true
  | .host => op == 0 || op == 4 || op == 5
  | _ => false

/-- The value an atomic stores, if it stores one (R297); operations numbered as AOP of R346. -/
def atomicNew (op : Nat) (old b d : W64) : Option W64 :=
  match op with
  | 0 => some (old + b)
  | 1 => some (old &&& b)
  | 2 => some (old ||| b)
  | 3 => some (old ^^^ b)
  | 4 => some b
  | 5 => if old = d then some b else none
  | 6 => some (if b.sle old then old else b)
  | _ => some (if old.sle b then old else b)

/-- A checked atomic's first part, its target tested (R297). -/
def State.checkAtomic (s : State) (c ea op : Nat) : Run (List Part × State) := do
  let r ← s.checkAligned c ea 8 8 .both
  need (r.1.all (fun p => atomicTarget p.pa op)) cAtomic ea 0
  pure r

/-- An atomic performs at the home, behind the drained buffer; it is a release and an acquire (R290, R297). -/
def State.atomic (s : State) (c : Nat) (p : Part) (op : Nat) (b d : W64) : W64 × State :=
  let s1 := (s.drainAll (coreOf c)).eccCorrect p.pa 8
  let old := BitVec.ofNat 64 (leNat (s1.mem.bytes p.pa 8))
  let s2 := match atomicNew op old b d with
    | some v => { s1 with mem := s1.mem.putBytes (!p.leaf.nc) p.pa (leBytes 8 v.toNat) }
    | none => s1
  (old, s2.acquire (coreOf c))

/-- An atomic form. -/
def amo (maj x op : Nat) (t : Tri) : State → Host.Outcome State Fault Refusal :=
  weave maj x t.g t.d t.a t.b
    (fun s c => (s.checkAtomic c ((s.ctx c).x t.a).toNat op).map (fun _ => ()))
    (fun c s => do
      let ea := ((s.ctx c).x t.a).toNat
      let (ps, s1) ← s.checkAtomic c ea op
      s1.sramGate c ps
      match ps with
      | p :: _ =>
        s1.eccRead p.pa 8
        let rb := s1.src c t.b
        let r := rb.2.atomic c p op rb.1 ((s1.ctx c).x t.d)
        pure (r.2.dst c t.d r.1)
      | [] => pure s1)

/-- AADD (R297). -/
def execAadd (t : Tri) : State → Host.Outcome State Fault Refusal := amo 0x2E 0 0 t

/-- AAND (R297). -/
def execAand (t : Tri) : State → Host.Outcome State Fault Refusal := amo 0x2E 1 1 t

/-- AOR (R297). -/
def execAor (t : Tri) : State → Host.Outcome State Fault Refusal := amo 0x2E 2 2 t

/-- AXOR (R297). -/
def execAxor (t : Tri) : State → Host.Outcome State Fault Refusal := amo 0x2E 3 3 t

/-- ASWP (R297). -/
def execAswp (t : Tri) : State → Host.Outcome State Fault Refusal := amo 0x2F 0 4 t

/-- ACAS: D is the comparand (R297). -/
def execAcas (t : Tri) : State → Host.Outcome State Fault Refusal := amo 0x2F 1 5 t

/-- AMAX (R297). -/
def execAmax (t : Tri) : State → Host.Outcome State Fault Refusal := amo 0x2F 2 6 t

/-- AMIN (R297). -/
def execAmin (t : Tri) : State → Host.Outcome State Fault Refusal := amo 0x2F 3 7 t

/-! ### Full/empty forms -/

/-- A checked full/empty access: every location carries the bits (R292, R298). `at_` is the address reported. -/
def State.checkFullEmpty (s : State) (c at_ ea n align : Nat) (use : Use) : Run (List Part × State) := do
  let r ← s.checkAligned c ea n align use
  need (r.1.all (fun p => s.hasFullBits p.pa)) cAtomic at_ 0
  pure r

/-- Every word of the parts is full. -/
def State.allFull (s : State) (ps : List Part) : Bool :=
  ps.all (fun p => (List.range (wordsTouched p.pa p.len)).all (fun i => s.mem.full (p.pa + 4 * i)))
/-- Mark every word of the parts. -/
def State.mark (s : State) (full : Bool) (ps : List Part) : State :=
  ps.foldl (fun t p =>
    { t with mem := if full then t.mem.setFull p.pa (wordsTouched p.pa p.len) else t.mem.setEmpty p.pa (wordsTouched p.pa p.len) }) s

/-- LDS and LDSE (R298): an acquire at system scope. -/
def loadFull (x size : Nat) (take : Bool) (t : Imm6) : State → Host.Outcome State Fault Refusal :=
  weave 0x2C x t.g t.d t.a t.i
    (fun s c => (s.checkFullEmpty c (s.eaOf c t.a t.i size) (s.eaOf c t.a t.i size) size size .read).map (fun _ => ()))
    (fun c s => do
      let ea := s.eaOf c t.a t.i size
      let (ps, s1) ← s.checkFullEmpty c ea ea size size .read
      s1.sramGate c ps
      let s2 := s1.drainAll (coreOf c)
      if s2.allFull ps then
        ps.forM (fun p => s2.eccRead p.pa p.len)
        let s2 := ps.foldl (fun u p => u.eccCorrect p.pa p.len) s2
        let v := leNat (ps.flatMap (fun p => s2.mem.bytes p.pa p.len))
        let s3 := if take then s2.mark false ps else s2
        pure ((s3.acquire (coreOf c)).dst c t.d (sx (8 * size) v))
      else waitFor .fill)

/-- LDS.W (R298). -/
def execLdsW (t : Imm6) : State → Host.Outcome State Fault Refusal := loadFull 0 4 false t

/-- LDS.D (R298). -/
def execLdsD (t : Imm6) : State → Host.Outcome State Fault Refusal := loadFull 1 8 false t

/-- LDSE.W (R298). -/
def execLdseW (t : Imm6) : State → Host.Outcome State Fault Refusal := loadFull 2 4 true t

/-- LDSE.D (R298). -/
def execLdseD (t : Imm6) : State → Host.Outcome State Fault Refusal := loadFull 3 8 true t

/-- STF (R298): a release at system scope. -/
def storeFull (x size : Nat) (t : Imm6) : State → Host.Outcome State Fault Refusal :=
  weave 0x2D x t.g t.d t.a t.i
    (fun s c => (s.checkFullEmpty c (s.eaOf c t.a t.i size) (s.eaOf c t.a t.i size) size size .write).map (fun _ => ()))
    (fun c s => do
      let ea := s.eaOf c t.a t.i size
      let (ps, s1) ← s.checkFullEmpty c ea ea size size .write
      s1.sramGate c ps
      match ps with
      | p :: _ =>
        let r := s1.src c t.d
        let s2 := r.2.drainAll (coreOf c)
        let s3 := { s2 with mem := s2.mem.putBytes (!p.leaf.nc) p.pa (leBytes size r.1.toNat) }
        pure ((s3.mark true ps).dropLine (coreOf c) p.pa)
      | [] => pure s1)

/-- STF.W (R298). -/
def execStfW (t : Imm6) : State → Host.Outcome State Fault Refusal := storeFull 0 4 t

/-- STF.D (R298). -/
def execStfD (t : Imm6) : State → Host.Outcome State Fault Refusal := storeFull 1 8 t

/-- The line that holds an address. -/
def lineBase (ea : Nat) : Nat := ea / 64 * 64

/-- SETE: the sixteen words of the line at ea become empty (R298). -/
def execSete (t : AImm) : State → Host.Outcome State Fault Refusal :=
  weave 0x2D 2 t.g 0 t.a t.i
    (fun s c => (s.checkFullEmpty c (s.eaOf c t.a t.i 64) (lineBase (s.eaOf c t.a t.i 64)) 64 64 .write).map (fun _ => ()))
    (fun c s => do
      let ea := s.eaOf c t.a t.i 64
      let (ps, s1) ← s.checkFullEmpty c ea (lineBase ea) 64 64 .write
      s1.sramGate c ps
      pure ((s1.drainAll (coreOf c)).mark false ps))

/-! ### Fences (R296) -/

def execFenceAcq (t : UnB) : State → Host.Outcome State Fault Refusal :=
  weave 0x30 0 t.g 0 0 t.b noPre (fun c s => .ok (if t.b = 0 then s else s.acquire (coreOf c)))

/-- FENCE.REL drains the core's store buffer (R296). -/
def execFenceRel (t : UnB) : State → Host.Outcome State Fault Refusal :=
  weave 0x30 1 t.g 0 0 t.b noPre (fun c s => .ok (if t.b = 0 then s else s.drainAll (coreOf c)))

/-- FENCE.SC does both (R296). -/
def execFenceSc (t : UnB) : State → Host.Outcome State Fault Refusal :=
  weave 0x30 2 t.g 0 0 t.b noPre (fun c s =>
    .ok (if t.b = 0 then s else (s.drainAll (coreOf c)).acquire (coreOf c)))

/-- TFENCE drains; scope 0 acts as scope 1 (R294, R296). -/
def execTfence (t : UnB) : State → Host.Outcome State Fault Refusal :=
  weave 0x30 3 t.g 0 0 t.b noPre (fun c s => .ok (s.drainAll (coreOf c)))

/-! ### Cache operations (R300) -/

/-- The check of CFLUSH and CINV on their line. -/
def State.checkLine (s : State) (c ea : Nat) : Run (List Part × State) := s.checkAccess c (lineBase ea) 64 .both

/-- The write-back of CFLUSH: at scopes 4 and 5 the line's dirty data reach HBM. -/
def State.flushLine (s : State) (c scope pa : Nat) : State :=
  let s1 := s.drainAll (coreOf c)
  if 4 ≤ scope ∧ pa < hbmEnd then { s1 with mem := s1.mem.writeBack pa 64 } else s1

/-- CFLUSH (R300). -/
def execCflush (t : Imm6) : State → Host.Outcome State Fault Refusal :=
  weave 0x31 0 t.g t.d t.a t.i (fun s c => (s.checkLine c (s.eaOf c t.a t.i 64)).map (fun _ => ())) (fun c s => do
    let (ps, s1) ← s.checkLine c (s.eaOf c t.a t.i 64)
    s1.portGate c ps
    pure (ps.foldl (fun u p => u.flushLine c t.d p.pa) s1))

/-- CINV: as CFLUSH, then the issuing core's copy and its fetched syllables of the line go (R300). -/
def execCinv (t : Imm6) : State → Host.Outcome State Fault Refusal :=
  weave 0x31 1 t.g t.d t.a t.i (fun s c => (s.checkLine c (s.eaOf c t.a t.i 64)).map (fun _ => ())) (fun c s => do
    let (ps, s1) ← s.checkLine c (s.eaOf c t.a t.i 64)
    s1.portGate c ps
    pure (ps.foldl (fun u p =>
      ((u.flushLine c t.d p.pa).dropLine (coreOf c) p.pa).modCore (coreOf c) (fun k =>
        { k with fetched := terase k.fetched (lineOf p.pa) })) s1))

/-- CPREF: fills the line where that is possible, and raises nothing (R300); an uncorrectable error that its walk or its fill meets ends
the launch as any access's does (R269; DESIGN CHOICE, log 81). -/
def execCpref (t : Imm6) : State → Host.Outcome State Fault Refusal :=
  weave 0x31 2 t.g t.d t.a t.i noPre (fun c s =>
    let ea := lineBase (s.eaOf c t.a t.i 64)
    if !canonical ea then .ok s
    else match s.missError (coreOf c) (s.ctx c).asid.toNat ea, s.translate (coreOf c) (s.ctx c).asid.toNat ea with
      | some at_, _ => .error (.wide cEcc at_ (stackOf at_))
      | none, some (l, s1) =>
        if l.allows .read (!(s.ctx c).priv) && !l.uncached then do
          let s2 ← s1.eccMeet (l.phys ea) 64
          pure (if t.d = 0 then (s2.loadLine (coreOf c) (l.phys ea) 64 false).2 else s2)
        else .ok s
      | none, none => .ok s)

/-! ### Decoding load (R299) -/

/-- Where a block-scaled typed page keeps its scale bytes (R308): size of the scale area, and the scale byte's page
offset for an element at data offset `o`. -/
def geoSize (geo : Nat) : Nat := 16 * 2 ^ geo
def scaleArea (l : Leaf) : Nat := l.size * 8 / (fmtWidth l.fmt * geoSize l.geo)
def scaleOffset (l : Leaf) (o : Nat) : Nat := l.size - scaleArea l + o * 8 / fmtWidth l.fmt / geoSize l.geo

/-- What R299 and R308 ask of the page of a typed LDYF. -/
def State.ldyfPage (s : State) (l : Leaf) (ea : Nat) : Run Unit := do
  need (l.fmt != 0x04 && l.fmt != 0x08 && l.fmt != 0x13) cAttr ea 0
  need (l.tbl == 0 || tblValid (s.compander l.tbl)) cAttr ea 0
  need (l.geo == 3 || decide (ea % 2 ^ 57 - l.va < l.size - scaleArea l)) cAttr ea 0

/-- The checked part of a typed LDYF: rows 1 to 3 for ea0, the page, then rows 4 to 6 for the aligned access. -/
def State.ldyfPart (s : State) (c ea0 : Nat) : Run (Part × State) := do
  let (ps, s1) ← s.checkPages c ea0 1 .read
  match ps with
  | p :: _ =>
    let size := fmtWidth p.leaf.fmt
    let ea := ea0 / size * size
    if p.leaf.typed then do
      s.ldyfPage p.leaf ea
      let q : Part := ⟨p.leaf.phys ea, size, p.leaf⟩
      s1.checkRest c ea [q]
      pure (q, s1)
    else pure (p, s1)
  | [] => illegal

/-- A cause of a typed LDYF, whose eight elements lie in one line, names its lane 0 (R57; DEDUCED, log 71). -/
def laneZero {α : Type} : Run α → Run α
  | .error (.cause code faddr info) => .error (.elem code faddr info 0)
  | .error (.wide code faddr info) => .error (.elem code faddr info 0)
  | r => r
/-- Checks of LDYF that need no popped value; one that has read its elements has passed them. -/
def State.ldyfPre (s : State) (c ea0 : Nat) : Run Unit := do
  if (s.ctx c).elems.isSome then return
  let (p, _) ← laneZero (s.ldyfPart c ea0)
  let ea := ea0 / 32 * 32
  if p.leaf.typed then pure () else s.laneErr c ea 4 8 .read ((s.checkAccess c ea 32 .read).map (fun _ => ()))

/-- Bytes of a checked part, with forwarding. -/
def State.loadWhole (s : State) (c : Nat) (p : Part) : Run (List Byte × State) := do
  match ← s.forward c false (bufferParts [p]) with
  | some bs => pure (bs, s)
  | none => s.loadParts c (splitLines [p])
/-- The elements of a typed LDYF, read by their own access. -/
def State.ldyfElems (s : State) (c ea0 : Nat) : Run (Part × Nat × State) := do
  let (p, s1) ← s.ldyfPart c ea0
  s1.sramGate c [p]
  let (bs, s2) ← s1.loadWhole c p
  pure (p, leNat bs, s2)
/-- The scale byte of a block, read by an access of its own, which stalls on a watermark as any other, takes its own turn at a weave
port, after that of the elements (DESIGN CHOICE, log 84), and meets row 5 of R106 there with FADDR = ea (R260, R299, R308, R318). -/
def State.loadScale (s : State) (c : Nat) (l : Leaf) (ea : Nat) : Run (Nat × State) := do
  let q : Part := ⟨l.pa + scaleOffset l (l.phys ea - l.pa), 1, l⟩
  match regionOf q.pa with
  | .sram b o => do
    s.sramStall b o 1
    s.portWait c b
    s.mortiseCheck (s.ctx c).asid.toNat b o 1 ea
  | _ => pure ()
  let (bs, s1) ← s.loadWhole c q
  pure (leNat bs, s1)
/-- The eight elements whose codes are `v`, decoded into lanes (R299). -/
def State.ldyfEnd (s : State) (c d ea0 : Nat) (l : Leaf) (v : Nat) : Run State := do
  let size := fmtWidth l.fmt
  let (e, s1) ← (if l.geo == 3 then pure (127, s) else s.loadScale c l (ea0 / size * size))
  let r := mapFlags (dequant (s.compander l.tbl) l.tbl l.fmt e) (lanesOf size 8 v)
  pure (s1.modCtx c (fun k => (k.setY d (BitVec.ofNat 256 (ofLanes 32 r.1))).orFlags r.2))
/-- Whether the page of a LDYF is typed. -/
def State.ldyfTyped (s : State) (c ea0 : Nat) : Run Bool := do
  let (p, _) ← s.ldyfPart c ea0
  pure p.leaf.typed

/-- LDYF's effect (R299); on an untyped page it acts as LDY on the aligned window of ea0. The turn of a weave port that its elements take
is none for its scale byte (R260), but both meet their conditions at once in a group that its pipes hold up (R117). -/
def State.ldyfBody (s : State) (c d ea0 : Nat) : Run State := do
  match (s.ctx c).elems with
  | some e => laneZero (s.ldyfEnd c d ea0 e.1 e.2)
  | none =>
    if ← laneZero (s.ldyfTyped c ea0) then do
      let (p, v, s1) ← laneZero (s.ldyfElems c ea0)
      let s2 := if (s.ctx c).wait.isSome then s1 else s1.modCtx c (fun x => { x with granted := false })
      laneZero (s2.ldyfEnd c d ea0 p.leaf v)
    else do
      let ea := ea0 / 32 * 32
      let (v, s1) ← s.laneErr c ea 4 8 .read (s.load c ea 32 .read)
      pure (s1.modCtx c (fun k => k.setY d (BitVec.ofNat 256 v)))
/-- A LDYF that waits for its scale byte keeps the elements it has read (R299). -/
def State.keepElems (s u : State) (c ea0 : Nat) : State :=
  match (s.ctx c).elems, s.ldyfElems c ea0 with
  | none, .ok (p, v, _) => if p.leaf.typed then u.modCtx c (fun x => { x with elems := some (p.leaf, v) }) else u
  | _, _ => u
/-- LDYF (R299). -/
def execLdyf (t : Imm6) (s : State) : Host.Outcome State Fault Refusal :=
  match weave 0x2B 3 t.g t.d t.a t.i (fun u c => u.ldyfPre c (u.eaOf c t.a t.i 4)) (fun c u => u.ldyfBody c t.d (u.eaOf c t.a t.i 4)) s with
  | .next u => match s.ctl.cur with
    | .ctx c => .next (if u.ctl.verdict = .waiting then s.keepElems u c (s.eaOf c t.a t.i 4) else u)
    | _ => .next u
  | r => r

/-! ### Local memory (R132, R301) -/

/-- Core (within the cluster) and offset that a local address names (R132). -/
def localMap (mode own la : Nat) : Nat × Nat :=
  match mode with
  | 0 => (own, la % 2 ^ 17)
  | 1 => (fld la 2 3, fld la 5 15 * 4 + la % 4)
  | 2 => (fld la 6 3, fld la 9 11 * 64 + la % 64)
  | _ => (fld la 17 3, la % 2 ^ 17)

/-- Index of a byte of a cluster's local memories in the table of all local memories. -/
def localIndex (cl mode own la : Nat) : Nat :=
  let m := localMap mode own la
  (8 * cl + m.1) * Config.localBytes + m.2

/-- LOCAL_RANGE of R301. -/
def State.localCheck (s : State) (c mode size la : Nat) : Run Unit :=
  need (decide (la < (if mode = 0 then 2 ^ 17 else 2 ^ 20)) && la % size == 0 && (mode == 0 || s.clx (s.ctx c)))
    cLocal la 0

/-- The parts of a local access: one, but two words under .WORD. -/
def localParts (cl mode own la size : Nat) : List (Nat × Nat) :=
  if mode = 1 ∧ size = 8 then [(localIndex cl mode own la, 4), (localIndex cl mode own (la + 4), 4)]
  else [(localIndex cl mode own la, size)]

/-- Watermark stall on a cluster channel, by mode 0b11 addresses (R317, R318). -/
def State.localStall (s : State) (c : Nat) (ps : List (Nat × Nat)) : Run Unit :=
  let cl := clusterOf c
  if ps.any (fun p => wmStalls (s.cluster cl).wm (p.1 - 8 * cl * Config.localBytes) p.2) then waitFor .watermark else .ok ()

/-- Bytes of local memory as a context loads them, with forwarding by local address (R29, R301). -/
def State.loadLocal (s : State) (c : Nat) (ps : List (Nat × Nat)) : Run (List Byte) := do
  match ← s.forward c true ps with
  | some bs => pure bs
  | none => pure (ps.flatMap (fun p => s.mem.local_.readBytes p.1 p.2))

/-- Local stores enter the core's buffer (R301). -/
def State.bufferLocal (s : State) (c : Nat) (more : Bool) (bs : List Byte) : List (Nat × Nat) → State
  | [] => s
  | p :: ps =>
    (s.modCore (coreOf c) (fun k => { k with sb := k.sb ++ [⟨c, true, p.1, bs.take p.2, false, more, (s.ctx c).asid.toNat⟩] })).bufferLocal c true
      (bs.drop p.2) ps

/-- A local load. -/
def loadLocalForm (maj size : Nat) (t : Local) : State → Host.Outcome State Fault Refusal :=
  weave maj t.m t.g t.d t.a t.i (fun s c => s.localCheck c t.m size (s.eaOf c t.a t.i size)) (fun c s => do
    let ps := localParts (clusterOf c) t.m (coreOf c % 8) (s.eaOf c t.a t.i size) size
    s.localStall c ps
    let bs ← s.loadLocal c ps
    pure (s.dst c t.d (sx (8 * size) (leNat bs))))

/-- A local store. -/
def storeLocalForm (maj size : Nat) (t : Local) : State → Host.Outcome State Fault Refusal :=
  weave maj t.m t.g t.d t.a t.i (fun s c => s.localCheck c t.m size (s.eaOf c t.a t.i size)) (fun c s => do
    let ps := localParts (clusterOf c) t.m (coreOf c % 8) (s.eaOf c t.a t.i size) size
    s.localStall c ps
    let r := s.src c t.d
    pure (r.2.bufferLocal c false (leBytes size r.1.toNat) ps))

/-- LDL (R301). -/
def execLdl (t : Local) : State → Host.Outcome State Fault Refusal := loadLocalForm 0x32 4 t

/-- STL (R301). -/
def execStl (t : Local) : State → Host.Outcome State Fault Refusal := storeLocalForm 0x33 4 t

/-- LDLD (R301). -/
def execLdld (t : Local) : State → Host.Outcome State Fault Refusal := loadLocalForm 0x34 8 t

/-- STLD (R301). -/
def execStld (t : Local) : State → Host.Outcome State Fault Refusal := storeLocalForm 0x35 8 t

end Sys2Proof.Machine
end

