-- ==== Sys2Proof/Machine/Fetch.lean ====
section
/-! DEFINITION. Instruction fetch of the weave plane (R14, R27, R32, R70, R71, R74) and the legality of weave groups
(R23, R24, R143, R365), on encoded words. -/

namespace Sys2Proof.Machine

/-- Fields of a word. -/
def majOf (w : Nat) : Nat := fld w 24 7
def grdOf (w : Nat) : Nat := fld w 20 4
def dOf (w : Nat) : Nat := fld w 14 6
def aOf (w : Nat) : Nat := fld w 8 6
def bOf (w : Nat) : Nat := fld w 2 6
def xOf (w : Nat) : Nat := fld w 0 2
def sOf (w : Nat) : Bool := fld w 31 1 == 1
def isExt (w : Nat) : Bool := majOf w == 0x7F

/-- A segment header (R70). -/
structure Seg where
  hdr : Nat
  kind : Nat
  nsyl : Nat
  bodyLen : Nat
  next : Nat
  dict : Nat
  deriving DecidableEq, Repr

/-- Address of the first syllable (R71). -/
def Seg.body (g : Seg) : Nat := g.hdr + 0x20 + 8 * ((g.nsyl + 63) / 64)
def Seg.covers (g : Seg) (pc : Nat) : Bool := decide (g.body ≤ pc) && decide (pc < g.body + 4 * g.nsyl)
def Seg.last (g : Seg) : Nat := g.body + 4 * g.nsyl

/-- A header from its 32 bytes, if they obey R70. -/
def parseSeg (hdr : Nat) (bs : List Byte) : Option Seg :=
  let w0 := leNat (bs.take 8)
  let next := leNat ((bs.drop 8).take 8)
  let dict := leNat ((bs.drop 16).take 8)
  let kind := fld w0 62 2
  let nsyl := fld w0 32 16
  let len := fld w0 0 32
  if kind = 3 ∨ fld w0 48 14 ≠ 0 ∨ nsyl = 0 ∨ (kind ≠ 0 ∧ 2048 < nsyl) ∨ (kind ≠ 2 ∧ (len ≠ 4 * nsyl ∨ dict ≠ 0)) ∨
      next % 64 ≠ 0 ∨ dict % 8 ≠ 0 ∨ leNat ((bs.drop 24).take 8) ≠ 0 then none
  else some ⟨hdr, kind, nsyl, len, next, dict⟩

/-- A line of code as a core fetches it, with its physical address: a fetched line is kept until CINV or a new role
(R32). -/
def State.codeLine (s : State) (c va : Nat) : Option (Nat × List Byte × State) :=
  let x := s.ctx c
  if !canonical va then none
  else match s.translate (coreOf c) x.asid.toNat va with
    | none => none
    | some (l, t) =>
      if l.allows .fetch (!x.priv) then
        let pa := l.phys va
        some (pa, (tget (s.core (coreOf c)).fetched pa).getD (s.mem.bytes pa 64), t)
      else none

/-- `n` bytes of code within one line. -/
def State.codeBytes (s : State) (c va n : Nat) : Option (List Byte) :=
  (s.codeLine c (va / 64 * 64)).map (fun r => (r.2.1.drop (va % 64)).take n)

def State.segAt (s : State) (c hdr : Nat) : Option Seg := (s.codeBytes c hdr 32).bind (parseSeg hdr)

/-- The nearest header at or below `h` whose body covers `pc` (DEDUCED, log 8). -/
def State.findSeg (s : State) (c pc : Nat) : Nat → Nat → Option Seg
  | 0, _ => none
  | fuel + 1, h =>
    match s.segAt c h with
    | some g => if g.covers pc then some g else if h < 64 then none else s.findSeg c pc fuel (h - 64)
    | none => if h < 64 then none else s.findSeg c pc fuel (h - 64)

/-- Lines between a header and the last syllable it may cover. -/
def segSpan : Nat := 4226

/-- Bit of the executable bitmap (R71). -/
def State.execBit (s : State) (c : Nat) (g : Seg) (i : Nat) : Option Bool :=
  (s.codeBytes c (g.hdr + 0x20 + i / 8) 1).map (fun b => fld (leNat b) (i % 8) 1 == 1)

/-- Whether some syllable from index `i` on is executable. -/
def State.anyExec (s : State) (c : Nat) (g : Seg) : Nat → Nat → Bool
  | 0, _ => false
  | fuel + 1, i => if i < g.nsyl then (s.execBit c g i == some true) || s.anyExec c g fuel (i + 1) else false

/-- What the read of `n` bytes of code within one line meets: the errors of the walk and of the line (R269), a missing translation
or permission (R276), a mortise that is not open (R31, R106). -/
def State.codeMeet (s : State) (c va n : Nat) : Run State :=
  match s.missError (coreOf c) (s.ctx c).asid.toNat va, s.codeLine c (va / 64 * 64) with
  | some at_, _ => .error (.wide cEcc at_ (stackOf at_))
  | none, none => stop cTranslation va 0
  | none, some (pa, _, t) => do
    match regionOf pa with
    | .sram b o => t.mortiseCheck (s.ctx c).asid.toNat b (o + va % 64) n va
    | _ => pure ()
    if (tget (s.core (coreOf c)).fetched pa).isSome then pure t else t.eccMeet pa 64

/-- A syllable at a code address of a segment (R27, R276), with the segment's header and bitmap; a line of HBM is kept. -/
def State.fetchSyl (s : State) (c : Nat) (g : Seg) (va : Nat) : Run (Nat × State) := do
  let i := (va - g.body) / 4
  let t ← s.codeMeet c va 4
  let t ← t.codeMeet c (g.hdr + 0x20 + i / 8) 1
  let t ← t.codeMeet c g.hdr 32
  match s.execBit c g i, s.codeLine c (va / 64 * 64) with
  | some e, some (pa, bs, _) => do
    need e cFetch va 0
    pure (leNat ((bs.drop (va % 64)).take 4),
      if pa < hbmEnd then t.modCore (coreOf c) (fun k => { k with fetched := tset k.fetched pa bs }) else t)
  | _, _ => stop cTranslation va 0

/-- Whether a PC stands just past the last syllable of a segment without successor, where fetch fell through to it (R74). -/
def State.pastEnd (s : State) (c pc : Nat) : Bool :=
  decide (4 ≤ pc) && (match s.findSeg c (pc - 4) segSpan ((pc - 4) / 64 * 64) with
    | some g => pc == g.last && g.next == 0
    | none => false)

/-- The segment of a context's PC (R14, R73); past the end of a segment with NEXT = 0, where fetch falls through, there is none,
whether or not the page there translates (R74; DEDUCED, log 8). -/
def State.segOf (s : State) (c pc : Nat) : Run Seg := do
  if !canonical pc || ((s.codeLine c (pc / 64 * 64)).isNone && (s.missError (coreOf c) (s.ctx c).asid.toNat pc).isNone) then
    need (s.pastEnd c pc && !(s.ctx c).jumped) cTranslation pc 0
    stop cFetch pc 0
  let _ ← s.codeMeet c pc 4
  match s.findSeg c pc segSpan (pc / 64 * 64) with
  | none => stop cFetch pc 0
  | some g => do
    need (g.kind == 0) cFetch pc 0
    pure g

/-- The first syllable after a segment's end (R74); the end itself where there is none. Where NEXT names no header that can be read,
the context stands at NEXT + 0x20, and its fetch raises what it meets there (DEDUCED, log 8). -/
def State.afterSeg (s : State) (c : Nat) (g : Seg) (pc : Nat) : Nat :=
  if pc = g.last ∧ g.next ≠ 0 then
    match s.segAt c g.next with
    | some n => n.body
    | none => g.next + 0x20
  else pc

/-! ### Legality of groups -/

/-- Whether the majors and fields of a syllable of the weave plane are legal by themselves (R12, R23, R69, R116). -/
def sylLegalW (ext : Bool) (w : Nat) : Bool :=
  !isExt w && legalW (majOf w) (xOf w) (dOf w) (aOf w) (bOf w) && grdOf w != 8 && (!ext || takesExt (majOf w) (xOf w))

/-- Memory accesses in the sense of R23. -/
def isMemory (w : Nat) : Bool :=
  let m := majOf w
  let x := xOf w
  (decide (0x28 ≤ m) && decide (m ≤ 0x35)) || (m == 0x3D && x == 1) || m == 0x3E || m == 0x3F || m == 0x74 || m == 0x75 ||
    (m == 0x77 && x == 2) || (m == 0x79 && (x == 0 || x == 2)) || (m == 0x7A && x == 0)

/-- Forms that stand alone in their group (R142, R365). -/
def isAlone (w : Nat) : Bool := majOf w == 0x3B || majOf w == 0x7E

/-- Forms with which a group ends whatever follows (R23, R142, R365). -/
def endsGroup (w : Nat) : Bool := (decide (0x20 ≤ majOf w) && decide (majOf w ≤ 0x27)) || isAlone w

/-- What a field adds to the registers that a syllable touches: x and y registers and ports by index, predicates from
64. Index 0 and p0 count for nothing (R24). Cut-list and watermark registers are no registers of R24 here (R330 extends R11 alone; DESIGN
CHOICE, log 84). -/
def regIndex (k : FK) (i : Nat) : List Nat :=
  match k with
  | .x => if i = 0 then [] else [i]
  | .xo => if i = 0 then [] else [i]
  | .q => [i]
  | .y => [i]
  | .p => if i = 0 then [] else [64 + i]
  | _ => []

/-- What a weave syllable reads and writes (R24); a pop writes its port, as do QCLOSE and QDROP. -/
def readsW (w : Nat) : List Nat :=
  match sigW (majOf w) (xOf w) with
  | none => []
  | some g =>
    regIndex .p (grdOf w % 8) ++ regIndex g.a (aOf w) ++ regIndex g.b (bOf w) ++
      (if g.r || !g.w then regIndex g.d (dOf w) else [])
def writesW (w : Nat) : List Nat :=
  match sigW (majOf w) (xOf w) with
  | none => []
  | some g =>
    (if g.w then regIndex g.d (dOf w) else []) ++ (srcFields g (dOf w) (aOf w) (bOf w)).filter isQ ++
      (if majOf w == 0x39 && (xOf w == 2 || xOf w == 3) then [aOf w] else []) ++ (if majOf w == 0x21 then [1] else [])

/-- R24. -/
def independent (w v : Nat) : Bool :=
  (writesW w).all (fun i => !(readsW v).contains i && !(writesW v).contains i) &&
    (writesW v).all (fun i => !(readsW w).contains i)

/-- The group as a whole is legal (R23, R24, R142, R365); each syllable's own fields are checked as it executes. -/
def groupLegal : List Nat → Bool
  | [w] => !isExt w && sOf w
  | [w, v] =>
    !sOf w && sOf v && !isExt v &&
      (isExt w ||
        (!(isMemory w && isMemory v) && !endsGroup w && !isAlone v && independent w v))
  | _ => false

/-! ### Blocks of REPF (R143, R144) -/

/-- Majors a block may hold. -/
def blockMajor (w : Nat) : Bool :=
  let m := majOf w
  decide (m ≤ 0x12) || (decide (0x16 ≤ m) && decide (m ≤ 0x18)) || (decide (0x40 ≤ m) && decide (m ≤ 0x47)) || m == 0x7F

/-- Whether a field names a register. -/
def FK.isReg : FK → Bool
  | .x => true
  | .xo => true
  | .y => true
  | .p => true
  | .q => true
  | _ => false

/-- Replace a six-bit field. -/
def bump (w lo n : Nat) : Nat := w + n * 2 ^ lo

/-- The fields that FM strides, each raised by `n` (R144); a field that names no register stands as it is (DEDUCED, log 63). -/
def strideWord (fm n w : Nat) : Nat :=
  match sigW (majOf w) (xOf w) with
  | none => w
  | some g =>
    let w1 := if bitOf fm 2 && g.d.isReg then bump w 14 n else w
    let w2 := if bitOf fm 1 && g.a.isReg then bump w1 8 n else w1
    if bitOf fm 0 && g.b.isReg then bump w2 2 n else w2

/-- Whether every strided field stays an index that its form accepts, none of them a port. -/
def strideOk (fm n w : Nat) : Bool :=
  match sigW (majOf w) (xOf w) with
  | none => isExt w
  | some g =>
    let f (bit : Nat) (k : FK) (i : Nat) : Bool :=
      let j := if bitOf fm bit && k.isReg then i + n else i
      k.ok j && !(k.isReg && isQ j)
    f 2 g.d (dOf w) && f 1 g.a (aOf w) && f 0 g.b (bOf w)

/-- The syllable's own immediate as `immOk` takes it. -/
def rawImm (w : Nat) : Nat :=
  let m := majOf w
  if 0x08 ≤ m ∧ m ≤ 0x10 then fld w 0 8 else if m = 0x11 ∨ m = 0x12 then fld w 0 14 else bOf w

/-- Limits on immediates that an execution would meet (R85, R86, R91). -/
def immLegal (ext : Option Nat) (w : Nat) : Bool := immOk ext (majOf w) (xOf w) (rawImm w)

/-- The groups of a block: words up to each stop bit. -/
def splitGroups : List Nat → List Nat → List (List Nat)
  | [], [] => []
  | [], acc => [acc.reverse]
  | w :: ws, acc => if sOf w then (w :: acc).reverse :: splitGroups ws [] else splitGroups ws (w :: acc)

/-- A group of a block in one execution. -/
def blockGroupLegal (fm n : Nat) (ws : List Nat) : Bool :=
  ws.all (strideOk fm n) &&
  match ws.map (strideWord fm n) with
  | [w] => groupLegal [w] && sylLegalW false w && immLegal none w
  | [w, v] =>
    groupLegal [w, v] &&
      (if isExt w then sylLegalW true v && immLegal (some (fld w 0 24)) v
       else sylLegalW false w && immLegal none w && sylLegalW false v && immLegal none v)
  | _ => false

/-- The whole block for every execution (R143). A strided field leaves the index space within 63 steps, so executions
beyond the 64th repeat what was checked. -/
def blockLegal (fm str n : Nat) (ws : List Nat) : Bool :=
  ws.all blockMajor &&
  (match ws.getLast? with
    | some w => sOf w
    | none => false) &&
  (List.range (min n 63 + 1)).all (fun k => (splitGroups ws []).all (blockGroupLegal fm (k * str)))

/-! ### The next group of a context -/

/-- Whether a first syllable without a stop bit is illegal before the second is fetched. -/
def firstBad (w : Nat) : Bool := !isExt w && (!sylLegalW false w || !immLegal none w || endsGroup w)

/-- Fetch the group at `pc` (R23, R27): its syllables with their addresses, and the segment. -/
def State.fetchGroup (s : State) (c pc : Nat) : Run (List (Nat × Nat) × Seg × State) := do
  let g ← s.segOf c pc
  let (w, s1) ← s.fetchSyl c g pc
  if sOf w then pure ([(pc, w)], g, s1)
  else if firstBad w then illegal
  else
    let i := (pc + 4 - g.body) / 4
    if !s1.anyExec c g g.nsyl i then illegal
    else do
      let (v, s2) ← s1.fetchSyl c g (pc + 4)
      pure ([(pc, w), (pc + 4, v)], g, s2)

/-! ### The interlocks of a replay (R144) -/

/-- What the pending executions of a block read and write. -/
def Replay.touched (r : Replay) : List Nat :=
  (List.range (min (r.count - r.k) 63 + 1)).flatMap (fun j => r.words.flatMap (fun w =>
    let v := strideWord r.fm ((r.k + j) * r.stride) w
    readsW v ++ writesW v))
/-- Forms that may take a draw (R51). -/
def mayDraw (w : Nat) : Bool :=
  decide (0x40 ≤ majOf w) && decide (majOf w ≤ 0x47) || majOf w == 0x2A || majOf w == 0x2B || majOf w == 0x74
/-- A group that waits for the replay in progress: it touches a register or predicate that the replay touches, reads or writes
FLAGS or DRAWC by number, is REPF or DONE (R144), or would change the rounding mode or the draws of the executions still to come,
which end as though they had run before it (DEDUCED, log 63). -/
def groupWaits (x : Ctx) (r : Replay) (ws : List Nat) : Bool :=
  let n := (ws.foldl (fun (a : Option Nat × Nat) w =>
    if isExt w then (some (fld w 0 24), a.2) else (none, (match a.1 with
      | some e => e * 64
      | none => 0) + bOf w)) (none, 0)).2
  ws.any (fun w => !isExt w && ((readsW w ++ writesW w).any (fun i => r.touched.contains i) || majOf w == 0x3B ||
    (majOf w == 0x3C && xOf w == 0) ||
    (majOf w == 0x7E && ((xOf w == 1 && (n == 1 || n == 8)) || (xOf w == 2 && (n == 0 || n == 1 || n == 8)))) ||
    (x.rm == .sr && mayDraw w && r.words.any mayDraw)))
/-- Whether a context's next group waits for its replay. -/
def State.interlocked (s : State) (c : Nat) : Bool :=
  let x := s.ctx c
  match x.replay with
  | none => false
  | some r => match s.fetchGroup c x.pc.toNat with
    | .ok (ws, _, _) => groupWaits x r (ws.map (·.2))
    | .error _ => false

end Sys2Proof.Machine
end

