-- ==== Sys2Proof/Machine/CutList.lean ====
section
/-! DEFINITION. Cut lists (R304 to R309): the record, element addresses in half-bytes (an I4 element is one), the checks
of rows 1 to 5 of R311, counts (R316), fill values (R307), and how a page makes an element of its bytes (R306, R308). -/

namespace Sys2Proof.Machine

/-- A dimension record (R304). -/
structure Dim where
  extent : Nat
  box : Nat
  origin : Int
  stride : Int
  deriving DecidableEq, Repr

/-- A cut list's fields (R304); `reserved` says that a reserved field is not zero. -/
structure Cut where
  elt : Nat
  ndim : Nat
  mode : Nat
  red : Nat
  dir : Nat
  skew : Nat
  fill : Nat
  rm : Nat
  kvsel : Nat
  dsp : Nat
  lmode : Nat
  max_ : Nat
  mask : Nat
  base : Nat
  dbase : Nat
  dpitch : Nat
  bv : Bool
  bar : Nat
  kslot : Nat
  kpos : Nat
  dims : List Dim
  reserved : Bool
  deriving DecidableEq, Repr

/-- The 8-byte word at an offset of an image; bytes that the image lacks are 0 (R330). -/
def ClReg.word (r : ClReg) (off : Nat) : Nat := leNat ((r.bytes.drop off).take 8)

def ClReg.dim (r : ClReg) (d : Nat) : Dim :=
  let o := 48 + 24 * d
  ⟨fld (r.word o) 32 32, fld (r.word o) 0 32, toI 32 (fld (r.word (o + 8)) 32 32), toI 64 (r.word (o + 16))⟩

/-- The cut list that an image holds. -/
def ClReg.cut (r : ClReg) : Cut :=
  let w := r.word 0
  let n := fld w 52 4
  let dims := if n ≤ 8 then (List.range n).map r.dim else []
  { elt := fld w 56 8, ndim := n, mode := fld w 50 2, red := fld w 47 3, dir := fld w 46 1, skew := fld w 44 2
    fill := fld w 43 1, rm := fld w 40 3, kvsel := fld w 36 4, dsp := fld w 34 2, lmode := fld w 32 2
    max_ := fld w 30 2, mask := fld w 0 16, base := r.word 8, dbase := r.word 16, dpitch := fld (r.word 24) 32 32
    bv := bitOf (r.word 32) 63, bar := fld (r.word 32) 0 32, kslot := fld (r.word 40) 48 16
    kpos := fld (r.word 40) 0 32, dims := dims
    reserved := fld w 16 14 != 0 || fld (r.word 24) 0 32 != 0 || fld (r.word 32) 32 31 != 0 ||
      fld (r.word 40) 32 16 != 0 || (List.range (if n ≤ 8 then n else 0)).any (fun d => fld (r.word (56 + 24 * d)) 0 32 != 0) }

/-- Length of the image that a header calls for (R331). -/
def imageLength (w0 : Nat) : Nat := let n := fld w0 52 4; if 1 ≤ n ∧ n ≤ 8 then 48 + 24 * n else 48

/-- Element sizes of the two sides in half-bytes (R306, R309): a reduction writes 4-byte elements. -/
def Cut.tHalf (c : Cut) : Nat := if c.red ≠ 0 ∧ c.dir = 1 then 8 else fmtWidth c.elt / 4
def Cut.dHalf (c : Cut) : Nat := if c.mode ≠ 0 ∨ (c.red ≠ 0 ∧ c.dir = 0) then 8 else fmtWidth c.elt / 4

/-- Elements of the box, and their number in one run of dimension 0. -/
def Cut.count (c : Cut) : Nat := (c.dims.map (·.box)).foldl (· * ·) 1
/-- Coordinates of the element with logical index `i` (R305). -/
def coords : List Dim → Nat → List Nat
  | [], _ => []
  | d :: ds, i => i % d.box :: coords ds (i / d.box)
def Cut.coords (c : Cut) (i : Nat) : List Nat := Sys2Proof.Machine.coords c.dims i
def Cut.inBounds (c : Cut) (i : Nat) : Bool :=
  (c.dims.zip (c.coords i)).all (fun p => decide (0 ≤ p.1.origin + (p.2 : Int)) && decide (p.1.origin + (p.2 : Int) < p.1.extent))

/-- Stride of dimension `d` in half-bytes; I4 elements lie packed. -/
def Cut.stride2 (c : Cut) (d : Nat) (s : Int) : Int := if d = 0 ∧ c.tHalf = 1 then 1 else 2 * s
/-- Tensor-side address in half-bytes, modulo 2^65. -/
def Cut.ta2 (c : Cut) (base i : Nat) : Nat :=
  let terms := ((List.range c.dims.length).zip (c.dims.zip (c.coords i))).map (fun p =>
    c.stride2 p.1 p.2.1.stride * (p.2.1.origin + (p.2.2 : Int)))
  ((2 * (base : Int) + terms.foldl (· + ·) 0) % (2 ^ 65 : Nat)).toNat
def Cut.ta (c : Cut) (base i : Nat) : Nat := c.ta2 base i / 2

/-- Dense row pitch in half-bytes (R305). -/
def Cut.pitch2 (c : Cut) : Nat :=
  if c.dpitch ≠ 0 then 2 * c.dpitch else c.dHalf * ((c.dims.head?.map (·.box)).getD 0)
/-- Dense-side address in half-bytes before the skew. -/
def Cut.da2 (c : Cut) (i : Nat) : Nat :=
  let b0 := (c.dims.head?.map (·.box)).getD 1
  (2 * c.dbase + c.dHalf * (i % b0) + c.pitch2 * (i / b0)) % 2 ^ 65

/-- The skew of R305 on a byte address. -/
def skewAddr (skew a : Nat) : Nat :=
  match skew with
  | 1 => a - fld a 5 2 * 32 + (fld a 5 2 + fld a 7 2) % 4 * 32
  | 2 => a - fld a 5 2 * 32 + (fld a 5 2 + fld a 12 2) % 4 * 32
  | 3 => a - fld a 7 5 * 128 + (fld a 7 5 + fld a 12 5) % 32 * 128
  | _ => a

/-- Dense address of an element after the skew. -/
def Cut.da (c : Cut) (i : Nat) : Nat := skewAddr c.skew (c.da2 i / 2)
/-- Bytes that an element of so many half-bytes spans. -/
def spanOf (half : Nat) : Nat := max 1 (half / 2)
def insertDa (c : Cut) (i : Nat) : List Nat → List Nat
  | [] => [i]
  | j :: l => if c.da i < c.da j then i :: j :: l else j :: insertDa c i l
/-- The element that a linear copy writes `p`-th: its writes go in ascending address order (R318), which a skew parts from the logical
order. -/
def Cut.linAt (c : Cut) (p : Nat) : Nat :=
  if c.skew = 0 then p else ((List.range c.count).foldl (fun l i => insertDa c i l) []).getD p p
/-- Size of an element on the side that the copy writes, in half-bytes, and the word there in which it begins. -/
def Cut.wHalf (c : Cut) : Nat := if c.red ≠ 0 then 8 else if c.dir = 0 then c.dHalf else c.tHalf
def Cut.wordOf (c : Cut) (i : Nat) : Nat := (if c.dir = 0 then c.da i else c.ta c.base i) / 4
/-- Whether several elements may share a word of the side that the copy writes. -/
def Cut.narrow (c : Cut) : Bool := decide (c.wHalf < 8)
/-- The byte ranges that a linear copy's writes of elements `els` cover, the first `n` from `p` on where nothing parts the orders. -/
def Cut.written (c : Cut) (p n : Nat) (els : List Nat) : List (Nat × Nat) :=
  if c.skew = 0 ∧ c.narrow = false then [(c.da p, c.dHalf * n / 2)] else els.map (fun i => (c.da i, spanOf c.dHalf))

/-- Bytes that the copy counts (R316). -/
def Cut.counted (c : Cut) : Nat := c.count * c.wHalf / 2

/-- The benches that receive a load (R310). -/
def Cut.receivers (c : Cut) (b : Nat) : List Nat :=
  match c.max_ with
  | 1 => ((List.range 16).filter (bitOf c.mask)).map (fun k => b / 16 * 16 + k)
  | 2 => ((List.range 16).filter (bitOf c.mask)).map (fun k => 16 * k + b % 16)
  | _ => [b]

/-! ### Rows 1 to 5 of R311 -/

def validElt (f : Nat) : Bool := validFmt f || f == 0x13

/-- Row 1 but for the CPY kind. -/
def Cut.row1 (c : Cut) (bench : Bool) : Bool :=
  c.ndim == 0 || decide (8 < c.ndim) || c.reserved || c.mode == 3 || decide (4 < c.red) || c.dsp == 3 || c.max_ == 3 ||
    decide (4 < c.rm) || decide (8 < c.kvsel) || !validElt c.elt || (c.max_ == 0 && c.mask != 0) ||
    (c.red != 0 && (c.mode != 0 || c.elt != (if c.red = 2 then 0x12 else 0x10))) || (c.mode == 1 && c.dir == 1) ||
    (c.mode == 2 && c.dir == 0) || (c.mode != 0 && c.elt == 0x13) ||
    (if bench then c.dsp != 0 || (c.red != 0 && c.dir == 1) || (c.max_ != 0 && c.dir == 1)
     else c.dsp == 0 || c.kvsel != 0 || c.max_ != 0)

def Cut.row2 (c : Cut) : Bool := c.dims.any (fun d => d.extent == 0 || d.box == 0)

/-- Row 3; `base` is the tensor-side base with the arena. -/
def Cut.row3 (c : Cut) (base : Nat) : Bool :=
  let t := max 1 (c.tHalf / 2)
  let d := max 1 (c.dHalf / 2)
  base % t != 0 || c.dims.any (fun k => k.stride % (t : Int) != 0) || c.dbase % d != 0 || c.dpitch % d != 0 ||
    c.bar % 16 != 0 ||
    ((c.tHalf == 1 || c.dHalf == 1) && (match c.dims with
      | k :: _ => k.stride != 1 || k.origin % 2 != 0 || k.box % 2 != 0
      | [] => false))

/-- Row 4: the written side overlaps itself. -/
def Cut.row4 (c : Cut) : Bool :=
  if c.dir = 1 then
    let st := ((List.range c.dims.length).zip c.dims).map (fun p => ((c.stride2 p.1 p.2.stride).natAbs, p.2.extent))
    (match st with
      | s :: _ => decide (s.1 < c.tHalf)
      | [] => false) || (st.zip (st.drop 1)).any (fun p => decide (p.2.1 < p.1.1 * p.1.2))
  else c.dpitch != 0 && decide (2 * c.dpitch < c.dHalf * ((c.dims.head?.map (·.box)).getD 0))

/-- Range of a local address mode (R132). -/
def localRange (lmode : Nat) : Nat := if lmode = 0 then 2 ^ 17 else 2 ^ 20

/-- Row 5; `clx` is the launch's CLX on the weave plane. The range of BAR is tested under BV alone, as BAR is used under it alone (DESIGN
CHOICE, log 81). -/
def Cut.row5 (c : Cut) (bench clx : Bool) : Bool :=
  let b0 := (c.dims.head?.map (·.box)).getD 1
  let top2 := 2 * c.dbase + c.pitch2 * (c.count / b0 - 1) + c.dHalf * b0
  (if bench then decide (2 * Config.sramBytes < top2)
   else c.dsp == 2 && (decide (2 * localRange c.lmode < top2) || (c.lmode != 0 && !clx))) ||
  (c.bv && (if bench then decide (Config.sramBytes ≤ c.bar) else decide (2 ^ 20 ≤ c.bar) || !clx))

/-- The first of rows 1 to 5 that holds, 0 where none does. -/
def Cut.row (c : Cut) (kindBad bench clx : Bool) (base : Nat) : Nat :=
  if c.row1 bench || kindBad then 1
  else if c.row2 then 2
  else if c.row3 base then 3
  else if c.row4 then 4
  else if c.row5 bench clx then 5
  else 0

/-- The cause code of a row (R311). -/
def rowCode (row : Nat) (bench : Bool) : Nat :=
  match row with
  | 1 => cShape
  | 3 => cShapeAlign
  | 4 => cShapeOverlap
  | _ => if bench then cSram else cLocal
/-- INFO of a row: the SHAPE codes report it (R361). -/
def rowInfo (row : Nat) : Nat := if row ≤ 4 then row else 0

/-! ### What the CPY kinds require (R333) -/

inductive CpyKind where
  | box | mcast | red | lin (k : Nat)
  deriving DecidableEq, Repr

/-- Whether a kind's requirement fails; `cfg` is WMCFG of CPY.LIN's channel. -/
def Cut.kindBad (c : Cut) (kind : CpyKind) (bench : Bool) (cfg : W64) : Bool :=
  match kind with
  | .box => c.max_ != 0 || c.red != 0
  | .mcast => c.max_ == 0 || c.red != 0 || !bench
  | .red => c.red == 0 || c.max_ != 0
  | .lin _ =>
    let base := fld cfg.toNat 32 22
    let len := fld cfg.toNat 0 22
    let n := (c.dHalf * ((c.dims.head?.map (·.box)).getD 0)) / 2
    c.ndim != 1 || c.red != 0 || c.max_ != 0 || c.dir != 0 || !bitOf cfg.toNat 63 ||
      (if bench then c.dsp != 0 else c.dsp != 2 || c.lmode != 3) || decide (c.dbase < base) || decide (base + len < c.dbase + n)

/-- CL.CHK: the first row that holds for every kind (R332). -/
def Cut.check (c : Cut) (bench clx : Bool) (base : Nat) : Nat :=
  let anyKind := !c.kindBad .box bench 0 || !c.kindBad .mcast bench 0 || !c.kindBad .red bench 0
  c.row (!anyKind) bench clx base

/-! ### Elements -/

/-- The fill value of an out-of-bounds element of a load, with the dense size (R307). -/
def Cut.fillValue (c : Cut) : Nat :=
  if c.fill = 0 then 0
  else
    let f := if c.mode ≠ 0 ∨ c.red ≠ 0 then 0x10 else c.elt
    match ieeeOf f, intRange f with
    | some g, _ => g.nanCode
    | none, some _ => 0
    | none, none => if f = 0x13 then 0xFF else b8NaN f

/-- How a page holds elements for a DECODE or ENCODE copy: format, geometry, table (R306). -/
def Cut.pageFmt (c : Cut) (l : Leaf) : Nat × Nat × Nat := if l.typed then (l.fmt, l.geo, l.tbl) else (c.elt, 3, 0)
/-- SHAPE_FORMAT of R306, for copies that decode or encode. -/
def Cut.pageBad (c : Cut) (l : Leaf) : Bool :=
  c.mode != 0 && l.typed && (l.fmt == 0x13 || fmtWidth l.fmt != fmtWidth c.elt)
/-- Whether an element's code is scaled by a byte of its page. -/
def Cut.scaled (c : Cut) (l : Leaf) : Bool := c.mode != 0 && l.typed && l.geo != 3
/-- Physical address of an element's scale byte (R308). -/
def scalePa (l : Leaf) (pa : Nat) : Nat := l.pa + scaleOffset l (pa - l.pa)

/-- The first in-bounds element of the run that holds element `i`: where ORIGIN_0 is negative, the run of R308 begins there (DESIGN
CHOICE, log 81). -/
def Cut.runStart (c : Cut) (i : Nat) : Nat :=
  let b0 := (c.dims.head?.map (·.box)).getD 1
  let o := (c.dims.head?.map (·.origin)).getD 0
  i / b0 * b0 + (if o < 0 then (-o).toNat else 0)

/-- Whether a page is block-scaled. -/
def Leaf.blocked (l : Leaf) : Bool := l.typed && l.geo != 3
/-- Whether an element keeps the rule of R308 with the start of its run, where either lies in a block-scaled page: the start's number
divides by G, and the element lies in the same page's data area. -/
def runOk (l0 : Leaf) (pa0 : Nat) (l : Leaf) (pa : Nat) : Bool :=
  (!l0.blocked && !l.blocked) ||
    (((pa0 - l0.pa) * 8 / fmtWidth l0.fmt) % geoSize l0.geo == 0 && l.pa == l0.pa &&
      decide (pa - l0.pa < l0.size - scaleArea l0))

/-- A code among bytes: the element at a half-byte position of them. -/
def codeOf (half odd : Nat) (bs : List Byte) : Nat :=
  if half = 1 then fld (leNat (bs.take 1)) (4 * odd) 4 else leNat (bs.take (half / 2))
/-- The bytes with an element's code put in; `old` is what stands there. -/
def putCode (half odd v : Nat) (old : List Byte) : List Byte :=
  if half = 1 then
    match old with
    | b :: rest => BitVec.ofNat 8 (if odd = 1 then b.toNat % 16 + v % 16 * 16 else b.toNat / 16 * 16 + v % 16) :: rest
    | [] => []
  else leBytes (half / 2) v

/-- A reduction of one F32 destination element (R309): bits and flags. -/
def redStep (red : Nat) (dst src : Nat) : Nat × Nat :=
  match red with
  | 3 => (fmax f32 dst src, 0)
  | 4 => (fmin f32 dst src, 0)
  | _ => fadd f32 .rne 0 dst src
/-- The atomic operation of R297 that a reduction is one of, as `atomicTarget` numbers them: an add, the larger, the smaller. -/
def redOp (red : Nat) : Nat := if red = 3 then 6 else if red = 4 then 7 else 0
/-- The source of a reduction, widened exactly. -/
def redSource (red v : Nat) : Nat := if red = 2 then (f32.ofValue .rne 0 (bf16.value v)).1 else v

/-- The dense value of a loaded element (R306): the stored code, or F32 bits with flags. -/
def Cut.loadValue (c : Cut) (s : State) (l : Leaf) (code scale : Nat) : Nat × Nat :=
  if c.mode = 1 then
    let p := c.pageFmt l
    dequant (s.compander p.2.2) p.2.2 p.1 (if p.2.1 = 3 then 127 else scale) code
  else (code, 0)
/-- The code of a stored element (R306), drawn by logical index under SR. -/
def Cut.storeValue (c : Cut) (s : State) (l : Leaf) (v scale u : Nat) : Nat × Nat :=
  if c.mode = 2 then
    let p := c.pageFmt l
    quantise (s.compander p.2.2) p.2.2 p.1 (if p.2.1 = 3 then 127 else scale) (Rm.ofCode c.rm) u (f32.value v)
  else (v, 0)

end Sys2Proof.Machine
end

