-- ==== Sys2Proof/Machine/WeaveVec.lean ====
section
/-! DEFINITION. Majors 0x40 to 0x47 (R153): arithmetic on y registers. -/

namespace Sys2Proof.Machine

/-- Rounding of one lane by STATUS.RM (R18, R49): the mode and the lane's draw. -/
def Ctx.draw (x : Ctx) (i : Nat) : Nat := if x.rm = .sr then drawOf x.seed x.drawc i else 0
/-- A syllable that rounds under SR takes one draw (R51). -/
def Ctx.tookDraw (x : Ctx) : Ctx := if x.rm = .sr then { x with drawc := nextDraw x.drawc } else x

/-- Lane-wise results with flags. -/
def yMap (n k : Nat) (f : Nat → Nat × Nat) : Nat × Nat :=
  let r := mapFlags f (List.range k)
  (ofLanes n r.1, r.2)

/-- A form that writes a y register from lanes `n` bits wide, `k` of them; `rounds` says that it may take a draw. -/
def yForm (maj x g d a b n k : Nat) (rounds : Bool) (f : Ctx → Nat → Nat × Nat) :
    State → Host.Outcome State Fault Refusal :=
  weave maj x g d a b noPre (fun c s =>
    let xc := s.ctx c
    let r := yMap n k (f xc)
    .ok (s.modCtx c (fun q =>
      let q1 := (q.setY d (BitVec.ofNat 256 r.1)).orFlags r.2
      if rounds then q1.tookDraw else q1)))

/-- Lane `i` of a y register. -/
def Ctx.yl (x : Ctx) (n r i : Nat) : Nat := lane n i (x.y r).toNat

/-- An arithmetic form on floating-point lanes. -/
def yFloat (maj x : Nat) (f : Fmt) (op : Rm → Nat → Nat → Nat → Nat → Nat × Nat) (t : Tri) :
    State → Host.Outcome State Fault Refusal :=
  yForm maj x t.g t.d t.a t.b f.width (256 / f.width) true (fun c i =>
    op c.rm (c.draw i) (c.yl f.width t.a i) (c.yl f.width t.b i) (c.yl f.width t.d i))

/-- An integer or bitwise form on 32-bit lanes, no flags. -/
def yInt (maj x : Nat) (op : Nat → Nat → Nat → Nat) (t : Tri) : State → Host.Outcome State Fault Refusal :=
  yForm maj x t.g t.d t.a t.b 32 8 false (fun c i => (op (c.yl 32 t.a i) (c.yl 32 t.b i) (c.yl 32 t.d i), 0))

/-- Minimum and maximum of two 32-bit lanes read as signed. -/
def minI32 (a b : Nat) : Nat := if toI 32 b < toI 32 a then b else a
def maxI32 (a b : Nat) : Nat := if toI 32 a < toI 32 b then b else a
def addW (n a b : Nat) : Nat := (a + b) % 2 ^ n
def subW (n a b : Nat) : Nat := (a + 2 ^ n - b % 2 ^ n) % 2 ^ n
def mulW (n a b : Nat) : Nat := a * b % 2 ^ n

/-- A reduction by the tree of R55 over eight lanes into an x field. -/
def yReduce (x : Nat) (f : Nat × Nat → Nat × Nat → Nat × Nat) (ext : Nat → W64) (t : Bin) :
    State → Host.Outcome State Fault Refusal :=
  weave 0x46 x t.g t.d t.a 0 noPre (fun c s =>
    let r := ((treeFold f 3 ((lanesOf 32 8 ((s.ctx c).y t.a).toNat).map (fun v => (v, 0)))).head?).getD (0, 0)
    .ok ((s.modCtx c (fun q => q.orFlags r.2)).dst c t.d (ext r.1)))

/-- A pair operation that gathers flags. -/
def gather (f : Nat → Nat → Nat × Nat) (a b : Nat × Nat) : Nat × Nat :=
  let r := f a.1 b.1
  (r.1, r.2 ||| a.2 ||| b.2)

/-- YADD.F32 (R153). -/
def execYaddF32 (t : Tri) : State → Host.Outcome State Fault Refusal :=
  yFloat 0x40 0 f32 (fun rm u a b _ => fadd f32 rm u a b) t

/-- YSUB.F32 (R153). -/
def execYsubF32 (t : Tri) : State → Host.Outcome State Fault Refusal :=
  yFloat 0x40 1 f32 (fun rm u a b _ => fsub f32 rm u a b) t

/-- YMUL.F32 (R153). -/
def execYmulF32 (t : Tri) : State → Host.Outcome State Fault Refusal :=
  yFloat 0x40 2 f32 (fun rm u a b _ => fmul f32 rm u a b) t

/-- YFMA.F32: D + A × B, one rounding (R153). -/
def execYfmaF32 (t : Tri) : State → Host.Outcome State Fault Refusal :=
  yFloat 0x40 3 f32 (fun rm u a b d => ffma f32 rm u a b d) t

/-- YADD.BF16 (R153). -/
def execYaddBf16 (t : Tri) : State → Host.Outcome State Fault Refusal :=
  yFloat 0x41 0 bf16 (fun rm u a b _ => fadd bf16 rm u a b) t

/-- YSUB.BF16 (R153). -/
def execYsubBf16 (t : Tri) : State → Host.Outcome State Fault Refusal :=
  yFloat 0x41 1 bf16 (fun rm u a b _ => fsub bf16 rm u a b) t

/-- YMUL.BF16 (R153). -/
def execYmulBf16 (t : Tri) : State → Host.Outcome State Fault Refusal :=
  yFloat 0x41 2 bf16 (fun rm u a b _ => fmul bf16 rm u a b) t

/-- YFMA.BF16: D + A × B, one rounding (R153). -/
def execYfmaBf16 (t : Tri) : State → Host.Outcome State Fault Refusal :=
  yFloat 0x41 3 bf16 (fun rm u a b d => ffma bf16 rm u a b d) t

/-- YADD.I32 (R153). -/
def execYaddI32 (t : Tri) : State → Host.Outcome State Fault Refusal :=
  yInt 0x42 0 (fun a b _ => addW 32 a b) t

/-- YSUB.I32 (R153). -/
def execYsubI32 (t : Tri) : State → Host.Outcome State Fault Refusal :=
  yInt 0x42 1 (fun a b _ => subW 32 a b) t

/-- YMUL.I32 (R153). -/
def execYmulI32 (t : Tri) : State → Host.Outcome State Fault Refusal :=
  yInt 0x42 2 (fun a b _ => mulW 32 a b) t

/-- YMAC.I32 (R153). -/
def execYmacI32 (t : Tri) : State → Host.Outcome State Fault Refusal :=
  yInt 0x42 3 (fun a b d => addW 32 d (mulW 32 a b)) t

/-- YMIN.F32 (R58, R153). -/
def execYminF32 (t : Tri) : State → Host.Outcome State Fault Refusal :=
  yInt 0x43 0 (fun a b _ => fmin f32 a b) t

/-- YMAX.F32 (R58, R153). -/
def execYmaxF32 (t : Tri) : State → Host.Outcome State Fault Refusal :=
  yInt 0x43 1 (fun a b _ => fmax f32 a b) t

/-- YMIN.I32 (R153). -/
def execYminI32 (t : Tri) : State → Host.Outcome State Fault Refusal :=
  yInt 0x43 2 (fun a b _ => minI32 a b) t

/-- YMAX.I32 (R153). -/
def execYmaxI32 (t : Tri) : State → Host.Outcome State Fault Refusal :=
  yInt 0x43 3 (fun a b _ => maxI32 a b) t

/-- YCVT.BF16.F32: sixteen BF16 lanes from A, then B (R153). -/
def execYcvtBf16F32 (t : Tri) : State → Host.Outcome State Fault Refusal :=
  yForm 0x44 0 t.g t.d t.a t.b 16 16 true (fun c i =>
    bf16.ofValue c.rm (c.draw i) (f32.value (if i < 8 then c.yl 32 t.a i else c.yl 32 t.b (i - 8))))

/-- YCVT.F32.BF16: exact, so it takes no DRAWC value (R51, R153; DESIGN CHOICE, log 84). -/
def execYcvtF32Bf16 (t : BinH2) : State → Host.Outcome State Fault Refusal :=
  yForm 0x44 1 t.g t.d t.a t.h 32 8 false (fun c i =>
    ((f32.ofValue .rne 0 (bf16.value (c.yl 16 t.a (8 * t.h + i)))).1, 0))

/-- YCVT.I32.F32 (R35, R153). -/
def execYcvtI32F32 (t : Bin) : State → Host.Outcome State Fault Refusal :=
  yForm 0x44 2 t.g t.d t.a 0 32 8 true (fun c i =>
    let r := toIntRange c.rm (c.draw i) (-2147483648) 2147483647 (f32.value (c.yl 32 t.a i))
    (ofI 32 r.1, r.2))

/-- YCVT.F32.I32 (R35, R153). -/
def execYcvtF32I32 (t : Bin) : State → Host.Outcome State Fault Refusal :=
  yForm 0x44 3 t.g t.d t.a 0 32 8 true (fun c i =>
    f32.ofValue c.rm (c.draw i) (Fv.ofInt (toI 32 (c.yl 32 t.a i))))

/-- YAND (R153). -/
def execYand (t : Tri) : State → Host.Outcome State Fault Refusal :=
  yInt 0x45 0 (fun a b _ => a &&& b) t

/-- YOR (R153). -/
def execYor (t : Tri) : State → Host.Outcome State Fault Refusal :=
  yInt 0x45 1 (fun a b _ => a ||| b) t

/-- YXOR (R153). -/
def execYxor (t : Tri) : State → Host.Outcome State Fault Refusal :=
  yInt 0x45 2 (fun a b _ => a ^^^ b) t

/-- YSHF: lanes of A chosen by the low bits of the lanes of B (R153). -/
def execYshf (t : Tri) : State → Host.Outcome State Fault Refusal :=
  yForm 0x45 3 t.g t.d t.a t.b 32 8 false (fun c i => (c.yl 32 t.a (c.yl 32 t.b i % 8), 0))

/-- YRSUM.F32: each addition fadd_rne (R55, R153). -/
def execYrsumF32 (t : Bin) : State → Host.Outcome State Fault Refusal :=
  yReduce 0 (gather (fadd f32 .rne 0)) (BitVec.ofNat 64) t

/-- YRMAX.F32 (R55, R58, R153). -/
def execYrmaxF32 (t : Bin) : State → Host.Outcome State Fault Refusal :=
  yReduce 1 (gather (fun a b => (fmax f32 a b, 0))) (BitVec.ofNat 64) t

/-- YRSUM.I32 (R55, R153). -/
def execYrsumI32 (t : Bin) : State → Host.Outcome State Fault Refusal :=
  yReduce 2 (gather (fun a b => (addW 32 a b, 0))) (sx 32) t

/-- YRMAX.I32 (R55, R153). -/
def execYrmaxI32 (t : Bin) : State → Host.Outcome State Fault Refusal :=
  yReduce 3 (gather (fun a b => (maxI32 a b, 0))) (sx 32) t

/-- YBCAST (R153). -/
def execYbcast (t : Bin) : State → Host.Outcome State Fault Refusal :=
  weave 0x47 0 t.g t.d t.a 0 noPre (fun c s =>
    let ra := s.src c t.a
    .ok (ra.2.modCtx c (fun q => q.setY t.d (BitVec.ofNat 256 (ofLanes 32 (List.replicate 8 (ra.1.toNat % 2 ^ 32)))))))

/-- YEXT (R153). -/
def execYext (t : Tri) : State → Host.Outcome State Fault Refusal :=
  weave 0x47 1 t.g t.d t.a t.b noPre (fun c s =>
    let rb := s.src c t.b
    .ok (rb.2.dst c t.d (BitVec.ofNat 64 ((s.ctx c).yl 32 t.a (rb.1.toNat % 8)))))

/-- YINS (R153). -/
def execYins (t : Tri) : State → Host.Outcome State Fault Refusal :=
  weave 0x47 2 t.g t.d t.a t.b noPre (fun c s =>
    let ra := s.src c t.a
    let rb := ra.2.src c t.b
    .ok (rb.2.modCtx c (fun q => q.setY t.d (BitVec.ofNat 256 (ofLanes 32 ((List.range 8).map (fun i =>
      if i = rb.1.toNat % 8 then ra.1.toNat % 2 ^ 32 else q.yl 32 t.d i)))))))

/-- YSEL: bit 31 of the lane of D selects A (R153). -/
def execYsel (t : Tri) : State → Host.Outcome State Fault Refusal :=
  yInt 0x47 3 (fun a b d => if bitOf d 31 then a else b) t

end Sys2Proof.Machine
end

