-- ==== Sys2Proof/Machine/FrameVec.lean ====
section
/-! DEFINITION. Majors 0x50 to 0x67 (R185 to R208): vector arithmetic, conversion, quantisation, comparison, shuffles,
selects, reductions, tensor-SRAM access and register moves of a bench. -/

namespace Sys2Proof.Machine

/-! ### Shared forms -/

/-- A frame syllable with a field that must meet `ok` whatever its guard reads. -/
def frameIf (maj x g d a bb : Nat) (ok : Bench → SlotName → Bool) (body : Nat → SlotName → State → Run State) (s : State) :
    Host.Outcome State Fault Refusal :=
  match s.ctl.cur with
  | .slot b sl =>
    if ok (s.bench b) sl then s.onSlot b sl maj x g d a bb false (body b sl) else finishF' s b illegal
  | .ctx c => s.onCtx c maj x g d a bb true illegal (fun _ => illegal)
  | _ => .next s

/-- Element `i` of `n` bits of a v register, as named. -/
def Bench.vl (k : Bench) (n r i : Nat) : Nat := lane n i (k.rv r)

/-- A V-slot form that writes the slot's width, element by element, with flags (R185, R188). -/
def vForm (maj x lat n g d a b : Nat) (f : Bench → Nat → Nat × Nat) : State → Host.Outcome State Fault Refusal :=
  frame maj x g d a b (fun bn sl s =>
    let k := s.bench bn
    let r := yMap n (k.width sl / n) (f k)
    .ok (s.setBench bn ((k.laterV lat d 0 (k.width sl) r.1).laterFlags lat r.2)))

/-- A form of two sources; D is read as well. -/
def vTri (maj x lat n : Nat) (op : Nat → Nat → Nat → Nat × Nat) (t : Tri) : State → Host.Outcome State Fault Refusal :=
  vForm maj x lat n t.g t.d t.a t.b (fun k i => op (k.vl n t.a i) (k.vl n t.b i) (k.vl n t.d i))

/-- A form of one source. -/
def vBin (maj x lat n : Nat) (op : Nat → Nat × Nat) (t : Bin) : State → Host.Outcome State Fault Refusal :=
  vForm maj x lat n t.g t.d t.a 0 (fun k i => op (k.vl n t.a i))

/-- A form that raises no flag. -/
def clean (v : Nat) : Nat × Nat := (v, 0)

/-- An X-slot or L-slot form on all 1,024 bits, lane by lane, no flags. -/
def laneForm (maj x lat g d a b : Nat) (f : Bench → Nat → Nat) : State → Host.Outcome State Fault Refusal :=
  frame maj x g d a b (fun bn _ s =>
    let k := s.bench bn
    .ok (s.setBench bn (k.laterV lat d 0 1024 (ofLanes 32 ((List.range 32).map (f k))))))

/-- VABS and VNEG of a floating type: a NaN gives the canonical NaN (R190). -/
def fabsV (f : Fmt) (v : Nat) : Nat := match f.value v with
  | .nan => f.nanCode
  | _ => v % f.signBit
def fnegV (f : Fmt) (v : Nat) : Nat := match f.value v with
  | .nan => f.nanCode
  | _ => (v + f.signBit) % (2 * f.signBit)

/-- Saturation into `n`-bit two's complement, with SAT (R34). -/
def satI (n : Nat) (v : Int) : Nat × Nat :=
  let r := clampSat (-(2 ^ (n - 1) : Nat)) ((2 ^ (n - 1) : Nat) - 1) v
  (ofI n r.1, r.2)

/-- Signed minimum and maximum of `n`-bit elements. -/
def minI (n a b : Nat) : Nat := if toI n b < toI n a then b else a
def maxI (n a b : Nat) : Nat := if toI n a < toI n b then b else a

/-- The seed of the running launch (R51). -/
def State.frameSeed (s : State) : W64 := (s.frame.launch.map (·.seed)).getD 0
/-- The draw of an element under a mode. -/
def Bench.drawAt (k : Bench) (seed : W64) (rm : Rm) (i : Nat) : Nat := if rm = .sr then drawOf seed k.drawc i else 0
/-- A syllable under SR takes one DRAWC value (R51). -/
def Bench.drew (k : Bench) (rm : Rm) : Bench := if rm = .sr then { k with drawc := nextDraw k.drawc } else k

/-- A lane mask: bit 31 counts (R201). -/
def isSet (v : Nat) : Bool := bitOf v 31
def maskOf (b : Bool) : Nat := if b then 0xFFFFFFFF else 0

/-! ### Typed arithmetic (R189 to R191) -/

/-- VADD.F32 (R190). -/
def execVaddF32 (t : Tri) : State → Host.Outcome State Fault Refusal :=
  vTri 0x50 0 3 32 (fun a b _ => fadd f32 .rne 0 a b) t

/-- VSUB.F32 (R190). -/
def execVsubF32 (t : Tri) : State → Host.Outcome State Fault Refusal :=
  vTri 0x50 1 3 32 (fun a b _ => fsub f32 .rne 0 a b) t

/-- VMUL.F32 (R190). -/
def execVmulF32 (t : Tri) : State → Host.Outcome State Fault Refusal :=
  vTri 0x50 2 4 32 (fun a b _ => fmul f32 .rne 0 a b) t

/-- VFMA.F32: D + A × B, one rounding (R190). -/
def execVfmaF32 (t : Tri) : State → Host.Outcome State Fault Refusal :=
  vTri 0x50 3 4 32 (fun a b c => ffma f32 .rne 0 a b c) t

/-- VMIN.F32 (R58, R190). -/
def execVminF32 (t : Tri) : State → Host.Outcome State Fault Refusal :=
  vTri 0x51 0 1 32 (fun a b _ => clean (fmin f32 a b)) t

/-- VMAX.F32 (R58, R190). -/
def execVmaxF32 (t : Tri) : State → Host.Outcome State Fault Refusal :=
  vTri 0x51 1 1 32 (fun a b _ => clean (fmax f32 a b)) t

/-- VABS.F32 (R190). -/
def execVabsF32 (t : Bin) : State → Host.Outcome State Fault Refusal :=
  vBin 0x51 2 1 32 (fun a => clean (fabsV f32 a)) t

/-- VNEG.F32 (R190). -/
def execVnegF32 (t : Bin) : State → Host.Outcome State Fault Refusal :=
  vBin 0x51 3 1 32 (fun a => clean (fnegV f32 a)) t

/-- VADD.BF16 (R190). -/
def execVaddBf16 (t : Tri) : State → Host.Outcome State Fault Refusal :=
  vTri 0x52 0 3 16 (fun a b _ => fadd bf16 .rne 0 a b) t

/-- VSUB.BF16 (R190). -/
def execVsubBf16 (t : Tri) : State → Host.Outcome State Fault Refusal :=
  vTri 0x52 1 3 16 (fun a b _ => fsub bf16 .rne 0 a b) t

/-- VMUL.BF16 (R190). -/
def execVmulBf16 (t : Tri) : State → Host.Outcome State Fault Refusal :=
  vTri 0x52 2 4 16 (fun a b _ => fmul bf16 .rne 0 a b) t

/-- VFMA.BF16: D + A × B, one rounding (R190). -/
def execVfmaBf16 (t : Tri) : State → Host.Outcome State Fault Refusal :=
  vTri 0x52 3 4 16 (fun a b c => ffma bf16 .rne 0 a b c) t

/-- VMIN.BF16 (R58, R190). -/
def execVminBf16 (t : Tri) : State → Host.Outcome State Fault Refusal :=
  vTri 0x53 0 1 16 (fun a b _ => clean (fmin bf16 a b)) t

/-- VMAX.BF16 (R58, R190). -/
def execVmaxBf16 (t : Tri) : State → Host.Outcome State Fault Refusal :=
  vTri 0x53 1 1 16 (fun a b _ => clean (fmax bf16 a b)) t

/-- VABS.BF16 (R190). -/
def execVabsBf16 (t : Bin) : State → Host.Outcome State Fault Refusal :=
  vBin 0x53 2 1 16 (fun a => clean (fabsV bf16 a)) t

/-- VNEG.BF16 (R190). -/
def execVnegBf16 (t : Bin) : State → Host.Outcome State Fault Refusal :=
  vBin 0x53 3 1 16 (fun a => clean (fnegV bf16 a)) t

/-- VADD.F16 (R190). -/
def execVaddF16 (t : Tri) : State → Host.Outcome State Fault Refusal :=
  vTri 0x54 0 3 16 (fun a b _ => fadd f16 .rne 0 a b) t

/-- VSUB.F16 (R190). -/
def execVsubF16 (t : Tri) : State → Host.Outcome State Fault Refusal :=
  vTri 0x54 1 3 16 (fun a b _ => fsub f16 .rne 0 a b) t

/-- VMUL.F16 (R190). -/
def execVmulF16 (t : Tri) : State → Host.Outcome State Fault Refusal :=
  vTri 0x54 2 4 16 (fun a b _ => fmul f16 .rne 0 a b) t

/-- VFMA.F16: D + A × B, one rounding (R190). -/
def execVfmaF16 (t : Tri) : State → Host.Outcome State Fault Refusal :=
  vTri 0x54 3 4 16 (fun a b c => ffma f16 .rne 0 a b c) t

/-- VMIN.F16 (R58, R190). -/
def execVminF16 (t : Tri) : State → Host.Outcome State Fault Refusal :=
  vTri 0x55 0 1 16 (fun a b _ => clean (fmin f16 a b)) t

/-- VMAX.F16 (R58, R190). -/
def execVmaxF16 (t : Tri) : State → Host.Outcome State Fault Refusal :=
  vTri 0x55 1 1 16 (fun a b _ => clean (fmax f16 a b)) t

/-- VABS.F16 (R190). -/
def execVabsF16 (t : Bin) : State → Host.Outcome State Fault Refusal :=
  vBin 0x55 2 1 16 (fun a => clean (fabsV f16 a)) t

/-- VNEG.F16 (R190). -/
def execVnegF16 (t : Bin) : State → Host.Outcome State Fault Refusal :=
  vBin 0x55 3 1 16 (fun a => clean (fnegV f16 a)) t

/-- VADD.I32 (R191). -/
def execVaddI32 (t : Tri) : State → Host.Outcome State Fault Refusal :=
  vTri 0x56 0 1 32 (fun a b _ => clean (addW 32 a b)) t

/-- VSUB.I32 (R191). -/
def execVsubI32 (t : Tri) : State → Host.Outcome State Fault Refusal :=
  vTri 0x56 1 1 32 (fun a b _ => clean (subW 32 a b)) t

/-- VMUL.I32 (R191). -/
def execVmulI32 (t : Tri) : State → Host.Outcome State Fault Refusal :=
  vTri 0x56 2 3 32 (fun a b _ => clean (mulW 32 a b)) t

/-- VMAC.I32: D + A × B (R191). -/
def execVmacI32 (t : Tri) : State → Host.Outcome State Fault Refusal :=
  vTri 0x56 3 3 32 (fun a b c => clean (addW 32 c (mulW 32 a b))) t

/-- VMIN.I32 (R191). -/
def execVminI32 (t : Tri) : State → Host.Outcome State Fault Refusal :=
  vTri 0x57 0 1 32 (fun a b _ => clean (minI 32 a b)) t

/-- VMAX.I32 (R191). -/
def execVmaxI32 (t : Tri) : State → Host.Outcome State Fault Refusal :=
  vTri 0x57 1 1 32 (fun a b _ => clean (maxI 32 a b)) t

/-- VABS.I32, saturating (R191). -/
def execVabsI32 (t : Bin) : State → Host.Outcome State Fault Refusal :=
  vBin 0x57 2 1 32 (fun a => satI 32 (toI 32 a).natAbs) t

/-- VNEG.I32, saturating (R191). -/
def execVnegI32 (t : Bin) : State → Host.Outcome State Fault Refusal :=
  vBin 0x57 3 1 32 (fun a => satI 32 (-(toI 32 a))) t

/-- VADD.I16 (R191). -/
def execVaddI16 (t : Tri) : State → Host.Outcome State Fault Refusal :=
  vTri 0x58 0 1 16 (fun a b _ => clean (addW 16 a b)) t

/-- VSUB.I16 (R191). -/
def execVsubI16 (t : Tri) : State → Host.Outcome State Fault Refusal :=
  vTri 0x58 1 1 16 (fun a b _ => clean (subW 16 a b)) t

/-- VMUL.I16 (R191). -/
def execVmulI16 (t : Tri) : State → Host.Outcome State Fault Refusal :=
  vTri 0x58 2 3 16 (fun a b _ => clean (mulW 16 a b)) t

/-- VMAC.I16: D + A × B (R191). -/
def execVmacI16 (t : Tri) : State → Host.Outcome State Fault Refusal :=
  vTri 0x58 3 3 16 (fun a b c => clean (addW 16 c (mulW 16 a b))) t

/-- VMIN.I16 (R191). -/
def execVminI16 (t : Tri) : State → Host.Outcome State Fault Refusal :=
  vTri 0x59 0 1 16 (fun a b _ => clean (minI 16 a b)) t

/-- VMAX.I16 (R191). -/
def execVmaxI16 (t : Tri) : State → Host.Outcome State Fault Refusal :=
  vTri 0x59 1 1 16 (fun a b _ => clean (maxI 16 a b)) t

/-- VABS.I16, saturating (R191). -/
def execVabsI16 (t : Bin) : State → Host.Outcome State Fault Refusal :=
  vBin 0x59 2 1 16 (fun a => satI 16 (toI 16 a).natAbs) t

/-- VNEG.I16, saturating (R191). -/
def execVnegI16 (t : Bin) : State → Host.Outcome State Fault Refusal :=
  vBin 0x59 3 1 16 (fun a => satI 16 (-(toI 16 a))) t

/-- VADD.I8 (R191). -/
def execVaddI8 (t : Tri) : State → Host.Outcome State Fault Refusal :=
  vTri 0x5a 0 1 8 (fun a b _ => clean (addW 8 a b)) t

/-- VSUB.I8 (R191). -/
def execVsubI8 (t : Tri) : State → Host.Outcome State Fault Refusal :=
  vTri 0x5a 1 1 8 (fun a b _ => clean (subW 8 a b)) t

/-- VMUL.I8 (R191). -/
def execVmulI8 (t : Tri) : State → Host.Outcome State Fault Refusal :=
  vTri 0x5a 2 3 8 (fun a b _ => clean (mulW 8 a b)) t

/-- VMAC.I8: D + A × B (R191). -/
def execVmacI8 (t : Tri) : State → Host.Outcome State Fault Refusal :=
  vTri 0x5a 3 3 8 (fun a b c => clean (addW 8 c (mulW 8 a b))) t

/-- VMIN.I8 (R191). -/
def execVminI8 (t : Tri) : State → Host.Outcome State Fault Refusal :=
  vTri 0x5b 0 1 8 (fun a b _ => clean (minI 8 a b)) t

/-- VMAX.I8 (R191). -/
def execVmaxI8 (t : Tri) : State → Host.Outcome State Fault Refusal :=
  vTri 0x5b 1 1 8 (fun a b _ => clean (maxI 8 a b)) t

/-- VABS.I8, saturating (R191). -/
def execVabsI8 (t : Bin) : State → Host.Outcome State Fault Refusal :=
  vBin 0x5b 2 1 8 (fun a => satI 8 (toI 8 a).natAbs) t

/-- VNEG.I8, saturating (R191). -/
def execVnegI8 (t : Bin) : State → Host.Outcome State Fault Refusal :=
  vBin 0x5b 3 1 8 (fun a => satI 8 (-(toI 8 a))) t

/-! ### Conversions (R192, R193) -/

/-- A widening conversion from the half `h` of A, exact. -/
def vWiden (x : Nat) (f : Fmt) (t : BinH7) : State → Host.Outcome State Fault Refusal :=
  frame 0x5C x t.g t.d t.a (32 * t.h) (fun bn sl s =>
    let k := s.bench bn
    let n := k.width sl / 32
    let r := yMap 32 n (fun i => clean (f32.ofValue .rne 0 (f.value (k.vl 16 t.a (t.h * n + i)))).1)
    .ok (s.setBench bn (k.laterV 3 t.d 0 (k.width sl) r.1)))

/-- A narrowing conversion of `src`-bit elements into the half `h` of D. -/
def vNarrow (maj x src g d a h r : Nat) (conv : Rm → Nat → Nat → Nat × Nat) : State → Host.Outcome State Fault Refusal :=
  frame maj x g d a (32 * h + r) (fun bn sl s =>
    let k := s.bench bn
    let w := k.width sl
    let rm := Rm.ofCode r
    let v := yMap (src / 2) (w / src) (fun i => conv rm (k.drawAt s.frameSeed rm i) (k.vl src a i))
    .ok (s.setBench bn (((k.laterV 3 d (h * (w / 2)) (w / 2) v.1).laterFlags 3 v.2).drew rm)))

/-- A conversion of 32-bit elements in place. -/
def vSame (x : Nat) (conv : Rm → Nat → Nat → Nat × Nat) (t : CvtR) : State → Host.Outcome State Fault Refusal :=
  frame 0x5D x t.g t.d t.a t.r (fun bn sl s =>
    let k := s.bench bn
    let rm := Rm.ofCode t.r
    let v := yMap 32 (k.width sl / 32) (fun i => conv rm (k.drawAt s.frameSeed rm i) (k.vl 32 t.a i))
    .ok (s.setBench bn (((k.laterV 3 t.d 0 (k.width sl) v.1).laterFlags 3 v.2).drew rm)))

/-- VCVT.F32.BF16 (R193). -/
def execVcvtF32Bf16 (t : BinH7) : State → Host.Outcome State Fault Refusal :=
  vWiden 0 bf16 t

/-- VCVT.F32.F16 (R193). -/
def execVcvtF32F16 (t : BinH7) : State → Host.Outcome State Fault Refusal :=
  vWiden 1 f16 t

/-- VCVT.BF16.F32 (R193). -/
def execVcvtBf16F32 (t : CvtHR) : State → Host.Outcome State Fault Refusal :=
  vNarrow 0x5C 2 32 t.g t.d t.a t.h t.r (fun rm u v => bf16.ofValue rm u (f32.value v))

/-- VCVT.F16.F32 (R193). -/
def execVcvtF16F32 (t : CvtHR) : State → Host.Outcome State Fault Refusal :=
  vNarrow 0x5C 3 32 t.g t.d t.a t.h t.r (fun rm u v => f16.ofValue rm u (f32.value v))

/-- VCVT.F32.I32 (R35, R193). -/
def execVcvtF32I32 (t : CvtR) : State → Host.Outcome State Fault Refusal :=
  vSame 0 (fun rm u v => f32.ofValue rm u (Fv.ofInt (toI 32 v))) t

/-- VCVT.I32.F32 (R35, R193). -/
def execVcvtI32F32 (t : CvtR) : State → Host.Outcome State Fault Refusal :=
  vSame 1 (fun rm u v =>
    let r := toIntRange rm u (-2147483648) 2147483647 (f32.value v)
    (ofI 32 r.1, r.2)) t

/-- VCVT.I16.I32, saturating (R193). -/
def execVcvtI16I32 (t : BinH7) : State → Host.Outcome State Fault Refusal :=
  vNarrow 0x5D 2 32 t.g t.d t.a t.h 0 (fun _ _ v => satI 16 (toI 32 v))

/-- VCVT.I8.I16, saturating (R193). -/
def execVcvtI8I16 (t : BinH7) : State → Host.Outcome State Fault Refusal :=
  vNarrow 0x5D 3 16 t.g t.d t.a t.h 0 (fun _ _ v => satI 8 (toI 16 v))

/-! ### Quantisation (R194 to R199) -/

/-- The fields of a quantisation descriptor. -/
structure QDesc where
  inv : Bool
  tbl : Nat
  geo : Nat
  rm : Nat
  deriving DecidableEq, Repr

/-- Read a descriptor; R194 says when it is illegal. -/
def State.qdesc (s : State) (v : Nat) (comp : Bool) : Run QDesc :=
  let t := fld v 8 4
  if fld v 13 51 != 0 || fld v 6 2 != 0 || bitOf v 3 || decide (4 < fld v 0 3) || (bitOf v 12 && !comp) ||
      (t != 0 && !tblValid (s.compander t)) then illegal
  else .ok ⟨bitOf v 12, t, fld v 4 2, fld v 0 3⟩

/-- FMTSEL may be I8, N8, I4 or a binary8 code (R195). -/
def selFmt (f : Nat) : Run Nat := if f = 1 ∨ f = 5 ∨ f = 9 ∨ isB8 f = true then .ok f else illegal

/-- The block of element `i`. -/
def blockOf (geo i : Nat) : Nat := if geo = 3 then 0 else i / (16 * 2 ^ geo)
/-- The scale byte of element `i` that D carries. -/
def scaleIn (geo d i : Nat) : Nat := if geo = 3 then 0x7F else lane 8 (blockOf geo i) d

/-- floor(log2) of the largest magnitude of finite elements, none where all are zero. -/
def topLog (l : List Nat) : Option Int :=
  let m := (l.map (fun v => v % f32.signBit)).foldl max 0
  match f32.value m with
  | .fin d => if d.m = 0 then none else some ((Nat.log2 d.m : Int) + d.e)
  | _ => none

/-- The scale byte of one block (R196). -/
def blockScale (emax : Int) (l : List Nat) : Nat :=
  if l.any (fun v => decide (f32.infCode ≤ v % f32.signBit)) then 0xFF
  else match topLog l with
    | none => 0x7F
    | some e => (max 0 (min 254 (e - emax + 127))).toNat

/-- VQNT: scales from D, codes to D (R197). -/
def execVqnt (t : Tri) : State → Host.Outcome State Fault Refusal :=
  frame 0x5E 0 t.g t.d t.a t.b (fun bn sl s => do
    let k := s.bench bn
    let q ← s.qdesc (k.ra t.b).toNat false
    let f ← selFmt k.fmtsel.toNat
    let rm := Rm.ofCode q.rm
    let w := fmtWidth f
    let r := yMap w (k.width sl / 32) (fun i =>
      quantise (s.compander q.tbl) q.tbl f (scaleIn q.geo (k.rv t.d) i) rm (k.drawAt s.frameSeed rm i)
        (f32.value (k.vl 32 t.a i)))
    pure (s.setBench bn (((k.laterV 6 t.d 0 (k.width sl) r.1).laterFlags 6 r.2).drew rm)))

/-- VDQ (R198). -/
def execVdq (t : Tri) : State → Host.Outcome State Fault Refusal :=
  frame 0x5E 1 t.g t.d t.a t.b (fun bn sl s => do
    let k := s.bench bn
    let q ← s.qdesc (k.ra t.b).toNat false
    let f ← selFmt k.fmtsel.toNat
    let r := yMap 32 (k.width sl / 32) (fun i =>
      dequant (s.compander q.tbl) q.tbl f (scaleIn q.geo (k.rv t.d) i) (k.vl (fmtWidth f) t.a i))
    pure (s.setBench bn ((k.laterV 6 t.d 0 (k.width sl) r.1).laterFlags 6 r.2)))

/-- VSCL: block scales, no flags (R196). -/
def execVscl (t : Tri) : State → Host.Outcome State Fault Refusal :=
  frame 0x5E 2 t.g t.d t.a t.b (fun bn sl s => do
    let k := s.bench bn
    let q ← s.qdesc (k.ra t.b).toNat false
    let f ← selFmt k.fmtsel.toNat
    let n := k.width sl / 32
    let es := (List.range n).map (k.vl 32 t.a)
    let emax := if q.tbl = 0 then emaxOf f else tblEC (s.compander q.tbl)
    let g := 16 * 2 ^ q.geo
    let v := if q.geo = 3 then 0x7F
      else ofLanes 8 ((List.range ((n + g - 1) / g)).map (fun j => blockScale emax ((es.drop (g * j)).take g)))
    pure (s.setBench bn (k.laterV 6 t.d 0 (k.width sl) v)))

/-- VCOMP (R199). -/
def execVcomp (t : Tri) : State → Host.Outcome State Fault Refusal :=
  frame 0x5E 3 t.g t.d t.a t.b (fun bn sl s => do
    let k := s.bench bn
    let q ← s.qdesc (k.ra t.b).toNat true
    let r := yMap 32 (k.width sl / 32) (fun i =>
      let v := k.vl 32 t.a i
      match f32.value v with
      | .nan => (f32.nanCode, 0)
      | fv => if q.tbl = 0 then (v, 0)
        else if q.inv then expandSigned (s.compander q.tbl) v else compandSigned (s.compander q.tbl) fv)
    pure (s.setBench bn ((k.laterV 6 t.d 0 (k.width sl) r.1).laterFlags 6 r.2)))

/-! ### Special functions (R200) -/

/-- VEXP2 (R53, R200). -/
def execVexp2 (t : Bin) : State → Host.Outcome State Fault Refusal :=
  vBin 0x5F 0 6 32 exp2 t

/-- VRCP (R200). -/
def execVrcp (t : Bin) : State → Host.Outcome State Fault Refusal :=
  vBin 0x5F 1 8 32 frcp t

/-- VRSQ (R200). -/
def execVrsq (t : Bin) : State → Host.Outcome State Fault Refusal :=
  vBin 0x5F 2 8 32 frsq t

/-- VLOG2 (R200). -/
def execVlog2 (t : Bin) : State → Host.Outcome State Fault Refusal :=
  vBin 0x5F 3 8 32 flog2 t

/-! ### Comparisons and logic (R201, R202) -/

/-- VCMP.EQ.F32 (R201). -/
def execVcmpEqF32 (t : Tri) : State → Host.Outcome State Fault Refusal :=
  vTri 0x60 0 1 32 (fun a b _ => clean (maskOf ((f32.value a).eqv (f32.value b)))) t

/-- VCMP.LT.F32 (R201). -/
def execVcmpLtF32 (t : Tri) : State → Host.Outcome State Fault Refusal :=
  vTri 0x60 1 1 32 (fun a b _ => clean (maskOf ((f32.value a).lt (f32.value b)))) t

/-- VCMP.LE.F32 (R201). -/
def execVcmpLeF32 (t : Tri) : State → Host.Outcome State Fault Refusal :=
  vTri 0x60 2 1 32 (fun a b _ => clean (maskOf ((f32.value a).lt (f32.value b) || (f32.value a).eqv (f32.value b)))) t

/-- VCMP.NE.F32 (R201). -/
def execVcmpNeF32 (t : Tri) : State → Host.Outcome State Fault Refusal :=
  vTri 0x60 3 1 32 (fun a b _ => clean (maskOf (!(f32.value a).eqv (f32.value b)))) t

/-- VCMP.EQ.I32 (R201). -/
def execVcmpEqI32 (t : Tri) : State → Host.Outcome State Fault Refusal :=
  vTri 0x61 0 1 32 (fun a b _ => clean (maskOf (a == b))) t

/-- VCMP.LT.I32 (R201). -/
def execVcmpLtI32 (t : Tri) : State → Host.Outcome State Fault Refusal :=
  vTri 0x61 1 1 32 (fun a b _ => clean (maskOf (decide (toI 32 a < toI 32 b)))) t

/-- VCMP.LE.I32 (R201). -/
def execVcmpLeI32 (t : Tri) : State → Host.Outcome State Fault Refusal :=
  vTri 0x61 2 1 32 (fun a b _ => clean (maskOf (decide (toI 32 a ≤ toI 32 b)))) t

/-- VCMP.NE.I32 (R201). -/
def execVcmpNeI32 (t : Tri) : State → Host.Outcome State Fault Refusal :=
  vTri 0x61 3 1 32 (fun a b _ => clean (maskOf (a != b))) t

/-- VAND (R202). -/
def execVand (t : Tri) : State → Host.Outcome State Fault Refusal :=
  vTri 0x62 0 1 32 (fun a b _ => clean (a &&& b)) t

/-- VOR (R202). -/
def execVor (t : Tri) : State → Host.Outcome State Fault Refusal :=
  vTri 0x62 1 1 32 (fun a b _ => clean (a ||| b)) t

/-- VXOR (R202). -/
def execVxor (t : Tri) : State → Host.Outcome State Fault Refusal :=
  vTri 0x62 2 1 32 (fun a b _ => clean (a ^^^ b)) t

/-- VNOT (R202). -/
def execVnot (t : Bin) : State → Host.Outcome State Fault Refusal :=
  vBin 0x62 3 1 32 (fun a => clean (0xFFFFFFFF - a)) t

/-! ### Shuffles and selects (R203, R204) -/

/-- VSHUF (R203). -/
def execVshuf (t : Tri) : State → Host.Outcome State Fault Refusal :=
  laneForm 0x63 0 3 t.g t.d t.a t.b (fun k i => k.vl 32 t.a (k.vl 32 t.b i % 32))

/-- VROT (R203). -/
def execVrot (t : BinN) : State → Host.Outcome State Fault Refusal :=
  laneForm 0x63 1 3 t.g t.d t.a t.n (fun k i => k.vl 32 t.a ((i + t.n) % 32))

/-- VBCST (R203). -/
def execVbcst (t : BinN) : State → Host.Outcome State Fault Refusal :=
  laneForm 0x63 2 3 t.g t.d t.a t.n (fun k _ => k.vl 32 t.a t.n)

/-- VTRN: lanes of A and B by turns. (R203). -/
def execVtrn (t : Tri) : State → Host.Outcome State Fault Refusal :=
  laneForm 0x63 3 3 t.g t.d t.a t.b (fun k i => if i % 2 = 0 then k.vl 32 t.a (i / 2) else k.vl 32 t.b (i / 2))

/-- The fill patterns of R204. -/
def fillPattern (code : Nat) : Nat :=
  match code with
  | 1 => 0x7FC00000
  | 2 => 0xFF800000
  | 3 => 0x7F800000
  | 4 => 0xFF80FF80
  | 5 => 0x7FC07FC0
  | 6 => 0xFC00FC00
  | 7 => 0x7E007E00
  | _ => 0

/-- A bitwise choice. -/
def choose (m a b : Nat) : Nat := (m &&& a) ||| ((0xFFFFFFFF - m) &&& b)

/-- VSEL: D is the bitwise mask (R204). -/
def execVsel (t : Tri) : State → Host.Outcome State Fault Refusal :=
  laneForm 0x64 0 1 t.g t.d t.a t.b (fun k i => choose (k.vl 32 t.d i) (k.vl 32 t.a i) (k.vl 32 t.b i))

/-- VFILL: A is the bitwise mask (R204). -/
def execVfill (t : BinN) : State → Host.Outcome State Fault Refusal :=
  laneForm 0x64 1 1 t.g t.d t.a t.n (fun k i => choose (k.vl 32 t.a i) (k.vl 32 t.d i) (fillPattern t.n))

/-- VMERGE (R204). -/
def execVmerge (t : Tri) : State → Host.Outcome State Fault Refusal :=
  laneForm 0x64 2 1 t.g t.d t.a t.b (fun k i => if isSet (k.vl 32 t.b i) then k.vl 32 t.a i else k.vl 32 t.d i)

/-- VMASK: ANY, ALL or NONE (R204). -/
def execVmask (t : GuardN) : State → Host.Outcome State Fault Refusal :=
  frame 0x64 3 t.g t.d t.a t.n (fun bn _ s =>
    let k := s.bench bn
    let ms := (List.range 32).map (fun i => isSet (k.vl 32 t.a i))
    let r := match t.n with
      | 0 => ms.any id
      | 1 => ms.all id
      | _ => !ms.any id
    .ok (s.setBench bn (k.later 1 (.g t.d r))))

/-! ### Reductions (R205) -/

/-- A tree reduction broadcast to every element. -/
def vReduce (x : Nat) (f : Nat × Nat → Nat × Nat → Nat × Nat) (t : Bin) : State → Host.Outcome State Fault Refusal :=
  frame 0x65 x t.g t.d t.a 0 (fun bn sl s =>
    let k := s.bench bn
    let n := k.width sl / 32
    let r := ((treeFold f 5 ((List.range n).map (fun i => (k.vl 32 t.a i, 0)))).head?).getD (0, 0)
    .ok (s.setBench bn ((k.laterV 6 t.d 0 (k.width sl) (ofLanes 32 (List.replicate n r.1))).laterFlags 6 r.2)))

/-- VRSUM.F32 (R205). -/
def execVrsumF32 (t : Bin) : State → Host.Outcome State Fault Refusal :=
  vReduce 0 (gather (fadd f32 .rne 0)) t

/-- VRMAX.F32 (R205). -/
def execVrmaxF32 (t : Bin) : State → Host.Outcome State Fault Refusal :=
  vReduce 1 (gather (fun a b => clean (fmax f32 a b))) t

/-- VRSUM.I32 (R205). -/
def execVrsumI32 (t : Bin) : State → Host.Outcome State Fault Refusal :=
  vReduce 2 (gather (fun a b => clean (addW 32 a b))) t

/-- VRMAX.I32 (R205). -/
def execVrmaxI32 (t : Bin) : State → Host.Outcome State Fault Refusal :=
  vReduce 3 (gather (fun a b => clean (maxI 32 a b))) t

/-! ### Tensor-SRAM access (R206, R207) -/

/-- The dense bytes of a load in flight that meet a range of its bench (R384). -/
def Copy.owns (c : Copy) (off n : Nat) : Bool :=
  let q := c.clr.cut
  q.dir == 0 && (List.range q.count).any (fun i => overlaps (skewAddr q.skew (q.da2 i / 2)) (spanOf q.dHalf) off n)

/-- What a result in flight owns: P rows (2) or a WIN.KEEP copy (3) (R384). -/
def Effect.owner (e : Effect) (off n : Nat) : Option Nat :=
  match e with
  | .rows _ w => if w.any (fun r => overlaps r.1 r.2.length off n) then some 2 else none
  | .keep _ w => if w.any (fun r => overlaps r.1 r.2.length off n) then some 3 else none
  | _ => none

/-- The owner kinds of R384 of a range of a bench's tensor SRAM, the one reported first. Kind 4, a30 and a31 while the jig runs a
BUNDLE program, is met by no access: the bench then issues the template alone (R322), which JIG.LOAD refuses where it writes
either (R319) and which is there to read them. -/
def State.owners (s : State) (b off n : Nat) : List Nat :=
  (if s.frame.copies.any (fun c => (c.2.clr.cut.receivers c.2.bench).contains b && c.2.owns off n) then [1] else []) ++
    (s.bench b).pend.filterMap (fun p => p.eff.owner off n) ++
    (if s.frame.openM.any (fun m => match s.mortise? m with
      | some r => r.regions.any (fun g => g.1 == b && overlaps g.2.1 g.2.2 off n)
      | none => false) then [5] else [])

def State.trySquare (s : State) : Bool := (s.frame.launch.map (·.tsq)).getD false
/-- In try-square mode a frame-plane access to an owned range is a fault (R180, R384). -/
def State.checkOwner (s : State) (b off n : Nat) : Run Unit :=
  if s.trySquare then
    match s.owners b off n with
    | k :: _ => stop cOwner off k
    | [] => .ok ()
  else .ok ()

/-- A frame-plane access of its own bench's tensor SRAM: range, then owner (R206, R384). -/
def State.checkSram (s : State) (b off n : Nat) : Run Unit := do
  need (decide (off + n ≤ Config.sramBytes)) cSram off 0
  s.checkOwner b off n

/-- A range of bytes that a form touches: offset, length, and the logical index of the element that each byte belongs to (R57). -/
structure Span where
  off : Nat
  len : Nat
  idx : Nat → Nat
/-- The pair of lowest logical index. -/
def lowest : List (Nat × Nat) → Option (Nat × Nat)
  | [] => none
  | p :: l => match lowest l with
    | none => some p
    | some q => if q.1 < p.1 then some q else some p
/-- The elements that a form touches: in range, then owned by no one, the element of lowest logical index reported (R57, R206, R384). -/
def State.checkSpans (s : State) (b : Nat) (rs : List Span) : Run Unit := do
  match lowest (rs.flatMap (fun r => if r.len = 0 ∨ r.off + r.len ≤ Config.sramBytes then []
      else [(r.idx (Config.sramBytes - r.off), max r.off Config.sramBytes)])) with
  | some p => .error (.elem cSram p.2 0 p.1)
  | none =>
    if s.trySquare then
      match lowest (rs.flatMap (fun r => (List.range r.len).filterMap (fun j =>
          if (s.owners b (r.off + j) 1).isEmpty then none else some (r.idx j, r.off + j)))) with
      | some p => .error (.elem cOwner p.2 ((s.owners b p.2 1).headD 0) p.1)
      | none => .ok ()
    else .ok ()
/-- A vector access, by lanes of four bytes. -/
def State.checkLanes (s : State) (b ea n : Nat) : Run Unit := s.checkSpans b [⟨ea, n, (· / 4)⟩]

/-- The effective address of a MEMF form of a bench: aligned down (R206). -/
def State.frameEa (s : State) (b a i size : Nat) : Nat :=
  ((s.bench b).ra a + s.immS 6 i * BitVec.ofNat 64 size).toNat / size * size

/-- A write of a bundle takes effect at the end of its tick (R207). -/
def State.endWrite (s : State) (e : EndWrite) : State := { s with frame := { s.frame with ends := s.frame.ends ++ [e] } }
/-- The order of two writes of a tick (R207, R313). -/
def EndWrite.before (a b : EndWrite) : Bool :=
  decide (a.cls < b.cls) || (a.cls == b.cls && (decide (a.acc < b.acc) || (a.acc == b.acc && (decide (a.bench < b.bench) ||
    (a.bench == b.bench && decide (a.ord < b.ord))))))
def insertEnd (e : EndWrite) : List EndWrite → List EndWrite
  | [] => [e]
  | f :: l => if e.before f then e :: f :: l else f :: insertEnd e l
def byEnd (l : List EndWrite) : List EndWrite := l.foldl (fun a e => insertEnd e a) []


/-- The bytes that a kept write leaves at its address, with the flags of a reduction's step (R306). -/
def EndWrite.result (e : EndWrite) (m : Mem) : List Byte × Nat :=
  match e.op with
  | .bytes bs => (bs, 0)
  | .elem half odd v => (putCode half odd v (m.rawBytes e.pa (spanOf half)), 0)
  | .reduce red v =>
    let q := redStep red (leNat (m.rawBytes e.pa 4)) v
    (leBytes 4 q.1, q.2)
/-- Whether an engine makes the write. -/
def EndOp.byEngine : EndOp → Bool
  | .bytes _ => false
  | _ => true
/-- Whether a kept write is a landing, and not a store of the tick's bundles. -/
def EndWrite.isLanding (e : EndWrite) : Bool := e.cls != 3
/-- Memory with what has landed at this tick in it: data are readable from the tick at which they are due (R5, R169), where a store of the
tick is not (R207; DEDUCED, log 46). -/
def State.arrived (s : State) : Mem :=
  (byEnd (s.frame.ends.filter (·.isLanding))).foldl (fun m e => m.rawPut e.pa (e.result m).1) s.mem
/-- Bytes of a bench's tensor SRAM as a load of the tick reads them. -/
def State.sramBytes (s : State) (b off n : Nat) : List Byte := s.arrived.rawBytes (sramPa b off) n

/-- VLD (R206). -/
def execVld (t : Imm6) : State → Host.Outcome State Fault Refusal :=
  frame 0x66 0 t.g t.d t.a t.i (fun bn sl s => do
    let k := s.bench bn
    let n := k.width sl / 8
    let ea := s.frameEa bn t.a t.i n
    s.checkLanes bn ea n
    pure (s.setBench bn (k.laterV 5 t.d 0 (8 * n) (leNat (s.sramBytes bn ea n)))))

/-- VST (R206). -/
def execVst (t : Imm6) : State → Host.Outcome State Fault Refusal :=
  frame 0x66 1 t.g t.d t.a t.i (fun bn sl s => do
    let k := s.bench bn
    let n := k.width sl / 8
    let ea := s.frameEa bn t.a t.i n
    s.checkLanes bn ea n
    pure (s.endWrite ⟨3, 0, bn, sl.idx, sramPa bn ea, .bytes (leBytes n (k.rv t.d))⟩))

/-- VLDB: one word to every lane (R206). -/
def execVldb (t : Imm6) : State → Host.Outcome State Fault Refusal :=
  frame 0x66 2 t.g t.d t.a t.i (fun bn sl s => do
    let k := s.bench bn
    let ea := s.frameEa bn t.a t.i 4
    s.checkLanes bn ea 4
    pure (s.setBench bn (k.laterV 5 t.d 0 (k.width sl)
      (ofLanes 32 (List.replicate (k.width sl / 32) (leNat (s.sramBytes bn ea 4)))))))

/-- VSTM: the lanes that the register after D marks; D is even (R206). -/
def execVstm (t : Imm6) : State → Host.Outcome State Fault Refusal :=
  frameIf 0x66 3 t.g t.d t.a t.i (fun _ _ => t.d % 2 == 0) (fun bn sl s => do
    let k := s.bench bn
    let n := k.width sl / 8
    let ea := s.frameEa bn t.a t.i n
    s.checkLanes bn ea n
    pure ((List.range (n / 4)).foldl (fun u i =>
      if isSet (k.vl 32 (t.d + 1) i) then
        u.endWrite ⟨3, 0, bn, sl.idx, sramPa bn (ea + 4 * i), .bytes (leBytes 4 (k.vl 32 t.d i))⟩
      else u) s))

/-! ### Register moves (R208) -/

/-- VMOVA: one lane to an a register; n is below W/32 (R208). -/
def execVmova (t : BinN) : State → Host.Outcome State Fault Refusal :=
  frameIf 0x67 0 t.g t.d t.a t.n (fun k sl => decide (t.n < k.width sl / 32)) (fun bn _ s =>
    let k := s.bench bn
    .ok (s.setBench bn (k.later 2 (.a t.d (BitVec.ofNat 64 (k.vl 32 t.a t.n))))))

/-- VMOVV (R208). -/
def execVmovv (t : Bin) : State → Host.Outcome State Fault Refusal :=
  vBin 0x67 1 1 32 clean t

/-- VSPLAT (R208). -/
def execVsplat (t : Bin) : State → Host.Outcome State Fault Refusal :=
  vForm 0x67 2 1 32 t.g t.d t.a 0 (fun k _ => clean ((k.ra t.a).toNat % 2 ^ 32))

/-- VIOTA (R208). -/
def execViota (t : Bin) : State → Host.Outcome State Fault Refusal :=
  vForm 0x67 3 1 32 t.g t.d t.a 0 (fun k i => clean (((k.ra t.a).toNat + i) % 2 ^ 32))

end Sys2Proof.Machine
end

