-- ==== Sys2Proof/Machine/FrameCtl.lean ====
section
/-! DEFINITION. Majors 0x7C and 0x7D (R209 to R216): anchors, pause points, the mortise latch outcome, the slip log, the
frame counter, sequence lengths, the end of a block, and the bundle header (R63, R66). -/

namespace Sys2Proof.Machine

/-- The launch that runs, with a blank one where none does. -/
def State.flen (s : State) : Nat := s.frame.flen.toNat

/-- An anchor syllable issues at its anchor tick: later offsets of the block count from it (R169, R210). -/
def execAnchor (t : Anchor) : State → Host.Outcome State Fault Refusal :=
  frame 0x7C 0 0 0 0 t.i (fun bn _ s =>
    .ok (s.modBench bn (fun k => { k with lastAnchor := k.release + s.immU 6 t.i })))

/-- MLATCH: the outcome of the mortise's most recent latch on this bench (R212). -/
def execMlatch (t : DImm) : State → Host.Outcome State Fault Refusal :=
  frame 0x7C 1 t.g t.d 0 t.i (fun bn _ s =>
    .ok (s.modBench bn (fun k => k.later 1 (.g t.d (tgetD k.mlatch (s.immU 6 t.i) false)))))

/-- SLIPCHK: TOTAL as the entries of earlier ticks leave it, less A (R213). -/
def execSlipchk (t : Bin) : State → Host.Outcome State Fault Refusal :=
  frame 0x7C 2 t.g t.d t.a 0 (fun bn _ s =>
    .ok (s.modBench bn (fun k =>
      k.later 1 (.a t.d (BitVec.ofNat 64 (subW 32 (s.frame.total - s.frame.slipsNow) (k.ra t.a).toNat))))))

/-- FCNT: the counter, the frame, the frame tick, or FLAGS, which selector 4 also clears (R214). -/
def execFcnt (t : Tri) : State → Host.Outcome State Fault Refusal :=
  frameIf 0x7C 3 t.g t.d t.a t.b (fun _ _ => t.a == 0 || t.b == 4) (fun bn _ s =>
    let k := s.bench bn
    let f := s.frame.fcnt.toNat
    let v : W64 := match t.b with
      | 0 => s.frame.fcnt
      | 1 => BitVec.ofNat 64 (f / s.flen)
      | 2 => BitVec.ofNat 64 (f % s.flen)
      | _ => k.flags
    let k1 := if t.b = 4 then { k with flags := w1c 7 k.flags (k.ra t.a) } else k
    .ok (s.setBench bn (k1.later 1 (.a t.d v))))

/-- SEQL: write a sequence length, at latency 1 (R188, R215). -/
def execSeql (t : SeqlWr) : State → Host.Outcome State Fault Refusal :=
  frame 0x7D 0 t.g t.d t.a 0 (fun bn _ s =>
    .ok (s.modBench bn (fun k => k.later 1 (.seqlen t.d ((k.ra t.a).setWidth 32)))))

/-- SEQL in its reading mode (R215). -/
def execSeqlRead (t : SeqlRd) : State → Host.Outcome State Fault Refusal :=
  frame 0x7D 0 t.g t.d t.a 1 (fun bn _ s =>
    .ok (s.modBench bn (fun k => k.later 1 (.a t.d ((tgetD k.seqlen t.a 0).setWidth 64)))))

/-- BHALT: the block ends, and an open kernel closes (R166, R216). -/
def execBhalt (t : Nul) : State → Host.Outcome State Fault Refusal :=
  frame 0x7D 1 t.g 0 0 0 (fun bn _ s =>
    .ok (s.modBench bn (fun k => { k with busy := false, kctl := setFld k.kctl 63 1 0 })))

/-- Width in bits of a header's width code (R63). -/
def widthOf (w : Nat) : Nat := 256 * 2 ^ w

/-- BHDR: the header of a bundle gives the V slots their widths (R63); a reserved width, the width of an absent V slot,
an EXT bit of an absent slot, and a pause point without an anchor are illegal (R66, R174), as a BHDR in a slot is. -/
def execBhdr (t : Bhdr) (s : State) : Host.Outcome State Fault Refusal :=
  match s.ctl.cur with
  | .header b =>
    let bad := t.w == 3 || t.v == 3 || (!bitOf t.p 4 && t.w != 0) || (!bitOf t.p 3 && t.v != 0) ||
      (List.range 8).any (fun i => bitOf t.x i && !bitOf t.p i) || (t.k == 1 && t.n == 0) || ((t.s == 1) != (t.p == 0))
    if bad then finishF' s b illegal
    else .next (s.modBench b (fun k => { k with w0 := widthOf t.w, w1 := widthOf t.v })).retire
  | .slot b _ => finishF' s b illegal
  | .ctx c => s.onCtx c 0x7D 3 0 0 0 0 true illegal (fun _ => illegal)
  | .none => .next s

end Sys2Proof.Machine
end

