-- ==== Sys2Proof/Machine/Scalar.lean ====
section
/-! DEFINITION. Majors 0x00 to 0x25 (R80 to R103): scalar arithmetic, immediates, predicates, selection, control
transfers, kernels and WFE, on both planes. -/

namespace Sys2Proof.Machine

/-! ### Shared forms -/

/-- A three-register form: on the weave plane at once, on the frame plane after `lat` ticks (R80, R81). -/
def triAlu (maj x lat : Nat) (f : W64 → W64 → W64) (t : Tri) : State → Host.Outcome State Fault Refusal :=
  both maj x t.g t.d t.a t.b noPre
    (fun c s =>
      let ra := s.src c t.a
      let rb := ra.2.src c t.b
      .ok (rb.2.dst c t.d (f ra.1 rb.1)))
    (fun b _ s => .ok (s.modBench b (fun k => k.later lat (.a t.d (f (k.ra t.a) (k.ra t.b))))))

/-- A form of one source, its B field unused. -/
def binAlu (maj x lat : Nat) (f : W64 → W64) (t : Bin) : State → Host.Outcome State Fault Refusal :=
  both maj x t.g t.d t.a 0 noPre
    (fun c s =>
      let ra := s.src c t.a
      .ok (ra.2.dst c t.d (f ra.1)))
    (fun b _ s => .ok (s.modBench b (fun k => k.later lat (.a t.d (f (k.ra t.a))))))

/-- An immediate form; `imm` gives the value or the reason that the immediate is illegal. -/
def immAlu (maj x lat : Nat) (g d a raw : Nat) (imm : State → Run W64) (f : W64 → W64 → W64) :
    State → Host.Outcome State Fault Refusal :=
  both maj x g d a raw (fun s _ => (imm s).map (fun _ => ()))
    (fun c s => do
      let i ← imm s
      let ra := s.src c a
      pure (ra.2.dst c d (f ra.1 i)))
    (fun b _ s => do
      let i ← imm s
      pure (s.modBench b (fun k => k.later lat (.a d (f (k.ra a) i)))))

/-- The signed immediate of an IMM form (R85). -/
def simm8 (i : Nat) (s : State) : Run W64 := .ok (s.immS 8 i)
/-- A shift amount, natural, 0 to 63 (R85). -/
def shiftImm (i : Nat) (s : State) : Run W64 :=
  if s.immU 8 i ≤ 63 then .ok (BitVec.ofNat 64 (s.immU 8 i)) else illegal

/-- A comparison into a predicate or guard (R87). -/
def triCmp (maj x : Nat) (f : W64 → W64 → Bool) (t : Tri) : State → Host.Outcome State Fault Refusal :=
  both maj x t.g t.d t.a t.b noPre
    (fun c s =>
      let ra := s.src c t.a
      let rb := ra.2.src c t.b
      .ok (rb.2.modCtx c (fun k => k.setP t.d (f ra.1 rb.1))))
    (fun b _ s => .ok (s.modBench b (fun k => k.later 1 (.g t.d (f (k.ra t.a) (k.ra t.b))))))

/-- A comparison with the six-bit immediate (R87). -/
def immCmp (maj x : Nat) (f : W64 → W64 → Bool) (t : Imm6) : State → Host.Outcome State Fault Refusal :=
  both maj x t.g t.d t.a t.i noPre
    (fun c s =>
      let ra := s.src c t.a
      .ok (ra.2.modCtx c (fun k => k.setP t.d (f ra.1 (s.immS 6 t.i)))))
    (fun b _ s => .ok (s.modBench b (fun k => k.later 1 (.g t.d (f (k.ra t.a) (s.immS 6 t.i))))))

/-- A combination of predicates (R88). -/
def predOp (maj x g d a b : Nat) (f : Bool → Bool → Bool) : State → Host.Outcome State Fault Refusal :=
  both maj x g d a b noPre
    (fun c s => .ok (s.modCtx c (fun k => k.setP d (f (k.p a) (k.p b)))))
    (fun bn _ s => .ok (s.modBench bn (fun k => k.later 1 (.g d (f (k.rg a) (k.rg b))))))

/-! ### Values (R83, R84) -/

def sext32 (v : W64) : W64 := (v.setWidth 32).signExtend 64
def divS (a b : W64) : W64 :=
  if b = 0 then BitVec.allOnes 64
  else if a.toInt = -2 ^ 63 ∧ b.toInt = -1 then a
  else BitVec.ofInt 64 (a.toInt.tdiv b.toInt)
def remS (a b : W64) : W64 :=
  if b = 0 then a
  else if a.toInt = -2 ^ 63 ∧ b.toInt = -1 then 0
  else BitVec.ofInt 64 (a.toInt - b.toInt * a.toInt.tdiv b.toInt)
def divU (a b : W64) : W64 := if b = 0 then BitVec.allOnes 64 else BitVec.ofNat 64 (a.toNat / b.toNat)
def remU (a b : W64) : W64 := if b = 0 then a else BitVec.ofNat 64 (a.toNat % b.toNat)
def mulHS (a b : W64) : W64 := BitVec.ofInt 64 (a.toInt * b.toInt / 2 ^ 64)
def mulHU (a b : W64) : W64 := BitVec.ofNat 64 (a.toNat * b.toNat / 2 ^ 64)
def sar (a : W64) (n : Nat) : W64 := a.sshiftRight n
def shAmt (b : W64) : Nat := b.toNat % 64


/-! ### Majors 0x00 to 0x07 -/

/-- ADD (R83). -/
def execAdd (t : Tri) : State → Host.Outcome State Fault Refusal := triAlu 0 0 1 (fun a b => a + b) t

/-- SUB (R83). -/
def execSub (t : Tri) : State → Host.Outcome State Fault Refusal := triAlu 0 1 1 (fun a b => a - b) t

/-- ADDW (R83). -/
def execAddw (t : Tri) : State → Host.Outcome State Fault Refusal := triAlu 0 2 1 (fun a b => sext32 (a + b)) t

/-- SUBW (R83). -/
def execSubw (t : Tri) : State → Host.Outcome State Fault Refusal := triAlu 0 3 1 (fun a b => sext32 (a - b)) t

/-- AND (R83). -/
def execAnd (t : Tri) : State → Host.Outcome State Fault Refusal := triAlu 1 0 1 (fun a b => a &&& b) t

/-- OR (R83). -/
def execOr (t : Tri) : State → Host.Outcome State Fault Refusal := triAlu 1 1 1 (fun a b => a ||| b) t

/-- XOR (R83). -/
def execXor (t : Tri) : State → Host.Outcome State Fault Refusal := triAlu 1 2 1 (fun a b => a ^^^ b) t

/-- ANDN (R83). -/
def execAndn (t : Tri) : State → Host.Outcome State Fault Refusal := triAlu 1 3 1 (fun a b => a &&& ~~~b) t

/-- SHL (R83). -/
def execShl (t : Tri) : State → Host.Outcome State Fault Refusal := triAlu 2 0 1 (fun a b => a <<< shAmt b) t

/-- SHR (R83). -/
def execShr (t : Tri) : State → Host.Outcome State Fault Refusal := triAlu 2 1 1 (fun a b => a >>> shAmt b) t

/-- SAR (R83). -/
def execSar (t : Tri) : State → Host.Outcome State Fault Refusal := triAlu 2 2 1 (fun a b => sar a (shAmt b)) t

/-- ROT (R83). -/
def execRot (t : Tri) : State → Host.Outcome State Fault Refusal := triAlu 2 3 1 (fun a b => a.rotateRight (shAmt b)) t

/-- MUL (R83). -/
def execMul (t : Tri) : State → Host.Outcome State Fault Refusal := triAlu 3 0 3 (fun a b => a * b) t

/-- MULH (R83). -/
def execMulh (t : Tri) : State → Host.Outcome State Fault Refusal := triAlu 3 1 3 (fun a b => mulHS a b) t

/-- MULHU (R83). -/
def execMulhu (t : Tri) : State → Host.Outcome State Fault Refusal := triAlu 3 2 3 (fun a b => mulHU a b) t

/-- MULW (R83). -/
def execMulw (t : Tri) : State → Host.Outcome State Fault Refusal := triAlu 3 3 3 (fun a b => sext32 (a * b)) t

/-- DIV (R83, R84). -/
def execDiv (t : Tri) : State → Host.Outcome State Fault Refusal := triAlu 4 0 18 (fun a b => divS a b) t

/-- DIVU (R83, R84). -/
def execDivu (t : Tri) : State → Host.Outcome State Fault Refusal := triAlu 4 1 18 (fun a b => divU a b) t

/-- REM (R83, R84). -/
def execRem (t : Tri) : State → Host.Outcome State Fault Refusal := triAlu 4 2 18 (fun a b => remS a b) t

/-- REMU (R83, R84). -/
def execRemu (t : Tri) : State → Host.Outcome State Fault Refusal := triAlu 4 3 18 (fun a b => remU a b) t

/-- MIN (R83). -/
def execMin (t : Tri) : State → Host.Outcome State Fault Refusal := triAlu 5 0 1 (fun a b => if b.slt a then b else a) t

/-- MAX (R83). -/
def execMax (t : Tri) : State → Host.Outcome State Fault Refusal := triAlu 5 1 1 (fun a b => if a.slt b then b else a) t

/-- MINU (R83). -/
def execMinu (t : Tri) : State → Host.Outcome State Fault Refusal := triAlu 5 2 1 (fun a b => if b.ult a then b else a) t

/-- MAXU (R83). -/
def execMaxu (t : Tri) : State → Host.Outcome State Fault Refusal := triAlu 5 3 1 (fun a b => if a.ult b then b else a) t

/-- SEQ (R83). -/
def execSeq (t : Tri) : State → Host.Outcome State Fault Refusal := triAlu 6 0 1 (fun a b => ofBool (a == b)) t

/-- SLT (R83). -/
def execSlt (t : Tri) : State → Host.Outcome State Fault Refusal := triAlu 6 1 1 (fun a b => ofBool (a.slt b)) t

/-- SLTU (R83). -/
def execSltu (t : Tri) : State → Host.Outcome State Fault Refusal := triAlu 6 2 1 (fun a b => ofBool (a.ult b)) t

/-- SNE (R83). -/
def execSne (t : Tri) : State → Host.Outcome State Fault Refusal := triAlu 6 3 1 (fun a b => ofBool (a != b)) t

/-- CLZ: leading zeros, 64 for zero (R83). -/
def execClz (t : Bin) : State → Host.Outcome State Fault Refusal := binAlu 7 0 1 (fun a => BitVec.ofNat 64 (64 - bitLen 64 a.toNat)) t

/-- CTZ: trailing zeros, 64 for zero (R83). -/
def execCtz (t : Bin) : State → Host.Outcome State Fault Refusal := binAlu 7 1 1 (fun a => BitVec.ofNat 64 (ctz 64 a.toNat)) t

/-- POPC: ones (R83). -/
def execPopc (t : Bin) : State → Host.Outcome State Fault Refusal := binAlu 7 2 1 (fun a => BitVec.ofNat 64 (ones 64 a.toNat)) t

/-- BREV: bit i moves to bit 63 - i (R83). -/
def execBrev (t : Bin) : State → Host.Outcome State Fault Refusal := binAlu 7 3 1 (fun a => BitVec.ofNat 64 (brev 64 a.toNat)) t

/-! ### Majors 0x08 to 0x12 -/

/-- ADDI (R85). -/
def execAddi (t : Imm8) : State → Host.Outcome State Fault Refusal :=
  immAlu 8 0 1 t.g t.d t.a t.i (simm8 t.i) (fun a i => a + i)

/-- ANDI (R85). -/
def execAndi (t : Imm8) : State → Host.Outcome State Fault Refusal :=
  immAlu 9 0 1 t.g t.d t.a t.i (simm8 t.i) (fun a i => a &&& i)

/-- ORI (R85). -/
def execOri (t : Imm8) : State → Host.Outcome State Fault Refusal :=
  immAlu 10 0 1 t.g t.d t.a t.i (simm8 t.i) (fun a i => a ||| i)

/-- XORI (R85). -/
def execXori (t : Imm8) : State → Host.Outcome State Fault Refusal :=
  immAlu 11 0 1 t.g t.d t.a t.i (simm8 t.i) (fun a i => a ^^^ i)

/-- SHLI (R85). -/
def execShli (t : Imm8) : State → Host.Outcome State Fault Refusal :=
  immAlu 12 0 1 t.g t.d t.a t.i (shiftImm t.i) (fun a i => a <<< i.toNat)

/-- SHRI (R85). -/
def execShri (t : Imm8) : State → Host.Outcome State Fault Refusal :=
  immAlu 13 0 1 t.g t.d t.a t.i (shiftImm t.i) (fun a i => a >>> i.toNat)

/-- SARI (R85). -/
def execSari (t : Imm8) : State → Host.Outcome State Fault Refusal :=
  immAlu 14 0 1 t.g t.d t.a t.i (shiftImm t.i) (fun a i => sar a i.toNat)

/-- SLTI (R85). -/
def execSlti (t : Imm8) : State → Host.Outcome State Fault Refusal :=
  immAlu 15 0 1 t.g t.d t.a t.i (simm8 t.i) (fun a i => ofBool (a.slt i))

/-- SLTIU (R85). -/
def execSltiu (t : Imm8) : State → Host.Outcome State Fault Refusal :=
  immAlu 16 0 1 t.g t.d t.a t.i (simm8 t.i) (fun a i => ofBool (a.ult i))

/-- LI: the sign-extended immediate (R86). -/
def execLi (t : Wide) : State → Host.Outcome State Fault Refusal :=
  both 0x11 0 t.g t.d 0 t.i noPre
    (fun c s => .ok (s.dst c t.d (s.immS 14 t.i)))
    (fun b _ s => .ok (s.modBench b (fun k => k.later 1 (.a t.d (s.immS 14 t.i)))))

/-- LIH: bits [63:32] of D; an immediate with a one in [37:32] is illegal (R86). -/
def execLih (t : Wide) : State → Host.Outcome State Fault Refusal :=
  both 0x12 0 t.g t.d 0 t.i (fun s _ => need (decide (s.immU 14 t.i < 2 ^ 32)) cIllegal 0 0)
    (fun c s => .ok (s.modCtx c (fun k => k.setX t.d (setFld (k.x t.d) 32 32 (s.immU 14 t.i)))))
    (fun b _ s => do
      need (decide (s.immU 14 t.i < 2 ^ 32)) cIllegal 0 0
      pure (s.modBench b (fun k => k.later 1 (.a t.d (setFld (k.ra t.d) 32 32 (s.immU 14 t.i))))))

/-! ### Predicates and selection -/

/-- CMP.EQ (R87). -/
def execCmpEq (t : Tri) : State → Host.Outcome State Fault Refusal := triCmp 0x13 0 (fun a b => a == b) t

/-- CMPI.EQ (R87). -/
def execCmpiEq (t : Imm6) : State → Host.Outcome State Fault Refusal := immCmp 0x14 0 (fun a b => a == b) t

/-- CMP.LT (R87). -/
def execCmpLt (t : Tri) : State → Host.Outcome State Fault Refusal := triCmp 0x13 1 (fun a b => a.slt b) t

/-- CMPI.LT (R87). -/
def execCmpiLt (t : Imm6) : State → Host.Outcome State Fault Refusal := immCmp 0x14 1 (fun a b => a.slt b) t

/-- CMP.LTU (R87). -/
def execCmpLtu (t : Tri) : State → Host.Outcome State Fault Refusal := triCmp 0x13 2 (fun a b => a.ult b) t

/-- CMPI.LTU (R87). -/
def execCmpiLtu (t : Imm6) : State → Host.Outcome State Fault Refusal := immCmp 0x14 2 (fun a b => a.ult b) t

/-- CMP.NE (R87). -/
def execCmpNe (t : Tri) : State → Host.Outcome State Fault Refusal := triCmp 0x13 3 (fun a b => a != b) t

/-- CMPI.NE (R87). -/
def execCmpiNe (t : Imm6) : State → Host.Outcome State Fault Refusal := immCmp 0x14 3 (fun a b => a != b) t

/-- PAND (R88). -/
def execPand (t : Tri) : State → Host.Outcome State Fault Refusal := predOp 0x15 0 t.g t.d t.a t.b (fun a b => a && b)

/-- POR (R88). -/
def execPor (t : Tri) : State → Host.Outcome State Fault Refusal := predOp 0x15 1 t.g t.d t.a t.b (fun a b => a || b)

/-- PXOR (R88). -/
def execPxor (t : Tri) : State → Host.Outcome State Fault Refusal := predOp 0x15 2 t.g t.d t.a t.b (fun a b => a != b)

/-- PNOT (R88). -/
def execPnot (t : Bin) : State → Host.Outcome State Fault Refusal := predOp 0x15 3 t.g t.d t.a 0 (fun a _ => !a)

/-- SEL: the guard is the selector, and SEL is never nullified (R89). -/
def execSel (t : Tri) (s : State) : Host.Outcome State Fault Refusal :=
  match s.ctl.cur with
  | .ctx c => s.onCtx c 0x16 0 t.g t.d t.a t.b true (.ok ()) (fun s =>
      let ra := s.src c t.a
      let rb := ra.2.src c t.b
      .ok (rb.2.dst c t.d (if (s.ctx c).guard t.g then ra.1 else rb.1)))
  | .slot b sl => s.onSlot b sl 0x16 0 t.g t.d t.a t.b true (fun s =>
      .ok (s.modBench b (fun k => k.later 1 (.a t.d (if k.rg t.g then k.ra t.a else k.ra t.b)))))
  | _ => .next s

/-- LEA: A + (B << scale) (R90). -/
def execLea (t : Lea) : State → Host.Outcome State Fault Refusal :=
  triAlu 0x17 t.c 1 (fun a b => a + (b <<< t.c)) ⟨t.s, t.g, t.d, t.a, t.b⟩

/-- The position and length of EXTR and INS, which need an EXT (R69, R91). -/
def posLen (i : Nat) (s : State) : Run (Nat × Nat) :=
  match s.ctl.ext with
  | none => illegal
  | some e =>
    let len := fld e 0 6 + 1
    if e < 64 ∧ i + len ≤ 64 then .ok (i, len) else illegal

/-- EXTR: a zero-extended field of A (R91). -/
def execExtr (t : Imm6) : State → Host.Outcome State Fault Refusal :=
  both 0x18 0 t.g t.d t.a t.i (fun s _ => (posLen t.i s).map (fun _ => ()))
    (fun c s => do
      let pl ← posLen t.i s
      let ra := s.src c t.a
      pure (ra.2.dst c t.d (BitVec.ofNat 64 (fld ra.1.toNat pl.1 pl.2))))
    (fun b _ s => do
      let pl ← posLen t.i s
      pure (s.modBench b (fun k => k.later 1 (.a t.d (BitVec.ofNat 64 (fld (k.ra t.a).toNat pl.1 pl.2))))))

/-- INS: the low bits of A into a field of D (R91). -/
def execIns (t : Imm6) : State → Host.Outcome State Fault Refusal :=
  both 0x18 1 t.g t.d t.a t.i (fun s _ => (posLen t.i s).map (fun _ => ()))
    (fun c s => do
      let pl ← posLen t.i s
      let ra := s.src c t.a
      pure (ra.2.modCtx c (fun k => k.setX t.d (setFld (k.x t.d) pl.1 pl.2 ra.1.toNat))))
    (fun b _ s => do
      let pl ← posLen t.i s
      pure (s.modBench b (fun k => k.later 1 (.a t.d (setFld (k.ra t.d) pl.1 pl.2 (k.ra t.a).toNat)))))

/-! ### Control transfers (R92 to R94) -/

/-- The syllable at a code address of an expanded segment: its word, and whether its bitmap bit is 1 (R71). -/
def Half.at_ (h : Half) (addr : Nat) : Option (Nat × Bool) :=
  if h.body ≤ addr ∧ addr % 4 = 0 ∧ (addr - h.body) / 4 < h.nsyl then
    let i := (addr - h.body) / 4
    (h.words[i]?).map (fun w => (w, fld ((h.bitmap.getD (i / 8) 0).toNat) (i % 8) 1 == 1))
  else none

def isBhdr (w : Nat) : Bool := fld w 24 7 == 0x7D && fld w 0 2 == 3

def Bench.halfNow (k : Bench) : Option Half := tget k.halves k.half

/-- A frame target lies in the current segment and is a BHDR (R74). -/
def Bench.checkTarget (k : Bench) (target : Nat) : Run Unit :=
  match k.halfNow.bind (fun h => h.at_ target) with
  | none => stop cFetch target 0
  | some (w, exec) => if !exec then stop cFetch target 0 else if isBhdr w then .ok () else illegal

def kopen (k : Bench) : Bool := bitOf k.kctl.toNat 63

/-- A taken transfer of a bench: the target issues two ticks after (R94), and an open kernel closes (R100). -/
def Bench.jump (k : Bench) (target : Nat) : Run Bench := do
  k.checkTarget target
  pure { k with pc := target, bubble := k.tick + 2, kctl := setFld k.kctl 63 1 0 }

/-- A weave transfer (R94). -/
def Ctx.jump (x : Ctx) (target : Nat) : Ctx := { x with pc := BitVec.ofNat 64 target, jumped := true }

/-- The target of a JUMP syllable (R92). -/
def State.jumpTarget (s : State) (off : Nat) : Nat := (BitVec.ofNat 64 s.ctl.syl + 4 * s.immS 20 off).toNat

/-- BR (R92). -/
def execBr (t : Jump) : State → Host.Outcome State Fault Refusal :=
  both 0x20 0 t.g 0 0 0 noPre
    (fun c s => .ok (s.modCtx c (fun x => x.jump (s.jumpTarget t.i))))
    (fun b _ s => do
      let k ← (s.bench b).jump (s.jumpTarget t.i)
      pure (s.setBench b k))

/-- CALL: the link goes to x1, or to a1 one tick later (R81, R92). -/
def execCall (t : Jump) : State → Host.Outcome State Fault Refusal :=
  both 0x21 0 t.g 0 0 0 noPre
    (fun c s => .ok (s.modCtx c (fun x => (x.setX 1 (BitVec.ofNat 64 (s.ctl.syl + 4))).jump (s.jumpTarget t.i))))
    (fun b _ s => do
      let k ← ((s.bench b).later 1 (.a 1 (BitVec.ofNat 64 s.ctl.link))).jump (s.jumpTarget t.i)
      pure (s.setBench b k))

/-- A register target with bits [1:0] cleared (R14). -/
def regTarget (v : W64) : Nat := v.toNat / 4 * 4

/-- JR and RET (R93). -/
def jumpReg (x : Nat) (t : UnA) : State → Host.Outcome State Fault Refusal :=
  both 0x22 x t.g 0 t.a 0 noPre
    (fun c s => .ok (s.modCtx c (fun k => k.jump (regTarget (k.x t.a)))))
    (fun b _ s => do
      let k ← (s.bench b).jump (regTarget ((s.bench b).ra t.a))
      pure (s.setBench b k))

/-- JR (R93). -/
def execJr (t : UnA) : State → Host.Outcome State Fault Refusal := jumpReg 0 t

/-- RET acts as JR (R93). -/
def execRet (t : UnA) : State → Host.Outcome State Fault Refusal := jumpReg 2 t

/-- JALR: A is read before D is written (R93). -/
def execJalr (t : Bin) : State → Host.Outcome State Fault Refusal :=
  both 0x22 1 t.g t.d t.a 0 noPre
    (fun c s =>
      let target := regTarget ((s.ctx c).x t.a)
      .ok ((s.dst c t.d (BitVec.ofNat 64 (s.ctl.syl + 4))).modCtx c (fun k => k.jump target)))
    (fun b _ s => do
      let k ← ((s.bench b).later 1 (.a t.d (BitVec.ofNat 64 s.ctl.link))).jump (regTarget ((s.bench b).ra t.a))
      pure (s.setBench b k))

/-! ### Kernels (R95 to R100) -/

/-- stage_guards(j) of R98. They are written at the tick of LOOPK or LOOPE, so that a guard of an earlier bundle that lands in g8 to
g15 at the next tick is the one kept (R99 does not say which is: DESIGN CHOICE, log 75). -/
def stageGuards (nstg niter j : Nat) (g : BitVec 16) : BitVec 16 :=
  BitVec.ofNat 16 (g.toNat % 256 + ofLanes 1 ((List.range 8).map (fun s =>
    if s ≤ nstg ∧ s ≤ j ∧ j < niter + s then 1 else 0)) * 256)

/-- LOOPK (R97). -/
def execLoopk (t : Loopk) : State → Host.Outcome State Fault Refusal :=
  frame 0x23 0 0 t.d t.a t.i (fun b _ s => do
    let k := s.bench b
    let n := (k.ra t.a).toNat % 2 ^ 32
    let k1 := { k with kctl := BitVec.ofNat 64 ((if n = 0 then 0 else 2 ^ 63) + t.d * 2 ^ 37 + n), ktrip := 0
                       g := stageGuards t.d n 0 k.g }
    if n = 0 then do
      let k2 ← k1.jump (s.ctl.syl + 4 * s.immU 8 t.i)
      pure (s.setBench b k2)
    else pure (s.setBench b { k1 with ktop := BitVec.ofNat 64 s.ctl.link }))

/-- LOOPE (R98): the taken back edge, a transfer whose target R74 checks, issues on the next tick. -/
def execLoope (_ : Bare) : State → Host.Outcome State Fault Refusal :=
  frame 0x24 0 0 0 0 0 (fun b _ s => do
    let k := s.bench b
    need (kopen k) cIllegal 0 0
    let trip := (k.ktrip.toNat + 1) % 2 ^ 33
    let nstg := fld k.kctl.toNat 37 3
    let niter := fld k.kctl.toNat 0 32
    let k1 := { k with ktrip := BitVec.ofNat 64 trip, kctl := setFld k.kctl 32 5 trip
                       g := stageGuards nstg niter trip k.g }
    if trip < niter + nstg then do
      k.checkTarget k.ktop.toNat
      pure (s.setBench b { k1 with pc := k.ktop.toNat })
    else pure (s.setBench b { k1 with kctl := setFld k1.kctl 63 1 0 }))

/-! ### Waiting for an event (R101 to R103) -/

/-- Cycles that the context has waited, counted from the group's first attempt to issue (DESIGN CHOICE, log 68). -/
def State.waited (s : State) (c : Nat) : Nat := match (s.ctx c).since with
  | some t => s.ctl.now - t
  | none => 0

/-- WFE (R102). An event that arrives in the cycle in progress is seen by a timeout alone, which therefore falls once every group of
the cycle has issued and every other wait has ended; any other end of the wait leaves it pending. -/
def execWfe (t : Tri) : State → Host.Outcome State Fault Refusal :=
  weave 0x25 0 t.g t.d t.a t.b noPre (fun c s => do
    let ra := s.src c t.a
    let rb := ra.2.src c t.b
    let mask : W64 := ra.1 &&& 0x7FF
    let bound := rb.1.toNat
    if mask = 0 ∧ bound = 0 then pure (rb.2.dst c t.d 0)
    else
      let x := s.ctx c
      let ev := x.evpend &&& mask
      if ev ≠ 0 then
        pure ((rb.2.modCtx c (fun y => { y with evpend := y.evpend &&& ~~~ev })).dst c t.d ev)
      else if bound ≠ 0 ∧ bound ≤ s.waited c ∧ .phase phWaits ∉ s.ctl.agenda ∧ .phase phTimeouts ∉ s.ctl.agenda then
        let late := x.evnew &&& mask
        pure ((rb.2.modCtx c (fun y => { y with evnew := y.evnew &&& ~~~late })).dst c t.d late)
      else waitFor (.wfe bound))

end Sys2Proof.Machine
end

