-- ==== Sys2Proof/Machine/Bundle.lean ====
section
/-! DEFINITION. Bundles as words (R63 to R66, R99, R100, R210): their slots, and whether a bundle is legal. -/

namespace Sys2Proof.Machine

/-- A slot's syllable: its address, and the EXT before it. -/
structure SlotSyl where
  name : SlotName
  addr : Nat
  ext : Option Nat
  word : Nat
  deriving DecidableEq, Repr

/-- The header's fields (R63). -/
def presOf (h : Nat) : Nat := fld h 16 8
def xpOf (h : Nat) : Nat := fld h 2 8
def ppOf (h : Nat) : Bool := bitOf h 11
def ancOf (h : Nat) : Bool := bitOf h 10
/-- Syllables of a bundle (R64). -/
def bundleLen (h : Nat) : Nat := 1 + ones 8 (presOf h) + ones 8 (xpOf h)

/-- The slots in order, with their presence bits. -/
def slotBits : List (SlotName × Nat) :=
  [(.a0, 7), (.a1, 6), (.m, 5), (.v0, 4), (.v1, 3), (.x, 2), (.l, 1), (.c, 0)]

/-- Lay the words after a header out over its slots; none where an EXT stands wrong (R64, R66). -/
def laySlots (h : Nat) : List (SlotName × Nat) → Nat → List Nat → Option (List SlotSyl)
  | [], _, ws => if ws.isEmpty then some [] else none
  | (n, bit) :: rest, addr, ws =>
    if !bitOf (presOf h) bit then laySlots h rest addr ws
    else if bitOf (xpOf h) bit then
      match ws with
      | e :: w :: tl =>
        if isExt e && !isExt w then (laySlots h rest (addr + 8) tl).map (fun l => ⟨n, addr + 4, some (fld e 0 24), w⟩ :: l)
        else none
      | _ => none
    else match ws with
      | w :: tl => if isExt w then none else (laySlots h rest (addr + 4) tl).map (fun l => ⟨n, addr, none, w⟩ :: l)
      | [] => none

/-- The registers a field of the frame plane stands for: a from 100, v from 200, guards from 300, handles from 400. a0
and g0 count for nothing (R66). -/
def resF (k : FK) (i : Nat) : List Nat :=
  match k with
  | .a => if i = 0 then [] else [100 + i]
  | .v => [200 + i]
  | .g => if i = 0 then [] else [300 + i]
  | .g2 => [300 + i, 301 + i]
  | .h => [400 + i]
  | _ => []

def isSeql (w : Nat) : Bool := majOf w == 0x7D && xOf w == 0
/-- What a slot reads and writes (R66): SEQL's fields name a register and a sequence length, which one by its mode (R215), the
sequence lengths from 500. Every other KV address register and winnow register belongs to forms of the C slot, of which a bundle has one. -/
def readsF (w : Nat) : List Nat :=
  match sigF (majOf w) (xOf w) with
  | none => []
  | some g =>
    resF .g (grdOf w) ++ resF g.a (aOf w) ++ resF g.b (bOf w) ++ (if g.r || !g.w then resF g.d (dOf w) else []) ++
      (if majOf w == 0x66 && xOf w == 3 then resF .v (dOf w + 1) else []) ++ (if isSeql w then (if bOf w = 0 then resF .a (aOf w) else [500 + aOf w]) else [])
def writesF (w : Nat) : List Nat :=
  match sigF (majOf w) (xOf w) with
  | none => []
  | some g => (if g.w then resF g.d (dOf w) else []) ++ (if majOf w == 0x21 then [101] else []) ++
      (if isSeql w then (if bOf w = 0 then [500 + dOf w] else resF .a (dOf w)) else [])

/-- Two slots keep the independence rule. -/
def independentF (w v : Nat) : Bool :=
  (writesF w).all (fun i => !(readsF v).contains i && !(writesF v).contains i) &&
    (writesF v).all (fun i => !(readsF w).contains i)

def pairwise (p : Nat → Nat → Bool) : List Nat → Bool
  | [] => true
  | a :: l => l.all (p a) && pairwise p l

def isKernelForm (w : Nat) : Bool := majOf w == 0x23 || majOf w == 0x24
def isAnchorSyl (w : Nat) : Bool := (majOf w == 0x7C && xOf w == 0) || (majOf w == 0x7D && xOf w == 2)
def isPauseSyl (w : Nat) : Bool := majOf w == 0x7D && xOf w == 2

/-- Operand limits that a form's own description sets on its encoding (R97, R100, R206, R208, R209, R214, R228, R255). -/
def slotLimit (h : Nat) (s : SlotSyl) : Bool :=
  let w := s.word
  let width := widthOf (match s.name with
    | .v0 => fld h 14 2
    | _ => fld h 12 2)
  match majOf w, xOf w with
  | 0x23, _ => grdOf w == 0 && decide (dOf w < 8)
  | 0x24, _ => grdOf w == 0 && dOf w == 0 && aOf w == 0 && fld w 0 8 == 0
  | 0x66, 3 => dOf w % 2 == 0
  | 0x67, 0 => decide (bOf w < width / 32)
  | 0x68, _ => fld w 5 2 == 0
  | 0x69, _ => xOf w == 3 || fld w 5 2 == 0
  | 0x6C, 0 => fld w 5 3 == 0
  | 0x6B, 0 => dOf w != aOf w
  | 0x6B, 1 => dOf w != aOf w
  | 0x71, 2 => dOf w == 0 || bOf w == 0
  | 0x7C, 0 => grdOf w == 0
  | 0x7C, 3 => aOf w == 0 || bOf w == 4
  | 0x7D, 0 => if bOf w = 0 then decide (dOf w < 8) && decide (aOf w < 32) else decide (dOf w < 32) && decide (aOf w < 8)
  | 0x7D, 2 => grdOf w == 0 && fld w 2 18 != 0
  | _, _ => true

/-- A slot's syllable is legal in its slot (R61, R65, R66, R69). -/
def slotLegal (h : Nat) (s : SlotSyl) : Bool :=
  let w := s.word
  slotTakes s.name (majOf w) (xOf w) && !(isBhdr w) && legalF (majOf w) (xOf w) (dOf w) (aOf w) (bOf w) &&
    (s.ext.isNone || takesExt (majOf w) (xOf w)) && immOk s.ext (majOf w) (xOf w) (rawImm w) && slotLimit h s

/-- A header is legal by itself (R63, R66, R174). -/
def headerLegal (h : Nat) : Bool :=
  isBhdr h && fld h 14 2 != 3 && fld h 12 2 != 3 && (bitOf (presOf h) 4 || fld h 14 2 == 0) &&
    (bitOf (presOf h) 3 || fld h 12 2 == 0) &&
    (List.range 8).all (fun i => !bitOf (xpOf h) i || bitOf (presOf h) i) && (!ppOf h || ancOf h) &&
    (sOf h == (presOf h == 0))

/-- The anchor syllable agrees with the header (R210). -/
def anchorLegal (h : Nat) (ss : List SlotSyl) : Bool :=
  match ss.find? (fun s => s.name == .c) with
  | some c =>
    if ancOf h then isAnchorSyl c.word && (isPauseSyl c.word == ppOf h) else !isAnchorSyl c.word
  | none => !ancOf h

/-- The slots of a legal bundle whose words are given, header first (R66); none where it is illegal. -/
def bundleSlots (addr : Nat) : List Nat → Option (List SlotSyl)
  | [] => none
  | h :: ws =>
    if !headerLegal h || ws.length + 1 != bundleLen h || !(ws.dropLast.all (fun w => !sOf w)) ||
        !((ws.getLast?.map sOf).getD (sOf h)) then none
    else match laySlots h slotBits (addr + 4) ws with
      | none => none
      | some ss =>
        let ms := ss.map (·.word)
        if ss.all (slotLegal h) && anchorLegal h ss && pairwise independentF ms &&
            (!ms.any isKernelForm || ms.all (fun w => (writesF w).all (fun i => decide (i < 308) || decide (316 ≤ i))))
        then some ss else none

end Sys2Proof.Machine
end

