-- ==== Sys2Proof/Machine/Matrix.lean ====
section
/-! DEFINITION. Majors 0x68 to 0x6D (R217 to R243): matrix products in the order of R54, operand latches, accumulator
slots, streaming soft-maximum and packed dot products. -/

namespace Sys2Proof.Machine

/-! ### Operand descriptors (R218, R219) -/

structure MatDesc where
  fmt : Nat
  geo : Nat
  tbl : Nat
  soff : Nat
  stride : Nat
  base : Nat
  deriving DecidableEq, Repr

def matDesc (v : Nat) : MatDesc :=
  ⟨fld v 56 8, fld v 54 2, fld v 50 4, 64 * fld v 32 16, 64 * fld v 22 10, fld v 0 22⟩

/-- The class of operand formats of the table of R219. -/
inductive MatClass where
  | b8 | i8 | i4 | bf
  deriving DecidableEq, Repr

def matClass (fmt geo tbl : Nat) : Option MatClass :=
  if isB8 fmt then some .b8
  else match fmt with
    | 1 => some .i8
    | 5 => some .i8
    | 9 => some .i4
    | 0x12 => if geo = 3 ∧ tbl = 0 then some .bf else none
    | _ => none

/-- The checks of R219 on a descriptor's own fields. -/
def State.checkDesc (s : State) (v : Nat) : Run MatDesc :=
  let d := matDesc v
  if fld v 48 2 != 0 || d.stride == 0 || d.base % 64 != 0 || (d.tbl != 0 && !tblValid (s.compander d.tbl)) ||
      (matClass d.fmt d.geo d.tbl).isNone then illegal
  else .ok d

/-- The bytes that a row of `k` elements spans. -/
def rowLen (fmt k : Nat) : Nat := k * fmtWidth fmt / 8
/-- Blocks of a row of `k` elements. -/
def blocksOf (geo k : Nat) : Nat := if geo = 3 then 0 else (k + 16 * 2 ^ geo - 1) / (16 * 2 ^ geo)
def MatDesc.row (d : MatDesc) (r : Nat) : Nat := d.base + d.stride * r
def MatDesc.scaleRow (d : MatDesc) (r : Nat) : Nat := d.soff + 128 / (16 * 2 ^ d.geo) * r

/-- The column, of `k`, of the first element that byte `j` of a row of codes holds; of a sparse row, the first of the group of four
that its kept element or its nibble belongs to (R230; DEDUCED, log 71). -/
def rowColumn (fmt k : Nat) (sparse : Bool) (j : Nat) : Nat :=
  if !sparse then j * 8 / fmtWidth fmt
  else if j < rowLen fmt (k / 2) then j * 8 / fmtWidth fmt / 2 * 4
  else 8 * (j - rowLen fmt (k / 2))
/-- The rows of an operand of `k` columns, `len` bytes each, and their scales (R57, R218). A scale byte has the logical index of the first
column of its block (DEDUCED, log 71). -/
def MatDesc.spans (d : MatDesc) (len k : Nat) (sparse : Bool) : List Span :=
  (List.range 128).map (fun r => ⟨d.row r, len, fun j => r * k + rowColumn d.fmt k sparse j⟩) ++
    (List.range 128).map (fun r => ⟨d.scaleRow r, blocksOf d.geo k, fun j => r * k + j * (16 * 2 ^ d.geo)⟩)
def State.operandCheck (s : State) (b : Nat) (d : MatDesc) (len k : Nat) (sparse : Bool) : Run Unit :=
  s.checkSpans b (d.spans len k sparse)

def State.rowBytes (s : State) (b off n : Nat) : List Byte := s.mem.rawBytes (sramPa b off) n

/-- Element `k` of a row of codes. -/
def codeAt (fmt k : Nat) (row : List Byte) : Nat :=
  let w := fmtWidth fmt
  if w = 4 then fld ((row.getD (k / 2) 0).toNat) (4 * (k % 2)) 4 else leNat ((row.drop (k * w / 8)).take (w / 8))

/-- The value of an operand element (R220), with flags. -/
def State.operandValue (s : State) (fmt geo tbl : Nat) (row scales : List Byte) (k at_ : Nat) : Fv × Nat :=
  let e := if geo = 3 then 127 else (scales.getD (blockOf geo at_) 0).toNat
  let v := dequantValue (s.compander tbl) tbl fmt e (codeAt fmt k row)
  if tbl = 0 then (v.1, 0)
  else let r := finishF f32 .rne 0 v; (f32.value r.1, r.2)

/-! ### Products (R54) -/

def Fv.isNan : Fv → Bool
  | .nan => true
  | _ => false
def Fv.isInf (neg : Bool) : Fv → Bool
  | .inf n => n == neg
  | _ => false
/-- The exact number of a finite value, zero otherwise. -/
def Fv.dy : Fv → Dy
  | .fin d => d
  | _ => Dy.zero false

/-- The exact sum of a group's products (R54). A NaN product settles the group before infinities of both signs are looked for, so
that the two together set no NV (R54 gives no precedence: DESIGN CHOICE, log 75). -/
def groupSum (ps : List (Fv × Nat)) : Fv × Nat :=
  let fl := orFlags (ps.map (fun p => (0, p.2)))
  let vs := ps.map (·.1)
  let pos := vs.any (Fv.isInf false)
  let neg := vs.any (Fv.isInf true)
  if vs.any Fv.isNan then (.nan, fl)
  else if pos && neg then (.nan, fl ||| NV)
  else if pos || neg then (.inf neg, fl)
  else
    let ds := vs.map Fv.dy
    let e := (ds.map (·.e)).foldl min 0
    let n := (ds.map (fun d => d.units e)).foldl (· + ·) 0
    (.fin (Dy.ofInt n e (ds.all (fun d => d.m == 0 && d.neg))), fl)

/-- One step of the accumulation: a group rounded, then added. -/
def accumulate (a : Nat × Nat) (ps : List (Fv × Nat)) : Nat × Nat :=
  let g := finishF f32 .rne 0 (groupSum ps)
  let r := fadd f32 .rne 0 a.1 g.1
  (r.1, r.2 ||| g.2 ||| a.2)

/-- A zero without its sign. -/
def Fv.plusZero : Fv → Fv
  | .fin d => .fin (if d.m = 0 then Dy.zero false else d)
  | v => v
/-- A product of two elements. Integers have no -0, so that a zero product of theirs is +0 (R34, R54); of other elements a zero product
has the XOR of their signs, for a binary8 zero too (DESIGN CHOICE, log 75). -/
def product (ints : Bool) (a b : Fv) : Fv × Nat :=
  let p := a.mul b
  if ints then (p.1.plusZero, p.2) else p
/-- The products of a row of A, given as (logical k, value), with a row of B, by groups of sixteen logical k. -/
def dotRow (ints : Bool) (k : Nat) (as : List (Nat × Fv)) (bs : List Fv) (acc : Nat) : Nat × Nat :=
  (List.range ((k + 15) / 16)).foldl (fun a g =>
    accumulate a ((as.filter (fun p => p.1 / 16 == g)).map (fun p => product ints p.2 (bs.getD p.1 .nan)))) (acc, 0)

/-- The row of A of an MM: every logical k. -/
def State.denseRow (s : State) (d : MatDesc) (k : Nat) (row scales : List Byte) : List (Nat × (Fv × Nat)) :=
  (List.range k).map (fun i => (i, s.operandValue d.fmt d.geo d.tbl row scales i i))
/-- The logical k of kept element `j` of an MMS row (R230). -/
def keptAt (fmt k j : Nat) (row : List Byte) : Nat :=
  let q := j / 2
  let nib := fld ((row.getD (rowLen fmt (k / 2) + q / 2) 0).toNat) (4 * (q % 2)) 4
  4 * q + fld nib (2 * (j % 2)) 2
/-- The row of A of an MMS: its kept elements. -/
def State.keptRow (s : State) (d : MatDesc) (k : Nat) (row scales : List Byte) : List (Nat × (Fv × Nat)) :=
  (List.range (k / 2)).map (fun j =>
    let i := keptAt d.fmt k j row
    (i, s.operandValue d.fmt d.geo d.tbl row scales j i))

/-! ### Slots and hazards (R222 to R225) -/

def negZero : W32 := 0x80000000
def negInf : W32 := 0xFF800000
def AccSlot.at_ (a : AccSlot) (r c : Nat) : Nat := (tgetD a.acc (128 * r + c) 0).toNat
def AccSlot.mAt (a : AccSlot) (r : Nat) : Nat := (tgetD a.m r 0).toNat
def AccSlot.lAt (a : AccSlot) (r : Nat) : Nat := (tgetD a.l r 0).toNat
/-- A table of `n` words. -/
def words (n : Nat) (f : Nat → Nat) : Tbl W32 := (List.range n).map (fun i => (i, BitVec.ofNat 32 (f i)))
/-- A slot with every element `v`, m at -∞ and l at +0. -/
def AccSlot.filled (v : W32) : AccSlot :=
  ⟨words 16384 (fun _ => v.toNat), words 128 (fun _ => negInf.toNat), words 128 (fun _ => 0)⟩

/-- Whether a result in flight goes through handle `h`, and whether it is an MM's or MMS's. -/
def Effect.through (e : Effect) (h : Nat) : Option Bool :=
  match e with
  | .slot j mm _ => if j = h then some mm else none
  | .release j => if j = h then some false else none
  | _ => none
/-- What is in flight through a handle, until it lands (R224, R225). -/
def Bench.flights (k : Bench) (h : Nat) : List Bool :=
  (k.pend.filter (fun p => decide (k.tick < p.at_))).filterMap (fun p => p.eff.through h)
/-- Whether OSM.UPD lands its P rows, with the slot of a handle, at this tick: a product through it is then too early (R355; DEDUCED,
DEDUCED, log 46). -/
def Bench.justSoftened (k : Bench) (h : Nat) : Bool := k.landed.contains (k.tick, h)
/-- The slot a handle names: the newest tile in flight, else what is bound. -/
def Bench.slotOf (k : Bench) (h : Nat) : Option AccSlot :=
  match (k.pend.reverse).findSome? (fun p => match p.eff with
    | .slot j _ s => if j = h then some s else none
    | _ => none) with
  | some s => some s
  | none => tget k.h h

/-- A handle that must be bound (R223). -/
def Bench.bound (k : Bench) (h : Nat) : Run AccSlot :=
  match k.slotOf h with
  | some s => .ok s
  | none => stop cUnalloc h 0
/-- MATRIX_HAZARD of R225. Of several conditions at once the array is reported, then the handle of D, then that of A (R225 gives no
order: DESIGN CHOICE, log 75). -/
def Bench.hazard (k : Bench) (array : Bool) (hs : List Nat) : Run Unit := do
  need (!(array && decide (k.tick < k.arrayBusy))) cMatrix 0x10 0
  for h in hs do
    need (k.flights h).isEmpty cMatrix h 0
/-- A handle's slot lands (R224). -/
def Bench.lands (k : Bench) (lat busy h : Nat) (mm : Bool) (a : AccSlot) (fl : Nat) : Bench :=
  ({ k with arrayBusy := if busy = 0 then k.arrayBusy else k.tick + busy }.later lat (.slot h mm a)).laterFlags lat fl

/-- MM and MMS (R229, R230). -/
def mmForm (maj x : Nat) (cls : MatClass) (sparse : Bool) (busy : Nat → Nat) (t : Mm) :
    State → Host.Outcome State Fault Refusal :=
  frame maj x t.g t.d t.a (32 * t.n + t.k) (fun bn _ s => do
    let kb := s.bench bn
    let k := 16 * (t.k + 1)
    let d ← s.checkDesc (kb.ra t.a).toNat
    need (matClass d.fmt d.geo d.tbl == some cls) cIllegal 0 0
    let l := kb.active
    need (l.valid && matClass l.fmt l.geo l.tbl == some cls && decide (t.k ≤ l.kg) && (l.tbl == 0 || tblValid (s.compander l.tbl)))
      cIllegal 0 0
    let base ← if t.n = 1 then pure (AccSlot.filled negZero) else kb.bound t.d
    need (decide (kb.arrayBusy ≤ kb.tick)) cMatrix 0x10 0
    need ((kb.flights t.d).all id && !kb.justSoftened t.d) cMatrix t.d 0
    let len := if sparse then rowLen d.fmt (k / 2) + k / 8 else rowLen d.fmt k
    s.operandCheck bn d len k sparse
    let as := (List.range 128).map (fun r =>
      let row := s.rowBytes bn (d.row r) len
      let sc := s.rowBytes bn (d.scaleRow r) (blocksOf d.geo k)
      if sparse then s.keptRow d k row sc else s.denseRow d k row sc)
    let bs := (List.range 128).map (fun j => (List.range k).map (fun i =>
      s.operandValue l.fmt l.geo l.tbl (l.rows.getD j []) (l.scales.getD j []) i i))
    let out := (List.range 16384).map (fun n =>
      dotRow ((cls == .i8 || cls == .i4) && d.tbl == 0 && l.tbl == 0) k ((as.getD (n / 128) []).map (fun p => (p.1, p.2.1))) ((bs.getD (n % 128) []).map (·.1))
        (base.at_ (n / 128) (n % 128)))
    let fl := orFlags out ||| orFlags (as.map (fun r => (0, orFlags (r.map (fun p => (0, p.2.2)))))) |||
      orFlags (bs.map (fun r => (0, orFlags (r.map (fun p => (0, p.2))))))
    let acc := (List.range 16384).zip (out.map (fun p => BitVec.ofNat 32 p.1))
    pure (s.setBench bn (kb.lands (busy k + 6) (busy k) t.d true { base with acc := acc } fl)))

/-- MM.B8 (R229). -/
def execMmB8 (t : Mm) : State → Host.Outcome State Fault Refusal := mmForm 0x68 0 .b8 false id t

/-- MM.I8 (R229). -/
def execMmI8 (t : Mm) : State → Host.Outcome State Fault Refusal := mmForm 0x68 1 .i8 false id t

/-- MM.I4 (R229). -/
def execMmI4 (t : Mm) : State → Host.Outcome State Fault Refusal := mmForm 0x68 2 .i4 false (· / 2) t

/-- MM.BF16 (R229). -/
def execMmBf16 (t : Mm) : State → Host.Outcome State Fault Refusal := mmForm 0x68 3 .bf false (2 * ·) t

/-- MMS.B8 (R229, R230). -/
def execMmsB8 (t : Mm) : State → Host.Outcome State Fault Refusal := mmForm 0x69 0 .b8 true (· / 2) t

/-- MMS.I8 (R229, R230). -/
def execMmsI8 (t : Mm) : State → Host.Outcome State Fault Refusal := mmForm 0x69 1 .i8 true (· / 2) t

/-- MMS.BF16 (R229, R230). -/
def execMmsBf16 (t : Mm) : State → Host.Outcome State Fault Refusal := mmForm 0x69 2 .bf true id t

/-! ### SPSEL (R231) -/

/-- Whether `a` has the larger magnitude; a NaN is larger than every number. -/
def largerMag (a b : Fv) : Bool :=
  match a, b with
  | .nan, .nan => false
  | .nan, _ => true
  | _, .nan => false
  | _, _ => b.abs.lt a.abs

/-- The positions kept of a group of four, ascending. -/
def keepTwo (vs : List Fv) : List Nat :=
  (List.range 4).filter (fun i => decide ((List.range 4).countP (fun j =>
    largerMag (vs.getD j .nan) (vs.getD i .nan) ||
      (decide (j < i) && !largerMag (vs.getD i .nan) (vs.getD j .nan))) < 2))

/-- The row layout of R230 from `groups` groups of `w`-bit elements. -/
def spselRow (fmt w groups v : Nat) : Nat :=
  let ks := (List.range groups).map (fun g =>
    keepTwo ((List.range 4).map (fun i => elemValue fmt (lane w (4 * g + i) v))))
  let codes := (List.range groups).flatMap (fun g => (ks.getD g []).map (fun i => lane w (4 * g + i) v))
  let nibs := ks.map (fun l => l.getD 0 0 + 4 * l.getD 1 0)
  ofLanes w codes + 2 ^ 512 * ofLanes 4 nibs

/-- SPSEL (R231). -/
def execSpsel (t : BinN2) : State → Host.Outcome State Fault Refusal :=
  frame 0x69 3 t.g t.d t.a t.n (fun bn _ s => do
    let k := s.bench bn
    let f := k.fmtsel.toNat
    need (t.n == 1 || f == 1 || isB8 f) cIllegal 0 0
    let v := if t.n = 0 then spselRow f 8 32 (k.rv t.a) else spselRow 0x12 16 16 (k.rv t.a)
    pure (s.setBench bn (k.laterV 3 t.d 0 1024 v)))

/-! ### Latches (R232 to R235) -/

/-- LLOAD (R232). -/
def execLload (t : Lload) : State → Host.Outcome State Fault Refusal :=
  frame 0x6C 0 t.g 0 t.a t.k (fun bn _ s => do
    let kb := s.bench bn
    let k := 16 * (t.k + 1)
    let d ← s.checkDesc (kb.ra t.a).toNat
    s.operandCheck bn d (rowLen d.fmt k) k false
    let rows := (List.range 128).map (fun r => s.rowBytes bn (d.row r) (rowLen d.fmt k))
    let sc := (List.range 128).map (fun r => s.rowBytes bn (d.scaleRow r) (blocksOf d.geo k))
    pure (s.setBench bn (kb.later 8 (.latch ⟨true, rows, sc, d.fmt, d.geo, d.tbl, t.k⟩))))

/-- The bench one rail hop east (R156). -/
def eastOf (b : Nat) : Nat := b / 16 * 16 + (b + 1) % 16

/-- LPASS: ACTIVE travels one hop east and lands at the due tick (R233). -/
def execLpass (t : UnA) : State → Host.Outcome State Fault Refusal :=
  frame 0x6C 1 t.g 0 t.a 0 (fun bn _ s => do
    let k := s.bench bn
    let due := k.lastAnchor + (k.ra t.a).toNat % 2 ^ 32
    need (decide (s.frame.fcnt.toNat + 4 ≤ due)) cTimed 0 0
    pure { s with frame := { s.frame with lpass := s.frame.lpass ++ [(eastOf bn, due, k.active)] } })

/-- LSWAP: the roles exchange one tick later (R234). -/
def execLswap (t : Nul) : State → Host.Outcome State Fault Refusal :=
  frame 0x6C 2 t.g 0 0 0 (fun bn _ s => .ok (s.modBench bn (fun k => k.later 1 .swap)))

/-- LSTAT's value (R235). -/
def Bench.lstat (k : Bench) : W64 :=
  BitVec.ofNat 64 ((if k.active.valid then 2 ^ 33 else 0) + (if k.shadow.valid then 2 ^ 32 else 0) +
    k.active.fmt % 256 * 2 ^ 24 + k.shadow.fmt % 256 * 2 ^ 16 + k.active.kg % 8 * 8 + k.shadow.kg % 8)

/-- LSTAT (R235). -/
def execLstat (t : UnD) : State → Host.Outcome State Fault Refusal :=
  frame 0x6C 3 t.g t.d 0 0 (fun bn _ s => .ok (s.modBench bn (fun k => k.later 1 (.a t.d k.lstat))))

/-! ### Accumulator access (R223, R236) -/

/-- A position (R236). -/
def checkPos (v : Nat) : Run Unit :=
  if fld v 10 54 != 0 || (bitOf v 9 && fld v 3 6 != 0) then illegal else .ok ()

/-- The word of a slot that lane `i` of a position names: acc, m or l, and its index. -/
def posWord (v i : Nat) : Nat × Nat :=
  if bitOf v 9 then (1 + i % 2, 16 * fld v 0 3 + i / 2) else (0, 128 * fld v 2 7 + 32 * fld v 0 2 + i)
def AccSlot.word (a : AccSlot) (p : Nat × Nat) : Nat :=
  match p.1 with
  | 0 => (tgetD a.acc p.2 0).toNat
  | 1 => a.mAt p.2
  | _ => a.lAt p.2
def AccSlot.setWord (a : AccSlot) (p : Nat × Nat) (v : Nat) : AccSlot :=
  match p.1 with
  | 0 => { a with acc := tset a.acc p.2 (BitVec.ofNat 32 v) }
  | 1 => { a with m := tset a.m p.2 (BitVec.ofNat 32 v) }
  | _ => { a with l := tset a.l p.2 (BitVec.ofNat 32 v) }

/-- AREL (R223). -/
def execArel (t : HandleD) : State → Host.Outcome State Fault Refusal :=
  frame 0x6A 0 t.g t.d 0 0 (fun bn _ s => do
    let k := s.bench bn
    k.hazard false [t.d]
    pure (s.setBench bn (k.later 1 (.release t.d))))

/-- ARD (R236). -/
def execArd (t : HandleRd) : State → Host.Outcome State Fault Refusal :=
  frame 0x6A 1 t.g t.d t.a t.b (fun bn _ s => do
    let k := s.bench bn
    let p := (k.ra t.b).toNat
    checkPos p
    let a ← k.bound t.a
    k.hazard false [t.a]
    pure (s.setBench bn (k.laterV 4 t.d 0 1024 (ofLanes 32 ((List.range 32).map (fun i => a.word (posWord p i)))))))

/-- AWR (R236). -/
def execAwr (t : HandleAB) : State → Host.Outcome State Fault Refusal :=
  frame 0x6A 2 t.g t.d t.a t.b (fun bn _ s => do
    let k := s.bench bn
    let p := (k.ra t.b).toNat
    checkPos p
    let a ← k.bound t.d
    k.hazard false [t.d]
    let a1 := (List.range 32).foldl (fun q i => q.setWord (posWord p i) (k.vl 32 t.a i)) a
    pure (s.setBench bn (k.lands 1 0 t.d false a1 0)))

/-- AZERO: a bound slot keeps its row state (R236). -/
def execAzero (t : HandleD) : State → Host.Outcome State Fault Refusal :=
  frame 0x6A 3 t.g t.d 0 0 (fun bn _ s => do
    let k := s.bench bn
    k.hazard true [t.d]
    let a := (k.slotOf t.d).getD (AccSlot.filled 0)
    pure (s.setBench bn (k.lands 2 1 t.d false { a with acc := (AccSlot.filled 0).acc } 0)))

/-! ### Streaming soft-maximum (R237 to R241) -/

/-- A row's results: P codes, m, l, acc, flags. -/
structure OsmRow where
  p : List Nat
  m : Nat
  l : Nat
  acc : List Nat
  fl : Nat
  deriving DecidableEq, Repr

/-- exp2 of a difference. -/
def exp2Sub (a b : Nat) : Nat × Nat :=
  let d := fsub f32 .rne 0 a b
  let e := exp2 d.1
  (e.1, d.2 ||| e.2)

/-- Fold one row of scores (R238). -/
def osmRow (fmt : Nat) (sc : List Nat) (m l : Nat) (acc : List Nat) : OsmRow :=
  let m2 := fmax f32 m (sc.foldl (fmax f32) (sc.headD negInf.toNat))
  if m2 = negInf.toNat then ⟨sc.map (fun _ => 0), m, l, acc, 0⟩
  else
    let al := exp2Sub m m2
    let ps := sc.map (fun v => exp2Sub v m2)
    let qs := ps.map (fun p => elemEncode fmt .rne 0 (f32.value p.1))
    let ws := qs.map (fun q => ((f32.ofValue .rne 0 (elemValue fmt q.1)).1, 0))
    let sum := ((treeFold (gather (fadd f32 .rne 0)) 7 ws).head?).getD (0, 0)
    let lm := fmul f32 .rne 0 l al.1
    let l1 := fadd f32 .rne 0 lm.1 sum.1
    let rises := (f32.value m2).isNan || (f32.value m).lt (f32.value m2)
    let ac := if rises then acc.map (fun a => fmul f32 .rne 0 a al.1) else acc.map (fun a => (a, 0))
    ⟨qs.map (·.1), m2, l1.1, ac.map (·.1), al.2 ||| orFlags ps ||| orFlags qs ||| sum.2 ||| lm.2 ||| l1.2 ||| orFlags ac⟩

/-- A slot from its rows. -/
def slotOfRows (rs : List (Nat × Nat × List Nat)) : AccSlot :=
  let acc := rs.flatMap (·.2.2)
  ⟨(List.range 16384).zip (acc.map (BitVec.ofNat 32)), (List.range 128).zip (rs.map (fun r => BitVec.ofNat 32 r.1)),
    (List.range 128).zip (rs.map (fun r => BitVec.ofNat 32 r.2.1))⟩
def AccSlot.row (a : AccSlot) (r : Nat) : List Nat := (List.range 128).map (a.at_ r)

/-- OSM.UPD (R226, R237, R238). -/
def execOsmUpd (t : OsmUpd) : State → Host.Outcome State Fault Refusal :=
  frameIf 0x6B 0 t.g t.d t.a t.b (fun _ _ => t.d != t.a) (fun bn _ s => do
    let k := s.bench bn
    let v := (k.ra t.b).toNat
    let d := matDesc v
    need (fld v 39 11 == 0 && (d.fmt == 0x12 || isB8 d.fmt) && d.geo == 3 && d.tbl == 0 && d.stride != 0 &&
      d.base % 64 == 0) cIllegal 0 0
    let a ← k.bound t.d
    let sc ← k.bound t.a
    k.hazard true [t.d, t.a]
    let len := rowLen d.fmt 128
    s.checkSpans bn ((List.range 128).map (fun r => ⟨d.row r, len, fun j => r * 128 + rowColumn d.fmt 128 false j⟩))
    let ncol := fld v 32 7 + 1
    let rows := (List.range 128).map (fun r =>
      osmRow d.fmt ((List.range 128).map (fun j => if j < ncol then sc.at_ r j else negInf.toNat)) (a.mAt r) (a.lAt r)
        (a.row r))
    let a1 := slotOfRows (rows.map (fun q => (q.m, q.l, q.acc)))
    let fl := orFlags (rows.map (fun q => (0, q.fl)))
    let out := (List.range 128).zip rows |>.map (fun q =>
      (d.row q.1, q.2.p.flatMap (leBytes (fmtWidth d.fmt / 8))))
    pure (s.setBench bn ((k.lands 24 16 t.d false a1 fl).later 24 (.rows t.d out))))

/-- Merge one row (R239): m, l, acc and flags. -/
def mergeRow (m1 l1 : Nat) (a1 : List Nat) (m2 l2 : Nat) (a2 : List Nat) : (Nat × Nat × List Nat) × Nat :=
  if m2 = negInf.toNat ∧ (f32.value m1).isNan = false then ((m1, l1, a1), 0)
  else if m1 = negInf.toNat ∧ (f32.value m2).isNan = false then ((m2, l2, a2), 0)
  else
    let mm := fmax f32 m1 m2
    let e1 := exp2Sub m1 mm
    let e2 := exp2Sub m2 mm
    let mix (a b : Nat) : Nat × Nat :=
      let x := fmul f32 .rne 0 a e1.1
      let y := fmul f32 .rne 0 b e2.1
      let z := fadd f32 .rne 0 x.1 y.1
      (z.1, x.2 ||| y.2 ||| z.2)
    let l := mix l1 l2
    let ac := (a1.zip a2).map (fun p => mix p.1 p.2)
    ((mm, l.1, ac.map (·.1)), e1.2 ||| e2.2 ||| l.2 ||| orFlags ac)

/-- OSM.MRG (R239). -/
def execOsmMrg (t : OsmMrg) : State → Host.Outcome State Fault Refusal :=
  frameIf 0x6B 1 t.g t.d t.a 0 (fun _ _ => t.d != t.a) (fun bn _ s => do
    let k := s.bench bn
    let a ← k.bound t.d
    let b ← k.bound t.a
    k.hazard true [t.d, t.a]
    let rows := (List.range 128).map (fun r => mergeRow (a.mAt r) (a.lAt r) (a.row r) (b.mAt r) (b.lAt r) (b.row r))
    pure (s.setBench bn (k.lands 16 8 t.d false (slotOfRows (rows.map (·.1))) (orFlags (rows.map (fun r => (0, r.2)))))))

/-- EMPTYROW of R242. -/
def EMPTYROW : Nat := 64

/-- OSM.FIN (R240). -/
def execOsmFin (t : HandleD) : State → Host.Outcome State Fault Refusal :=
  frame 0x6B 2 t.g t.d 0 0 (fun bn _ s => do
    let k := s.bench bn
    let a ← k.bound t.d
    k.hazard true [t.d]
    let out := (List.range 16384).map (fun n =>
      let l := a.lAt (n / 128)
      if l % f32.signBit = 0 then (0, EMPTYROW) else fdiv f32 .rne 0 (a.at_ (n / 128) (n % 128)) l)
    let acc := (List.range 16384).zip (out.map (fun p => BitVec.ofNat 32 p.1))
    pure (s.setBench bn (k.lands 16 8 t.d false { a with acc := acc } (orFlags out))))

/-- OSM.RST (R241). -/
def execOsmRst (t : HandleD) : State → Host.Outcome State Fault Refusal :=
  frame 0x6B 3 t.g t.d 0 0 (fun bn _ s => do
    let k := s.bench bn
    k.hazard true [t.d]
    pure (s.setBench bn (k.lands 2 1 t.d false (AccSlot.filled 0) 0)))

/-! ### Packed dot products (R243) -/

/-- A VDOT form of `n` elements of `w` bits in a lane. -/
def vdot (x n w : Nat) (sat : Bool) (t : Tri) : State → Host.Outcome State Fault Refusal :=
  frame 0x6D x t.g t.d t.a t.b (fun bn _ s =>
    let k := s.bench bn
    let r := yMap 32 32 (fun i =>
      let tot := toI 32 (k.vl 32 t.d i) + ((List.range n).map (fun e =>
        toI w (k.vl w t.a (n * i + e)) * toI w (k.vl w t.b (n * i + e)))).foldl (· + ·) 0
      if sat then satI 32 tot else (ofI 32 tot, 0))
    .ok (s.setBench bn ((k.laterV 3 t.d 0 1024 r.1).laterFlags 3 r.2)))

/-- VDOT4.I8 (R243). -/
def execVdot4I8 (t : Tri) : State → Host.Outcome State Fault Refusal := vdot 0 4 8 false t

/-- VDOT4S.I8, saturating (R243). -/
def execVdot4sI8 (t : Tri) : State → Host.Outcome State Fault Refusal := vdot 1 4 8 true t

/-- VDOT2.I16 (R243). -/
def execVdot2I16 (t : Tri) : State → Host.Outcome State Fault Refusal := vdot 2 2 16 false t

/-- VDOT2S.I16, saturating (R243). -/
def execVdot2sI16 (t : Tri) : State → Host.Outcome State Fault Refusal := vdot 3 2 16 true t

end Sys2Proof.Machine
end

