-- ==== Sys2Proof/Machine/Winnow.lean ====
section
/-! DEFINITION. Majors 0x70 and 0x71 (R244 to R255): the winnow table, signatures, the change test and the skip map. -/

namespace Sys2Proof.Machine

/-- The fields of a tile descriptor (R247). -/
structure WinDesc where
  fmt : Nat
  pv : Bool
  pin : Nat
  stride : Nat
  base : Nat
  deriving DecidableEq, Repr

def winDesc (w : W64) : WinDesc :=
  let v := w.toNat
  ⟨fld v 56 8, bitOf v 55, fld v 32 22, 64 * fld v 22 10, fld v 0 22⟩
/-- Bytes of a row of the tile. -/
def WinDesc.rowLen (d : WinDesc) : Nat := if d.fmt = 0x12 then 256 else 512
def WinDesc.row (d : WinDesc) (r : Nat) : Nat := d.base + d.stride * r
def WinDesc.copyRow (d : WinDesc) (r : Nat) : Nat := d.pin + d.rowLen * r

def Bench.entryAt (k : Bench) (n : Nat) : WinEntry := tgetD k.win n WinEntry.zero
/-- WINREF and WINMAP fields (R245). -/
def Bench.step (k : Bench) : Nat := fld k.winref.toNat 32 16
def Bench.rint (k : Bench) : Nat := fld k.winref.toNat 0 16
def Bench.setMap (k : Bench) (n v : Nat) : Bench := { k with winmap := setFld k.winmap n 1 v }

/-- F32 bits of element `j` of a row. -/
def winElem (fmt : Nat) (row : List Byte) (j : Nat) : Nat :=
  if fmt = 0x12 then (f32.ofValue .rne 0 (bf16.value (leNat ((row.drop (2 * j)).take 2)))).1
  else leNat ((row.drop (4 * j)).take 4)

/-- A tree sum in F32, its flags dropped (R248, R249). -/
def treeSum (fuel : Nat) (l : List Nat) : Nat :=
  ((treeFold (fun a b => (fadd f32 .rne 0 a b).1) fuel l).head?).getD 0

/-- The signature of a tile (R248). -/
def State.signature (s : State) (b : Nat) (d : WinDesc) : List Nat :=
  (List.range 16).map (fun band =>
    treeSum 10 ((List.range 8).flatMap (fun r =>
      let row := s.rowBytes b (d.row (8 * band + r)) d.rowLen
      (List.range 128).map (winElem d.fmt row))))

/-- Whether the step is a refresh step (R246). -/
def Bench.refresh (k : Bench) : Bool := k.rint != 0 && k.step % k.rint == 0

/-- The change test (R249): keep. -/
def Bench.changed (k : Bench) (e : WinEntry) (sg : List Nat) : Bool :=
  if !e.sv || k.refresh then true
  else
    let old := e.sig.map (·.toNat)
    let dlt := treeSum 4 ((List.range 16).map (fun i =>
      (fsub f32 .rne 0 (sg.getD i 0) (old.getD i 0)).1 % f32.signBit))
    let ref := treeSum 4 ((List.range 16).map (fun i => old.getD i 0 % f32.signBit))
    let lim := (fmul f32 .rne 0 k.winthr.toNat ref).1
    !((f32.value dlt).lt (f32.value lim) || (f32.value dlt).eqv (f32.value lim))

/-- The entry of a form that needs VALID (R253). -/
def Bench.validEntry (k : Bench) (n : Nat) : Run WinEntry := if (k.entryAt n).valid then .ok (k.entryAt n) else illegal
/-- The winnow unit is free (R253). -/
def Bench.unitFree (k : Bench) : Run Unit := need (decide (k.winBusy ≤ k.tick)) cWinnow 0 0
def WinDesc.busy (d : WinDesc) : Nat := if d.fmt = 0x12 then 32 else 64

/-- Every row of the tile can be read. -/
def State.tileCheck (s : State) (b : Nat) (d : WinDesc) : Run Unit :=
  s.checkSpans b ((List.range 128).map (fun r => ⟨d.row r, d.rowLen, fun j => 128 * r + j * 128 / d.rowLen⟩))

/-- WIN.SIG (R254). -/
def execWinSig (t : DB) : State → Host.Outcome State Fault Refusal :=
  frame 0x70 0 t.g t.d 0 t.b (fun bn _ s => do
    let k := s.bench bn
    let e ← k.validEntry t.b
    let d := winDesc e.desc
    k.unitFree
    s.tileCheck bn d
    let sg := s.signature bn d
    pure (s.setBench bn ({ k with winBusy := k.tick + d.busy }.laterV (d.busy + 8) t.d 0 1024 (ofLanes 32 sg))))

/-- WIN.CMP (R249, R254). -/
def execWinCmp (t : HandleAB) : State → Host.Outcome State Fault Refusal :=
  frame 0x70 1 t.g t.d t.a t.b (fun bn _ s => do
    let k := s.bench bn
    let e ← k.validEntry t.b
    let keep := k.changed e ((List.range 16).map (k.vl 32 t.a))
    pure (s.setBench bn ((k.later 2 (.g t.d keep)).later 2 (.g (t.d + 1) (!keep)))))

/-- WIN.SKIP (R254). -/
def execWinSkip (t : UnB) : State → Host.Outcome State Fault Refusal :=
  frame 0x70 2 t.g 0 0 t.b (fun bn _ s => do
    let k := s.bench bn
    let _ ← k.validEntry t.b
    pure (s.setBench bn (k.setMap t.b 1)))

/-- WIN.KEEP (R253, R254): the signature is installed, and with PV the tile is copied to PIN. -/
def execWinKeep (t : AB) : State → Host.Outcome State Fault Refusal :=
  frame 0x70 3 t.g 0 t.a t.b (fun bn _ s => do
    let k := s.bench bn
    let e ← k.validEntry t.b
    let d := winDesc e.desc
    let sg := (List.range 16).map (fun i => BitVec.ofNat 32 (k.vl 32 t.a i))
    let k1 := { k with win := tset k.win t.b { e with sv := true, sig := sg } }.setMap t.b 0
    if d.pv then do
      k.unitFree
      s.tileCheck bn d
      s.checkSpans bn [⟨d.pin, 128 * d.rowLen, fun j => j * 128 / d.rowLen⟩]
      let w := (List.range 128).map (fun r => (d.copyRow r, s.rowBytes bn (d.row r) d.rowLen))
      pure (s.setBench bn ({ k1 with winBusy := k.tick + d.busy }.later (d.busy + 1) (.keep s.ctl.now w)))
    else pure (s.setBench bn k1))

/-- WIN.STEP (R254). -/
def execWinStep (t : UnD) : State → Host.Outcome State Fault Refusal :=
  frame 0x71 0 t.g t.d 0 0 (fun bn _ s =>
    let k := s.bench bn
    let k1 := k.later 1 (.a t.d k.winmap)
    .ok (s.setBench bn { k1 with winmap := 0, winref := setFld k.winref 32 16 (k.step + 1) }))

/-- WIN.MAP (R254). -/
def execWinMap (t : DB) : State → Host.Outcome State Fault Refusal :=
  frame 0x71 1 t.g t.d 0 t.b (fun bn _ s =>
    let k := s.bench bn
    let v : W64 := match t.b with
      | 0 => k.winmap
      | 1 => k.winref
      | _ => k.winthr.setWidth 64
    .ok (s.setBench bn (k.later 1 (.a t.d v))))

/-- The checks of R255 on a descriptor. SRAM_RANGE reports the first byte out of range of the lowest such row, tile rows before copy rows,
and leaves FIRSTERR 0 (R361; DEDUCED, log 35). -/
def checkWinDesc (w : W64) : Run Unit := do
  let d := winDesc w
  need (!bitOf w.toNat 54 && (d.fmt == 0x10 || d.fmt == 0x12) && d.base % 64 == 0 && d.pin % 64 == 0 &&
    (d.pv || d.pin == 0) && decide (d.rowLen ≤ d.stride)) cIllegal 0 0
  for r in List.range 128 do
    need (decide (d.row r + d.rowLen ≤ Config.sramBytes)) cSram (max (d.row r) Config.sramBytes) 0
  for r in List.range 128 do
    need (!d.pv || decide (d.copyRow r + d.rowLen ≤ Config.sramBytes)) cSram (max (d.copyRow r) Config.sramBytes) 0

/-- WIN.SET (R255). Kind 1 rejects bits [63:32] of A, which no register takes (DESIGN CHOICE, log 84). -/
def execWinSet (t : Tri) : State → Host.Outcome State Fault Refusal :=
  frameIf 0x71 2 t.g t.d t.a t.b (fun _ _ => t.d == 0 || t.b == 0) (fun bn _ s => do
    let k := s.bench bn
    let v := k.ra t.a
    match t.d with
    | 0 => do
      checkWinDesc v
      pure (s.setBench bn ({ k with win := tset k.win t.b ⟨true, v, false, []⟩ }.setMap t.b 0))
    | 1 => do
      need (decide (v.toNat < 2 ^ 32)) cIllegal 0 0
      pure (s.setBench bn { k with winthr := v.setWidth 32 })
    | _ => do
      need (fld v.toNat 48 16 == 0 && fld v.toNat 16 16 == 0) cIllegal 0 0
      pure (s.setBench bn { k with winref := v }))

/-- An entry that WIN.CLR clears keeps the descriptor last written (R244, R254). -/
def WinEntry.cleared (e : WinEntry) : WinEntry := { WinEntry.zero with desc := e.desc }
/-- WIN.CLR (R254). -/
def execWinClr (t : UnA) : State → Host.Outcome State Fault Refusal :=
  frame 0x71 3 t.g 0 t.a 0 (fun bn _ s =>
    let k := s.bench bn
    let v := (k.ra t.a).toNat
    .ok (s.setBench bn ((List.range 64).foldl (fun q n =>
      if bitOf v n then { q with win := tmod q.win n WinEntry.zero WinEntry.cleared }.setMap n 0 else q) k)))

end Sys2Proof.Machine
end

