-- ==== Sys2Proof/Machine/Engines.lean ====
section
/-! DEFINITION. The bench copy engine (R302, R303, R305, R309 to R314): hops, acceptance, granule requests, slot starts,
landings, and barrier objects and watermarks (R315 to R318). -/

namespace Sys2Proof.Machine

/-! ### Links (R155) -/

/-- Latency of the stile hop south of a row. -/
def stileHop (row : Nat) : Nat := if row % 16 = 7 ∨ row % 16 = 15 then 12 else 4
/-- Latency of `n` hops south from a row. -/
def southFrom (row : Nat) : Nat → Nat
  | 0 => 0
  | n + 1 => stileHop row + southFrom (row + 1) n
/-- Latency from bench `p` to bench `c` by a route code (R323): rail east, rail west, stile south, stile north. -/
def routeLat (route p c : Nat) : Nat :=
  let pr := p / 16
  let pc := p % 16
  let cr := c / 16
  let cc := c % 16
  match route with
  | 0 => 4 * ((cc + 16 - pc) % 16)
  | 1 => 4 * ((pc + 16 - cc) % 16)
  | 2 => southFrom pr ((cr + 16 - pr) % 16)
  | _ => southFrom cr ((pr + 16 - cr) % 16)

/-- Hop latency to the farthest receiver. -/
def Cut.reach (c : Cut) (b : Nat) : Nat :=
  ((c.receivers b).map (fun r => routeLat (if c.max_ = 2 then 2 else 0) b r)).foldl max 0

/-! ### Barrier objects (R315, R316) -/

structure BarObj where
  pend : W64
  ctl : W64
  deriving DecidableEq, Repr

def BarObj.phase (o : BarObj) : Nat := fld o.ctl.toNat 63 1
def BarObj.ovr (o : BarObj) : Nat := fld o.ctl.toNat 62 1
def BarObj.expect (o : BarObj) : Nat := fld o.ctl.toNat 32 16
def BarObj.arrv (o : BarObj) : Nat := fld o.ctl.toNat 0 16
def BarObj.ofBytes (bs : List Byte) : BarObj :=
  ⟨BitVec.ofNat 64 (leNat (bs.take 8)), BitVec.ofNat 64 (leNat ((bs.drop 8).take 8))⟩
def BarObj.bytes (o : BarObj) : List Byte := leBytes 8 o.pend.toNat ++ leBytes 8 o.ctl.toNat
/-- A phase ends when nothing is awaited. -/
def BarObj.settle (o : BarObj) : BarObj :=
  if o.arrv = 0 ∧ o.pend = 0 then ⟨o.pend, setFld (setFld o.ctl 63 1 (1 - o.phase)) 0 16 o.expect⟩ else o
def BarObj.arrive (o : BarObj) (b : W64) : BarObj :=
  if o.arrv = 0 then ⟨o.pend, setFld o.ctl 62 1 1⟩ else BarObj.settle ⟨o.pend + b, setFld o.ctl 0 16 (o.arrv - 1)⟩
def BarObj.land (o : BarObj) (n : Nat) : BarObj := BarObj.settle ⟨o.pend - BitVec.ofNat 64 n, o.ctl⟩
/-- BAR.INIT (R337). -/
def BarObj.init (o : BarObj) (b : W64) : BarObj :=
  let e := max 1 (min b.toNat 65535)
  ⟨0, setFld (setFld (setFld o.ctl 62 2 0) 32 16 e) 0 16 e⟩

/-- A bench's object. -/
def State.benchBar (s : State) (b off : Nat) : BarObj := BarObj.ofBytes (s.mem.rawBytes (sramPa b off) 16)
def State.setBenchBar (s : State) (b off : Nat) (o : BarObj) : State :=
  s.framePut false (sramPa b off) o.bytes
/-- A cluster's object, at a local address under mode 0b11. -/
def State.localBar (s : State) (cl la : Nat) : BarObj :=
  BarObj.ofBytes (s.mem.local_.readBytes (localIndex cl 3 0 la) 16)
def State.setLocalBar (s : State) (cl la : Nat) (o : BarObj) : State :=
  { s with mem := { s.mem with local_ := s.mem.local_.writeBytes (localIndex cl 3 0 la) o.bytes } }

/-! ### Watermarks (R317, R318) -/

def Watermark.epoch (w : Watermark) : Nat := fld w.pos.toNat 32 32
def Watermark.base (w : Watermark) : Nat := fld w.cfg.toNat 32 22
def Watermark.len (w : Watermark) : Nat := fld w.cfg.toNat 0 22
/-- The end of the longest prefix that the ranges cover, from `p` on. -/
def prefixEnd (rs : List (Nat × Nat)) : Nat → Nat → Nat
  | 0, p => p
  | n + 1, p =>
    match rs.find? (fun r => decide (r.1 ≤ p) && decide (p < r.1 + r.2)) with
    | some r => prefixEnd rs n (r.1 + r.2)
    | none => p
/-- A write of a copy of an epoch advances the channel (R318). -/
def Watermark.advance (w : Watermark) (epoch first n : Nat) : Watermark :=
  if epoch ≠ w.epoch then w
  else
    let rs := w.done ++ [(first, n)]
    let top := prefixEnd rs (rs.length + 1) (w.base + fld w.pos.toNat 0 32)
    { w with done := rs, pos := setFld w.pos 0 32 (min top (w.base + w.len) - w.base) }
/-- WM.SET (R339). -/
def Watermark.set (w : Watermark) (base len : Nat) : Watermark :=
  ⟨BitVec.ofNat 64 ((if len = 0 then 0 else 2 ^ 63) + base * 2 ^ 32 + len),
    BitVec.ofNat 64 ((w.epoch + 1) % 2 ^ 32 * 2 ^ 32), []⟩

/-! ### Acceptance (R311, R312) -/

/-- The tensor-side base with the arena (R305, R314). -/
def Bench.arena (k : Bench) (c : Cut) : Nat :=
  if c.kvsel = 0 then c.base
  else (c.base + (tgetD k.kvb (c.kvsel - 1) 0).toNat + c.kslot * k.kvss.toNat + c.kpos * k.kvps.toNat) % 2 ^ 64

/-- Where one element of a bench copy lies, as the engine lists its granules (rows 6 and 7). -/
def State.benchElem (s : State) (b : Nat) (c : Cut) (base i : Nat) : Run CopyElem := do
  let a2 := c.ta2 base i
  let va := a2 / 2
  match s.pinnedLeaf va with
  | none => .error (.elem cTranslation va 0 i)
  | some l =>
    let pa := l.phys va
    let here := match regionOf pa with
      | .hbm => true
      | .sram o _ => o == b
      | _ => false
    if here then .ok ⟨i, va, pa, a2 % 2, l⟩ else .error (.elem cShape va 7 i)

/-- The rule of R308 for the run that element `e` begins. -/
def runKept (c : Cut) (es : List CopyElem) (e : CopyElem) : Bool :=
  let b0 := (c.dims.head?.map (·.box)).getD 1
  c.mode == 0 || e.idx != c.runStart e.idx ||
    (es.filter (fun x => x.idx / b0 == e.idx / b0)).all (fun x => runOk e.leaf e.pa x.leaf x.pa)
/-- What row 8 finds at an element: a format of the wrong width, or a run that R308 forbids. -/
def row8 (c : Cut) (es : List CopyElem) (e : CopyElem) : Option (Nat × Nat) :=
  if c.pageBad e.leaf then some (cShapeFormat, 8) else if !runKept c es e then some (cShapeAlign, 8) else none
/-- What an element meets when it is accessed: its translation or permission gone from the pinned store (R184), or row 8. Every element
was translated when the engine listed its granules (R281, R312; DEDUCED, log 76). -/
def State.elemBad (s : State) (c : Cut) (es : List CopyElem) (e : CopyElem) : Option (Nat × Nat) :=
  let use : Use := if c.dir = 0 then .read else if c.scaled e.leaf then .both else .write
  if (s.pinnedLeaf e.va).any (fun l => l.allows use true) then row8 c es e else some (cTranslation, 0)

/-- The in-bounds elements, translated in logical order; those that a load reads from tensor SRAM are accessed at once (R312). -/
def State.benchElems (s : State) (b : Nat) (c : Cut) (base : Nat) : Run (List CopyElem) :=
  let rs := ((List.range c.count).filter c.inBounds).map (s.benchElem b c base)
  let es := rs.filterMap (fun r => r.toOption)
  rs.mapM (fun r => do
    let e ← r
    match (if c.dir = 0 ∧ !decide (e.pa < hbmEnd) then s.elemBad c es e else none) with
    | some f => .error (.elem f.1 e.va f.2 e.idx)
    | none => pure e)

def granuleOf (pa : Nat) : Nat := pa / 4096 * 4096
def isHbm (pa : Nat) : Bool := decide (pa < hbmEnd)

/-- The granules of a list of addresses, each once, in order of first use. -/
def granules (pas : List Nat) : List Nat := ((pas.filter isHbm).map granuleOf).eraseDups
/-- The addresses that elements use, each followed by its scale byte's. -/
def Cut.uses (c : Cut) (es : List CopyElem) : List Nat :=
  es.flatMap (fun e => e.pa :: (if c.scaled e.leaf then [scalePa e.leaf e.pa] else []))
def Cut.scales (c : Cut) (es : List CopyElem) : List Nat :=
  es.flatMap (fun e => if c.scaled e.leaf then [scalePa e.leaf e.pa] else [])

/-- A request tick not fixed yet. -/
def never : Nat := 2 ^ 64
/-- Granules whose requests are made one per bench tick from `t` on. -/
def askFrom (t : Nat) (write : Bool) (gs : List Nat) : List Granule :=
  (List.range gs.length).zip gs |>.map (fun p => ⟨p.2, write, t + p.1, false, none, false, [], false⟩)
/-- Granules whose requests wait for the scales (R312). -/
def askLater (gs : List Nat) : List Granule := gs.map (fun g => ⟨g, true, never, false, none, false, [], false⟩)

/-- Copies of a bench whose bytes are not all written, or whose load is not due (R302). -/
def Copy.inFlight (c : Copy) : Bool :=
  if c.clr.cut.dir = 0 then true else !c.grans.all (·.taken) || c.elems.any (fun e => !isHbm e.pa)
def State.copiesOf (s : State) (b : Nat) : Nat := s.frame.copies.countP (fun c => c.2.bench == b && c.2.inFlight)

/-- TIMED_PAST at acceptance (R169, R312). -/
def timedPast (c : Cut) (b fcnt due : Nat) (es : List CopyElem) : Bool :=
  let hbm := es.any (fun e => isHbm e.pa)
  let own := es.any (fun e => !isHbm e.pa)
  if c.dir = 0 then decide (due < fcnt + (if hbm then 512 else 2) + c.reach b)
  else decide (due < fcnt + (if own then 2 else 0))

/-- The owners that element `i` of a copy meets in tensor SRAM, each with the offset of the access: its dense bytes, on every bench that
receives them, then its own byte and its scale where its page lies in the bench's own SRAM. The bytes that a load is to write may be
another load's (R384). -/
def State.elemOwners (s : State) (b : Nat) (c : Cut) (es : List CopyElem) (i : Nat) : List (Nat × Nat) :=
  let at_ (r off n : Nat) : List (Nat × Nat) := (s.owners r off n).map (fun k => (off, k))
  let dense := if !c.inBounds i ∧ (c.dir = 1 ∨ c.red ≠ 0) then []
    else (if c.dir = 0 then c.receivers b else [b]).flatMap (fun r =>
      (at_ r (c.da i) (spanOf c.dHalf)).filter (fun k => !(k.2 == 1 && c.dir == 0)))
  dense ++ (es.filter (fun e => e.idx == i && !isHbm e.pa)).flatMap (fun e => at_ b (e.pa - sramPa b 0) (spanOf c.tHalf) ++
    (if c.scaled e.leaf then at_ b (scalePa e.leaf e.pa - sramPa b 0) 1 else []))
/-- In try-square mode a copy's bytes in tensor SRAM are checked at acceptance, and the element of lowest logical index is reported
(R57, R384); then its barrier's object, on every bench that has one (DEDUCED, log 21). -/
def State.engineOwned (s : State) (b : Nat) (c : Cut) (es : List CopyElem) : Run Unit :=
  if s.trySquare then
    match (List.range c.count).findSome? (fun i => ((s.elemOwners b c es i).head?).map (fun k => (i, k))) with
    | some (i, off, k) => .error (.elem cOwner off k i)
    | none => if c.bv then (c.receivers b).forM (fun r => match s.owners r c.bar 16 with
        | k :: _ => stop cOwner c.bar k
        | [] => .ok ()) else .ok ()
  else .ok ()

/-- The in-bounds elements that the engine can place. -/
def State.placed (s : State) (b : Nat) (c : Cut) (base : Nat) : List CopyElem :=
  ((List.range c.count).filter c.inBounds).filterMap (fun i => (s.benchElem b c base i).toOption)
/-- Of two causes of one tick the lower code is reported (R371): a stop at an element gives way to a lower code that holds as well. -/
def lowerCode {α : Type} (r : Run α) (other : Bool) (code : Nat) : Run α :=
  match r with
  | .error (.elem c f i l) => if other ∧ code < c then stop code 0 0 else .error (.elem c f i l)
  | r => r
/-- The engine of bench `b` accepts a copy (R302, R303, R311, R312). `faddr` is what its faults at acceptance report, also
those of row 5, for which R361 names an offset and R311 the cut list's address (DESIGN CHOICE, log 84), and `linear` the channel and epoch
of CPY.LIN. -/
def State.acceptCopy (s : State) (b : Nat) (clr : ClReg) (kindBad : Bool) (faddr due : Nat) (linear : Option (Nat × Nat)) :
    Run State := do
  let k := s.bench b
  let c := clr.cut
  let base := k.arena c
  let row := c.row kindBad true false base
  if row = 2 then pure s
  else do
    need (row == 0) (rowCode row true) faddr (rowInfo row)
    need (decide (s.copiesOf b < Config.copyLimit)) cEngineFull 0 0
    let late := timedPast c b s.frame.fcnt.toNat due (s.placed b c base)
    let es ← lowerCode (s.benchElems b c base) late cTimed
    need (!late) cTimed 0 0
    s.engineOwned b c es
    let own := (c.uses es).filter (fun pa => !isHbm pa)
    let src := own.eraseDups.flatMap (fun pa => (List.range (spanOf c.tHalf)).map (fun i => (pa + i, s.arrived.cells.read (pa + i))))
    let sc := granules (c.scales es)
    let grans := if c.dir = 0 then askFrom k.tick false (granules (c.uses es))
      else if sc.isEmpty then askFrom k.tick true (granules (es.map (·.pa)))
      else askFrom k.tick false sc ++ askLater (granules (es.map (·.pa)))
    let dense := if c.dir = 0 then [] else es.map (fun e =>
      codeOf c.dHalf (c.da2 e.idx % 2) (s.sramBytes b (c.da e.idx) (spanOf c.dHalf)))
    let sr := c.mode = 2 ∧ c.rm = 4
    let cp : Copy := ⟨b, clr, due, s.ctl.now, k.drawc, es, grans, src, dense,
      if c.dir = 0 then 0 else sc.length, linear, 0, false, s.ctl.group⟩
    let s1 := if sr then s.setBench b { k with drawc := nextDraw k.drawc } else s
    pure { s1.fresh with frame := { s1.frame with copies := tset s1.frame.copies s1.weave.nextId cp } }

/-! ### Requests and slots (R266 to R268) -/

/-- First frame slot of a stack that begins at or after a tick and is not taken, searched over `fuel` slots. -/
def firstSlot (taken : List (Nat × Nat)) (fslots stack : Nat) : Nat → Nat → Nat
  | 0, t => 4 * t
  | n + 1, t => if t % 8 < fslots ∧ !taken.contains (stack, 4 * t) then 4 * t else firstSlot taken fslots stack n (t + 1)
def State.fslots (s : State) : Nat := (s.frame.launch.map (·.fslots)).getD 0
def State.assignSlot (s : State) (pa : Nat) : Nat :=
  firstSlot s.frame.slotTaken s.fslots (stackOf pa) (8 * (s.frame.slotTaken.length + 1)) ((s.frame.fcnt.toNat + 3) / 4)

def State.setCopy (s : State) (id : Nat) (c : Copy) : State :=
  { s with frame := { s.frame with copies := tset s.frame.copies id c } }

/-- The write requests of a scaled store follow once the last scale has arrived (R312). -/
def Copy.arm (c : Copy) (fcnt tick : Nat) : Copy :=
  let sc := c.grans.take c.scaleReads
  let rest := c.grans.drop c.scaleReads
  if c.scaleReads ≠ 0 ∧ rest.any (fun g => g.reqAt == never) ∧
      sc.all (fun g => g.taken && !g.late && decide (g.slotAt.getD never + 512 ≤ fcnt)) then
    { c with grans := sc ++ (((List.range rest.length).zip rest).map (fun p => { p.2 with reqAt := tick + p.1 })) }
  else c

/-- One request of a copy: its slot, and TIMED_PAST for a load whose slot starts too late (R268, R312). -/
def State.request (s : State) (id j : Nat) : State :=
  match tget s.frame.copies id with
  | none => s
  | some c =>
    match c.grans[j]? with
    | none => s
    | some g =>
      let t := s.assignSlot g.pa
      let s1 := s.setCopy id { c with grans := c.grans.set j { g with asked := true, slotAt := some t } }
      let s2 := { s1 with frame := { s1.frame with slotTaken := s1.frame.slotTaken ++ [(stackOf g.pa, t)] } }
      if c.clr.cut.dir = 0 ∧ c.due < t + 512 + c.clr.cut.reach c.bench then s2.benchFault c.bench c.epc cTimed 0 0 else s2

/-- The requests of a copy that fall due at its bench's tick. -/
def Copy.dueRequests (c : Copy) (tick : Nat) : List Nat :=
  (List.range c.grans.length).filter (fun j => match c.grans[j]? with
    | some g => !g.asked && decide (g.reqAt ≤ tick)
    | none => false)

/-- COPY_GRANULE_REQUEST (R268, R312). -/
def execCopyGranuleRequest (b id : Nat) (s : State) : Host.Outcome State Fault Refusal :=
  match tget s.frame.copies id with
  | none => .fault .noSubject
  | some c =>
    if c.bench ≠ b then .fault .noSubject
    else
      let k := s.bench b
      let c1 := c.arm s.frame.fcnt.toNat k.tick
      .next ((c1.dueRequests k.tick).foldl (fun t j => t.request id j) (s.setCopy id c1))

/-- Bytes that a copy has sampled at a physical address. -/
def Copy.sample (c : Copy) (pa n : Nat) : List Byte :=
  (List.range n).map (fun i =>
    match c.grans.find? (fun g => !g.write && decide (g.pa ≤ pa + i) && decide (pa + i < g.pa + 4096)) with
    | some g => g.bytes.getD (pa + i - g.pa) 0
    | none => ((c.src.find? (fun p => p.1 == pa + i)).map (·.2)).getD 0)

/-- The scale byte that an element uses. -/
def Copy.scaleOf (c : Copy) (e : CopyElem) : Nat :=
  if c.clr.cut.scaled e.leaf then leNat (c.sample (scalePa e.leaf e.pa) 1) else 127

/-- The code that a store writes for the `n`-th of its elements, with flags. -/
def Copy.storeCode (c : Copy) (s : State) (n : Nat) (e : CopyElem) : Nat × Nat :=
  c.clr.cut.storeValue s e.leaf (c.dense.getD n 0) (c.scaleOf e) (drawOf s.frameSeed c.draw e.idx)

/-- Frame-plane writes of HBM drop every cached copy of their lines (R263). -/
def State.dropCaches (s : State) (pa n : Nat) : State :=
  let lo := lineOf pa
  let len := (pa + n - lo + 63) / 64 * 64
  let lines := (List.range (len / 64)).map (fun i => lo + 64 * i)
  { s with mem := s.mem.discard lo len
           weave := { s.weave with cores := s.weave.cores.map (fun (k : Nat × Core) =>
             (k.1, { k.2 with remote := k.2.remote.filter (fun l => !lines.contains l.1) })) } }

/-- Write one element of a frame store to HBM. -/
def State.frameWrite (s : State) (pa : Nat) (bs : List Byte) : State :=
  (s.dropCaches pa bs.length).framePut true pa bs

/-- A frame slot's write: the in-bounds elements of the granule (R268, R312). -/
def State.slotWrite (s : State) (id : Nat) (c : Copy) (g : Granule) : State :=
  let cut := c.clr.cut
  let r := ((List.range c.elems.length).zip c.elems).foldl (fun (a : State × Nat) p =>
    if granuleOf p.2.pa = g.pa then
      let v := c.storeCode a.1 p.1 p.2
      (a.1.frameWrite p.2.pa (putCode cut.tHalf p.2.odd v.1 (a.1.mem.rawBytes p.2.pa (spanOf cut.tHalf))), a.2 ||| v.2)
    else a) (s, 0)
  match tget r.1.frame.copies id with
  | some q => r.1.setCopy id { q with flags := q.flags ||| r.2 }
  | none => r.1

/-- Whether an element's own byte or its scale lies in a granule. -/
def Cut.inGranule (c : Cut) (pa : Nat) (e : CopyElem) : Bool :=
  granuleOf e.pa == pa || (c.scaled e.leaf && granuleOf (scalePa e.leaf e.pa) == pa)
/-- The ECC outcome that the environment has in store for a granule's frame-slot read (R269). -/
def State.eccAt (s : State) (pa : Nat) : Option (Nat × Nat) :=
  (s.frame.flagEcc.find? (fun e => e.1 == pa && decide (e.2.1 < 2))).map (·.2)

/-- Whether a granule's slot begins at a tick. -/
def Granule.starts (g : Granule) (fcnt : Nat) : Bool := g.slotAt == some fcnt && !g.taken
/-- Whether a copy reaches an element at a tick: a slot of one of its granules begins, in whatever stack, or it lands. -/
def Copy.reaches (c : Copy) (fcnt : Nat) (e : CopyElem) : Bool :=
  c.grans.any (fun g => g.starts fcnt && c.clr.cut.inGranule g.pa e) ||
    (c.clr.cut.dir != 0 && !isHbm e.pa && decide (c.due ≤ fcnt) && !c.counted)
/-- What an element meets when it is reached: code, INFO and FADDR of `elemBad`'s cause, or of an uncorrectable error in a granule read for
it (R269). -/
def Copy.meets (c : Copy) (s : State) (e : CopyElem) : Option (Nat × Nat × Nat) :=
  match s.elemBad c.clr.cut c.elems e with
  | some f => some (f.1, f.2, e.va)
  | none => (c.grans.find? (fun g => !g.write && g.starts s.frame.fcnt.toNat && c.clr.cut.inGranule g.pa e &&
      (s.eccAt g.pa).any (fun x => x.1 == 1))).map (fun g => (cEcc, stackOf g.pa, g.pa))
/-- The first element of a copy, among those that satisfy `p`, that cannot be accessed at this tick, with what it meets: of all that the
copy reaches at the tick, the one of lowest logical index is reported (R57, R311). -/
def Copy.broken (c : Copy) (s : State) (p : CopyElem → Bool) : Option (CopyElem × Nat × Nat × Nat) :=
  (c.elems.filter p).findSome? (fun e => (c.meets s e).map (fun f => (e, f)))
/-- The fault of such an element; the copy's other slots of the tick begin no more, and the errors of its reads are counted (R385). -/
def State.copyFault (s : State) (id : Nat) (c : Copy) (x : CopyElem × Nat × Nat × Nat) : State :=
  let now := s.frame.fcnt.toNat
  let t := s.setCopy id { c with grans := c.grans.map (fun g => if g.starts now then { g with taken := true } else g) }
  let u := (c.grans.filter (fun g => g.starts now && !g.write)).foldl (fun v g => match s.eccAt g.pa with
    | some (k, _) => v.life ((if k = 0 then 0x100 else 0x10C) + stackOf g.pa) 1
    | none => v) t
  u.faultFrame ⟨x.2.1, x.2.2.1, x.2.2.2, c.epc, 1, c.bench, firstErr x.1.idx⟩

/-- One granule's slot begins: a read samples, a write takes effect (R268, R269). -/
def State.slotStart (s : State) (id j : Nat) : State :=
  match tget s.frame.copies id with
  | none => s
  | some c =>
    match c.grans[j]? with
    | none => s
    | some g =>
      let put (t : State) (h : Granule) : State := match tget t.frame.copies id with
        | some q => t.setCopy id { q with grans := q.grans.set j h }
        | none => t
      match c.broken s (fun e => c.clr.cut.inGranule g.pa e || c.reaches s.frame.fcnt.toNat e) with
      | some x => s.copyFault id c x
      | none =>
      if g.write then put (s.slotWrite id c g) { g with taken := true }
      else
        let h := { g with taken := true, bytes := s.mem.rawBytes g.pa 4096 }
        match s.eccAt g.pa with
        | some (0, n) =>
          put { s with frame := { s.frame with flagEcc := s.frame.flagEcc.map (fun e =>
            if e.1 = g.pa ∧ e.2.1 = 0 then (e.1, 2, n) else e) } } { h with late := true } |>.life (0x100 + stackOf g.pa) 1
        | _ => put s h

/-- FRAME_SLOT_START of a stack: the granule whose slot starts at this tick (R268). -/
def execFrameSlotStart (k : Nat) (s : State) : Host.Outcome State Fault Refusal :=
  let at_ := s.frame.fcnt.toNat
  let hits := s.frame.copies.flatMap (fun (c : Nat × Copy) => ((List.range c.2.grans.length).filter (fun j =>
    match c.2.grans[j]? with
    | some g => stackOf g.pa == k && g.slotAt == some at_ && !g.taken
    | none => false)).map (fun j => (c.1, j)))
  let t := hits.foldl (fun (u : State) p => u.slotStart p.1 p.2) s
  .next { t with frame := { t.frame with slotTaken := t.frame.slotTaken.filter (fun p =>
    p.1 != k || decide (at_ < p.2)) } }

/-- ECC_REREAD_COMPLETE: a re-read granule arrives (R269). -/
def execEccRereadComplete (b id n : Nat) (s : State) : Host.Outcome State Fault Refusal :=
  match tget s.frame.copies id with
  | none => .fault .noSubject
  | some c =>
    match c.grans[n]? with
    | none => .fault .noSubject
    | some g =>
      if c.bench ≠ b then .fault .noSubject
      else
        let t := s.setCopy id { c with grans := c.grans.set n { g with late := false } }
        .next { t with frame := { t.frame with flagEcc := t.frame.flagEcc.filter (fun e => !(e.1 == g.pa && e.2.1 == 2)) } }

/-! ### Landing (R309, R312, R313, R316) -/

/-- An element of a copy lands in tensor SRAM at the end of the tick, in the place of R207 and R313. -/
def Copy.lands (c : Copy) (s : State) (pa : Nat) (op : EndOp) : State := s.endWrite ⟨2, c.accepted, c.bench, 0, pa, op⟩

/-- The dense value of element `i` of a load: code and flags. -/
def Copy.denseCode (c : Copy) (s : State) (i : Nat) : Option (Nat × Nat) :=
  let cut := c.clr.cut
  match c.elems.find? (fun e => e.idx == i) with
  | some e => some (cut.loadValue s e.leaf (codeOf cut.tHalf e.odd (c.sample e.pa (spanOf cut.tHalf))) (c.scaleOf e))
  | none => if cut.red = 0 then some (cut.fillValue, 0) else none

/-- One element of a load lands on one bench; a reduction combines with what stands there when its turn comes. -/
def Copy.landElem (c : Copy) (r : Nat) (a : State × Nat) (i : Nat) : State × Nat :=
  let cut := c.clr.cut
  match c.denseCode a.1 i with
  | none => a
  | some v =>
    (c.lands a.1 (sramPa r (cut.da i))
      (if cut.red = 0 then .elem cut.dHalf (cut.da2 i % 2) v.1 else .reduce cut.red (redSource cut.red v.1)), a.2 ||| v.2)

/-- The landing of a load at its due tick. -/
def Copy.landLoad (c : Copy) (s : State) : State × Nat :=
  (c.clr.cut.receivers c.bench).foldl (fun a r => (List.range c.clr.cut.count).foldl (c.landElem r) a) (s, c.flags)
/-- The landing of a store to the bench's own tensor SRAM. -/
def Copy.landStore (c : Copy) (s : State) : State × Nat :=
  let cut := c.clr.cut
  ((List.range c.elems.length).zip c.elems).foldl (fun (a : State × Nat) p =>
    if isHbm p.2.pa then a
    else
      let v := c.storeCode a.1 p.1 p.2
      (c.lands a.1 p.2.pa (.elem cut.tHalf p.2.odd v.1), a.2 ||| v.2)) (s, c.flags)

/-- What follows a landing: barrier subtractions and watermark advances of the tick. -/
def Copy.notices (c : Copy) (s : State) : State :=
  let cut := c.clr.cut
  let subs := if cut.bv && !c.counted then (cut.receivers c.bench).map (fun r => (r, cut.bar, cut.counted)) else []
  let adv := match c.linear with
    | some (k, ep) => (cut.written 0 cut.count (List.range cut.count)).map (fun r => (c.bench, k, ep, r))
    | none => []
  { s with frame := { s.frame with subs := s.frame.subs ++ subs, advances := s.frame.advances ++ adv } }

/-- Whether a copy is over: it is due, and its writes are made. -/
def Copy.finished (c : Copy) (fcnt : Nat) : Bool := decide (c.due ≤ fcnt) && c.counted && c.grans.all (·.taken)

/-- Flags are ORed into the bench's FLAGS (R306), at the end of the tick as every landing flag (R214). -/
def State.copyFlags (s : State) (b f : Nat) : State := s.modBench b (fun k => k.laterFlags 0 f)

/-- A copy leaves the engine once it is over. -/
def State.retireCopy (s : State) (id : Nat) : State :=
  match tget s.frame.copies id with
  | some c =>
    if c.finished s.frame.fcnt.toNat then
      ({ s with frame := { s.frame with copies := terase s.frame.copies id } }).copyFlags c.bench c.flags
    else s
  | none => s

/-- COPY_LANDING: what a copy does at its due tick (R312, R316). -/
def execCopyLanding (b id : Nat) (s : State) : Host.Outcome State Fault Refusal :=
  match tget s.frame.copies id with
  | none => .fault .noSubject
  | some c =>
    if c.bench ≠ b then .fault .noSubject
    else
      match (if c.clr.cut.dir = 0 then none else c.broken s (fun e => !isHbm e.pa || c.reaches s.frame.fcnt.toNat e)) with
      | some x => .next (s.copyFault id c x)
      | none =>
        let r := if c.clr.cut.dir = 0 then c.landLoad s else c.landStore s
        let t := (c.notices r.1).setCopy id { c with flags := r.2, counted := true }
        .next (t.retireCopy id)

end Sys2Proof.Machine
end

