-- ==== Sys2Proof/Machine/WeaveCtl.lean ====
section
/-! DEFINITION. Majors 0x38 to 0x3D (R133 to R152): helpers, pipe operations, gang barriers, replay blocks, the end of a
context, event counters and tenons. -/

namespace Sys2Proof.Machine

def State.gangOf (s : State) (c : Nat) : Option Gang := tget s.weave.gangs (s.ctx c).gang

/-! ### The end of a context (R22, R114, R140) -/

/-- Live contexts of a role. -/
def State.roleCtxs (s : State) (g role : Nat) : List Nat :=
  keysWhere s.weave.ctxs (fun _ x => x.gang == g && x.role == role)
def State.gangCtxs (s : State) (g : Nat) : List Nat := keysWhere s.weave.ctxs (fun _ x => x.gang == g)

/-- Close a pipe from its producer's side (R118); the consumer's event is posted. -/
def State.closeProducer (s : State) (g i : Nat) : State :=
  match tget s.weave.gangs g with
  | some gr => match gr.pipes[i]? with
    | some p => if p.pclosed then s
        else (s.setGang g { gr with pipes := gr.pipes.set i { p with pclosed := true } }).postEvent g p.crole p.cq
    | none => s
  | none => s
/-- Close a pipe from its consumer's side: its entries are discarded (R118); the events of both its ports are posted (R101,
DEDUCED, log 30). -/
def State.closeConsumer (s : State) (g i : Nat) : State :=
  match tget s.weave.gangs g with
  | some gr => match gr.pipes[i]? with
    | some p => if p.cclosed then s
        else ((s.setGang g { gr with pipes := gr.pipes.set i { p with cclosed := true, entries := [] } }).postEvent g
          p.prole p.pq).postEvent g p.crole p.cq
    | none => s
  | none => s

/-- The ports of a role are released (R114). -/
def State.closeRole (s : State) (g role : Nat) : State :=
  match tget s.weave.gangs g with
  | some gr =>
    (List.range gr.pipes.length).foldl (fun t i => match gr.pipes[i]? with
      | some p =>
        let t1 := if p.prole = role then t.closeProducer g i else t
        if p.crole = role then t1.closeConsumer g i else t1
      | none => t) s
  | none => s

/-- A core is free again. -/
def Core.release (k : Core) : Core := { k with gang := none, role := 0, nhlp := 0, gens := [] }

/-- A gang whose last context has ended: its cores, slots and pipe entries return to the dispatcher (R114). Its stores
drain first, so that the launch's completion releases them (R122). -/
def State.endGang (s : State) (g : Nat) : State :=
  match tget s.weave.gangs g with
  | none => s
  | some gr =>
    let s1 := gr.cores.foldl (fun t k => (t.drainAll k).modCore k Core.release) s
    let s2 := { s1 with weave := { s1.weave with gangs := terase s1.weave.gangs g } }
    match tget s2.weave.launches gr.launch with
    | some l => s2.setLaunch gr.launch { l with ended := l.ended ++ [gr.idx] }
    | none => s2

/-- The registers with which a control context ends. -/
def State.keepLeft (s : State) (c : Nat) (x : Ctx) : State := { s with weave := { s.weave with left := tset s.weave.left c x } }
/-- A context ceases to exist (R22, R109): its ports, its places in queues, the control context's event, its gang. What a control context
leaves stands aside, as R390 and R424 tell of it (DEDUCED, log 83). -/
def State.endCtx (s : State) (c : Nat) : State :=
  let x := s.ctx c
  let s1 := (if slotOf c = 0 then s.keepLeft c x else s).dropCtx c
  let s2 := { s1 with frame := { s1.frame with benches := s1.frame.benches.map (fun (b : Nat × Bench) =>
    (b.1, { b.2 with port := b.2.port.filter (fun i => i != PortAccess.ctx c) })) } }
  let s3 := if slotOf c ≠ 0 ∧ (s2.ctx? (16 * coreOf c)).isSome then
      s2.modCtx (16 * coreOf c) (·.event 8)
    else s2
  let s4 := if (s3.roleCtxs x.gang x.role).isEmpty then s3.closeRole x.gang x.role else s3
  if (s4.gangCtxs x.gang).isEmpty then s4.endGang x.gang else s4

/-! ### Helpers (R135 to R138) -/

/-- STATUS of a helper: the launch's fields with its own CTX (R21). -/
def helperStatus (st : W64) (k : Nat) : W64 := setFld (setFld (setFld st 20 4 k) 2 3 0) 0 1 0

/-- A helper's start state (R21, R136), its entry reached as any target is (R14). -/
def helperStart (x : Ctx) (k gen : Nat) (entry arg : W64) : Ctx :=
  { Ctx.zero with xs := tset [] 10 arg, pc := BitVec.ofNat 64 (entry.toNat / 4 * 4), jumped := true, status := helperStatus x.status k
                  seed := x.seed, asid := x.asid, gang := x.gang, role := x.role, gen := gen }

/-- Lowest free helper slot of a core, if its role may run one more (R110, R136). -/
def State.freeHelper (s : State) (k : Nat) : Option Nat :=
  let live := (List.range 10).filter (fun i => (s.ctx? (16 * k + i + 1)).isSome)
  if (s.core k).nhlp ≤ live.length then none
  else ((List.range 10).find? (fun i => (s.ctx? (16 * k + i + 1)).isNone)).map (· + 1)

/-- Only the control context may (R136, R137). -/
def controlOnly (s : State) (c : Nat) : Run Unit := need (fld (s.ctx c).status.toNat 20 4 == 0) cCap 0 0

/-- HSTART (R136). -/
def execHstart (t : Tri) : State → Host.Outcome State Fault Refusal :=
  weave 0x38 0 t.g t.d t.a t.b controlOnly (fun c s =>
    let ra := s.src c t.a
    let rb := ra.2.src c t.b
    let k := coreOf c
    match s.freeHelper k with
    | none => .ok (rb.2.dst c t.d 0)
    | some j =>
      let gen := (tgetD (s.core k).gens j 0 + 1) % 2 ^ 16
      let s1 := (rb.2.drainAll k).modCore k (fun q => { q with gens := tset q.gens j gen })
      let s2 := s1.setCtx (16 * k + j) (helperStart (s.ctx c) j gen ra.1 rb.1)
      .ok (s2.dst c t.d (BitVec.ofNat 64 (gen * 16 + j))))

/-- Whether a handle names a live helper of the core (R135, R137). -/
def State.handleLive (s : State) (k : Nat) (h : W64) : Bool :=
  let slot := fld h.toNat 0 4
  decide (1 ≤ slot) && decide (slot ≤ 10) &&
    (match s.ctx? (16 * k + slot) with
      | some x => x.gen == fld h.toNat 4 16
      | none => false)

/-- HJOIN (R137). -/
def execHjoin (t : UnA) : State → Host.Outcome State Fault Refusal :=
  weave 0x38 1 t.g 0 t.a 0 controlOnly (fun c s =>
    let ra := s.src c t.a
    if s.handleLive (coreOf c) ra.1 then waitFor .join else .ok (ra.2.drainAll (coreOf c)))

/-- HKILL (R137). -/
def execHkill (t : UnA) : State → Host.Outcome State Fault Refusal :=
  weave 0x38 2 t.g 0 t.a 0 controlOnly (fun c s =>
    let ra := s.src c t.a
    .ok (if s.handleLive (coreOf c) ra.1 then ra.2.endCtx (16 * coreOf c + fld ra.1.toNat 0 4) else ra.2))

/-- HSELF: the full handle (R135, R138). -/
def execHself (t : UnD) : State → Host.Outcome State Fault Refusal :=
  weave 0x38 3 t.g t.d 0 0 noPre (fun c s =>
    .ok (s.dst c t.d (BitVec.ofNat 64 (clusterOf c * 2 ^ 23 + coreOf c % 8 * 2 ^ 20 + (s.ctx c).gen * 16 + slotOf c))))

/-! ### Pipes (R139, R140) -/

/-- Entries before the first stop token. -/
def Pipe.values (p : Pipe) : List PipeEntry := p.entries.takeWhile (fun e => !isToken e)

def PipeEntry.word : PipeEntry → W64
  | .value w => w
  | .token => 0

def State.conPipe (s : State) (c q : Nat) : Option (Nat × Pipe) :=
  (consumerPipe (s.pipesOf c) (s.ctx c).role (q - 48)).bind (fun i => (s.pipesOf c)[i]?.map (fun p => (i, p)))
def State.proPipe (s : State) (c q : Nat) : Option (Nat × Pipe) :=
  (producerPipe (s.pipesOf c) (s.ctx c).role (q - 48)).bind (fun i => (s.pipesOf c)[i]?.map (fun p => (i, p)))

/-- QPEEK: the fate of a pop of one entry, the pipe unchanged (R13, R139); an acquire at cluster scope. -/
def execQpeek (t : Bin) : State → Host.Outcome State Fault Refusal :=
  weave 0x39 0 t.g t.d t.a 0 noPre (fun c s =>
    match s.conPipe c t.a with
    | none => if (s.proPipe c t.a).isSome then stop cUnderflow 0 t.a else .ok (s.dst c t.d 0)
    | some (_, p) => match p.popFate 1 with
      | .trap code => stop code 0 t.a
      | .stall => waitFor (.pipe false)
      | .token => waitFor (.pipe false)
      | .ok => .ok ((s.acquire (coreOf c)).dst c t.d ((p.entries.head?.map PipeEntry.word).getD 0)))

/-- QDEPTH (R139). -/
def execQdepth (t : Bin) : State → Host.Outcome State Fault Refusal :=
  weave 0x39 1 t.g t.d t.a 0 noPre (fun c s =>
    let word (p : Pipe) (n : Nat) : W64 :=
      BitVec.ofNat 64 ((if p.cclosed then 2 ^ 63 else 0) + (if p.pclosed then 2 ^ 62 else 0) + n)
    .ok (s.dst c t.d (match s.conPipe c t.a with
      | some (_, p) => word p p.values.length
      | none => match s.proPipe c t.a with
        | some (_, p) => word p (p.depth - p.entries.length)
        | none => 0)))

/-- QCLOSE (R118, R140). -/
def execQclose (t : UnA) : State → Host.Outcome State Fault Refusal :=
  weave 0x39 2 t.g 0 t.a 0 noPre (fun c s =>
    .ok (match s.conPipe c t.a with
      | some (i, _) => s.closeConsumer (s.ctx c).gang i
      | none => match s.proPipe c t.a with
        | some (i, _) => s.closeProducer (s.ctx c).gang i
        | none => s))

/-- QDROP: what it pops makes it an acquire at cluster scope, as a pop is (R119, R140). -/
def execQdrop (t : Tri) : State → Host.Outcome State Fault Refusal :=
  weave 0x39 3 t.g t.d t.a t.b noPre (fun c s =>
    let rb := s.src c t.b
    .ok (match rb.2.conPipe c t.a with
      | some (i, p) =>
        let n := min rb.1.toNat p.values.length
        let s1 := if n = 0 then rb.2
          else ((rb.2.setPipe c i { p with entries := p.entries.drop n }).postEvent (s.ctx c).gang p.prole p.pq).acquire
            (coreOf c)
        s1.dst c t.d (BitVec.ofNat 64 n)
      | none => rb.2.dst c t.d 0))

/-! ### Gang barriers (R141) -/

def Gang.bar (g : Gang) (b : Nat) : GBar := tgetD g.bars b GBar.zero

/-- One arrival. -/
def GBar.arrive (b : GBar) (count : Nat) : GBar :=
  let tgt := if b.arr = 0 then max 1 (min count 88) else b.tgt
  if b.arr + 1 = tgt then ⟨(b.phase + 1) % 2 ^ 32, 0, 0⟩ else ⟨b.phase, b.arr + 1, tgt⟩

/-- An arrival that will not be waited for is taken back (DEDUCED, log 16). -/
def GBar.withdraw (b : GBar) (phase : Nat) : GBar :=
  if b.phase = phase ∧ b.arr ≠ 0 then ⟨b.phase, b.arr - 1, if b.arr = 1 then 0 else b.tgt⟩ else b

def State.gbar (s : State) (c b : Nat) : GBar := ((s.gangOf c).map (fun g => g.bar b)).getD GBar.zero
def State.modGBar (s : State) (g b : Nat) (f : GBar → GBar) : State :=
  match tget s.weave.gangs g with
  | some gr => s.setGang g { gr with bars := tset gr.bars b (f (gr.bar b)) }
  | none => s

/-- Whether a phase has passed. -/
def phasePassed (now then_ : Nat) : Bool :=
  let d := (now + 2 ^ 32 - then_ % 2 ^ 32) % 2 ^ 32
  decide (1 ≤ d) && decide (d < 2 ^ 31)

/-- GARRIVE: a release at cluster scope (R141). -/
def execGarrive (t : Tri) : State → Host.Outcome State Fault Refusal :=
  weave 0x3A 1 t.g t.d t.a t.b noPre (fun c s =>
    let ra := s.src c t.a
    let rb := ra.2.src c t.b
    let b := ra.1.toNat % 8
    let ph := (s.gbar c b).phase
    .ok (((rb.2.drainAll (coreOf c)).modGBar (s.ctx c).gang b (fun g => g.arrive rb.1.toNat)).dst c t.d
      (BitVec.ofNat 64 ph)))

/-- GWAIT: an acquire at cluster scope (R141). -/
def execGwait (t : AB) : State → Host.Outcome State Fault Refusal :=
  weave 0x3A 2 t.g 0 t.a t.b noPre (fun c s =>
    let ra := s.src c t.a
    let rb := ra.2.src c t.b
    if phasePassed (s.gbar c (ra.1.toNat % 8)).phase rb.1.toNat then .ok (rb.2.acquire (coreOf c)) else waitFor .gwait)

/-- A context that arrived by GBAR remembers the phase and the barrier while its group waits. -/
def arrivedCode (phase b : Nat) : Nat := 8 * phase + b

/-- The arrival of a GBAR at `addr`, a release at cluster scope; it is made once, and stands while the group waits
unretired (R141). -/
def State.gbarArrive (s : State) (c addr : Nat) (t : Tri) : State :=
  let ra := s.src c t.a
  let rb := ra.2.src c t.b
  let b := ra.1.toNat % 8
  match tget (s.ctx c).arrived addr with
  | some _ => s
  | none =>
    let k := arrivedCode (s.gbar c b).phase b
    ((s.drainAll (coreOf c)).modGBar (s.ctx c).gang b (fun g => g.arrive rb.1.toNat)).modCtx c (fun x =>
      { x with arrived := tset x.arrived addr k })

/-- The wait of GBAR: over once the phase arrived in has passed (R141). -/
def State.gbarBody (s : State) (c : Nat) (t : Tri) : Run State :=
  let u := s.gbarArrive c s.ctl.syl t
  let ra := u.src c t.a
  let rb := ra.2.src c t.b
  let k := tgetD (u.ctx c).arrived s.ctl.syl 0
  if phasePassed (u.gbar c (k % 8)).phase (k / 8) then
    .ok ((rb.2.acquire (coreOf c)).dst c t.d (BitVec.ofNat 64 (k / 8)))
  else waitFor .gwait

/-- GBAR: GARRIVE, then GWAIT with its phase; the arrival stands while the group waits (R141). -/
def execGbar (t : Tri) (s : State) : Host.Outcome State Fault Refusal :=
  match weave 0x3A 0 t.g t.d t.a t.b noPre (fun c u => u.gbarBody c t) s with
  | .next u => match s.ctl.cur with
    | .ctx c =>
      if u.ctl.verdict = .waiting ∧ (u.ctx c).wait = some .gwait then .next (u.gbarArrive c s.ctl.syl t) else .next u
    | _ => .next u
  | r => r

/-- The arrivals of a context's unretired group are taken back: it will not wait for them. -/
def State.withdrawAll (s : State) (c : Nat) : State :=
  (s.ctx c).arrived.foldl (fun t e => t.modGBar (s.ctx c).gang (e.2 % 8) (fun g => g.withdraw (e.2 / 8))) s

/-- GRANK (R138). -/
def execGrank (t : UnD) : State → Host.Outcome State Fault Refusal :=
  weave 0x3A 3 t.g t.d 0 0 noPre (fun c s =>
    let g := s.gangOf c
    let idx := (g.map (·.idx)).getD 0
    let n := (g.map (fun g => g.cores.length)).getD 0
    .ok (s.dst c t.d (BitVec.ofNat 64 (idx * 2 ^ 32 + n * 2 ^ 16 + (s.ctx c).role * 2 ^ 8 + slotOf c))))

/-! ### Replay blocks (R142 to R145) -/

/-- The words of the block that follows REPF, all within its segment and executable (R143); a syllable whose page does not
give it is a translation fault, as at any fetch (R276). -/
def State.blockWords (s : State) (c : Nat) (g : Seg) : Nat → Nat → Run (List Nat × State)
  | 0, _ => .ok ([], s)
  | n + 1, va =>
    if va < g.last then
      match s.fetchSyl c g va with
      | .ok (w, s1) => do
        let (ws, s2) ← s1.blockWords c g n (va + 4)
        pure (w :: ws, s2)
      | .error (.cause code faddr info) => if code = cFetch then illegal else stop code faddr info
      | .error e => .error e
    else illegal

/-- The checks of R143 for a count `n`. -/
def State.repfCheck (s : State) (c : Nat) (t : Repf) (n : Nat) : Run (List Nat × Seg × State) := do
  let g ← s.segOf c s.ctl.syl
  let (ws, s1) ← s.blockWords c g (t.l + 1) (s.ctl.syl + 4)
  need (blockLegal t.f t.t (n % 2 ^ 16) ws) cIllegal 0 0
  pure (ws, g, s1)

/-- REPF: the block's executions run in order before the context's next group (R142 to R144). Before a count is popped, what
its first execution already breaks is tested (R117). -/
def execRepf (t : Repf) : State → Host.Outcome State Fault Refusal :=
  weave 0x3B 0 t.g t.f t.a 0
    (fun s c => (s.repfCheck c t (if isQ t.a then 0 else ((s.ctx c).x t.a).toNat)).map (fun _ => ()))
    (fun c s => do
      let ra := s.src c t.a
      let (ws, g, s1) ← ra.2.repfCheck c t ra.1.toNat
      let base := s.ctl.syl + 4
      let r : Replay := ⟨ws, base, t.f, t.t, ra.1.toNat % 2 ^ 16, 0, 0⟩
      pure (s1.modCtx c (fun x =>
        { x with replay := some r, pc := BitVec.ofNat 64 (s1.afterSeg c g (base + 4 * (t.l + 1))) })))

/-! ### Ending, yielding, event counters (R146 to R148) -/

/-- DONE: the context ends; its buffered stores drain in order (R146). -/
def execDone (t : Nul) : State → Host.Outcome State Fault Refusal :=
  weave 0x3C 0 t.g 0 0 0 noPre (fun c s => .ok (s.endCtx c))

/-- SIGNAL: a release at system scope (R122, R148). -/
def execSignal (t : AB) : State → Host.Outcome State Fault Refusal :=
  weave 0x3C 1 t.g 0 t.a t.b noPre (fun c s =>
    let ra := s.src c t.a
    let rb := ra.2.src c t.b
    .ok ((rb.2.drainAll (coreOf c)).signal (ra.1.toNat % 4096) rb.1))

/-- Whether a context is ready (R129): it waits for nothing, a stop token has not halted it, and its next group does not depend
on a replay in progress (R144). -/
def State.ready (s : State) (c : Nat) : Bool :=
  match s.ctx? c with
  | some x => x.wait.isNone && !x.halted && !s.interlocked c
  | none => false

/-- YIELD: not ready until each ready context of the core has issued once, or 11 cycles have passed (R147). -/
def execYield (t : Nul) : State → Host.Outcome State Fault Refusal :=
  weave 0x3C 2 t.g 0 0 0 noPre (fun c s =>
    let others := (List.range Config.slotsPerCore).filterMap (fun i =>
      let d := 16 * coreOf c + i
      if d ≠ c ∧ s.ready d then some d else none)
    .ok (if others.isEmpty then s else s.modCtx c (fun x => { x with wait := some (.yield others), since := some s.ctl.now })))

/-- WAITEV: an acquire at system scope as it ends (R148). -/
def execWaitev (t : Tri) : State → Host.Outcome State Fault Refusal :=
  weave 0x3C 3 t.g t.d t.a t.b noPre (fun c s =>
    let ra := s.src c t.a
    let rb := ra.2.src c t.b
    let v := s.evctr (ra.1.toNat % 4096)
    if rb.1.toNat ≤ v.toNat then .ok ((rb.2.acquire (coreOf c)).dst c t.d v) else waitFor .event)

/-! ### Tenons (R149 to R152) -/

/-- A tenon of the running launch. -/
def State.tenon? (s : State) (k : Nat) : Option Tenon :=
  if s.frame.running then s.frame.launch.bind (fun l => l.tenons[k]?) else none
/-- Whether a mortise is open. -/
def State.mortOpen (s : State) (m : Nat) : Bool := s.frame.running && s.frame.openM.contains m

/-- The conditions of R149, R150 and R179 on a TENON.V of operand `a`. A tenon that takes no value is MORTISE_BREACH for a context of any
address space, and a capability mismatch is found after it (R177, R179; DESIGN CHOICE, log 81). -/
def State.tenonCheck (s : State) (c : Nat) (a : W64) : Run Nat :=
  let k := a.toNat
  if 256 ≤ k then stop cBreach k 0
  else match s.tenon? k with
    | none => stop cBreach k 0
    | some t =>
      if t.dkind = 0 ∨ !s.mortOpen t.mort then stop cBreach k 0
      else match s.mortise? t.mort with
        | some m => if m.asid = (s.ctx c).asid.toNat then .ok k else stop cCap k 0
        | none => stop cBreach k 0

/-- TENON.V: posts a value; a release at die scope (R149, R150). -/
def execTenonV (t : AB) : State → Host.Outcome State Fault Refusal :=
  weave 0x3D 0 t.g 0 t.a t.b
    (fun s c => if isQ t.a then .ok () else (s.tenonCheck c ((s.ctx c).x t.a)).map (fun _ => ()))
    (fun c s => do
      let ra := s.src c t.a
      let rb := ra.2.src c t.b
      let k ← ra.2.tenonCheck c ra.1
      let u := rb.2.drainAll (coreOf c)
      pure { u with frame := { u.frame with posts := tset u.frame.posts k rb.1 } })

/-- The word that a TENON.W stages, with its mortise (R151). -/
def State.stageCheck (s : State) (c : Nat) (a : W64) : Run (Nat × Nat × State) := do
  let ea := a.toNat / 8 * 8
  let (ps, s1) ← s.checkPages c ea 8 .write
  match ps with
  | p :: _ => match regionOf p.pa with
    | .sram b off =>
      let l := if s.frame.running then s.openAt b off else []
      match l.find? (fun r => r.2.asid == (s.ctx c).asid.toNat) with
      | some r =>
        need (decide ((s.frame.staged.filter (fun w => w.1 == r.1)).length < Config.stagedWords)) cBreach a.toNat 0
        pure (r.1, p.pa, s1)
      | none => if l.isEmpty then stop cBreach a.toNat 0 else stop cCap a.toNat 0
    | _ => stop cBreach a.toNat 0
  | [] => stop cBreach a.toNat 0

/-- TENON.W (R149, R151). -/
def execTenonW (t : AB) : State → Host.Outcome State Fault Refusal :=
  weave 0x3D 1 t.g 0 t.a t.b
    (fun s c => if isQ t.a then .ok () else (s.stageCheck c ((s.ctx c).x t.a)).map (fun _ => ()))
    (fun c s => do
      let ra := s.src c t.a
      let (m, pa, s1) ← ra.2.stageCheck c ra.1
      let rb := s1.src c t.b
      let u := rb.2.drainAll (coreOf c)
      pure { u with frame := { u.frame with staged := u.frame.staged ++ [(m, pa, rb.1)] } })

/-- Ticks from FCNT to a closed mortise's next opening within the timetable (R152). -/
def ticksToOpen (fcnt flen nframes open_ : Nat) : Nat :=
  let f := fcnt / flen
  let at_ := if fcnt % flen < open_ ∨ fcnt % flen = open_ then f * flen + open_ else (f + 1) * flen + open_
  if at_ / flen < nframes then at_ - fcnt else 2 ^ 48 - 1

/-- The status word of TENON.Q (R152); in a hold at its close tick a mortise stands open past it. -/
def State.tenonStatus (s : State) (a : W64) : W64 :=
  let k := a.toNat
  match (if k < 256 then s.tenon? k else none), s.frame.launch with
  | some t, some l =>
    let m := s.mortise? t.mort
    let opn := s.mortOpen t.mort
    let phi := s.frame.fcnt.toNat % l.flen
    let o := (m.map (·.open_)).getD 0
    let cl := (m.map (·.close)).getD 0
    let posted := if t.dkind = 0 then s.frame.staged.any (fun w => w.1 == t.mort) else (tget s.frame.posts k).isSome
    let late := !s.frame.causes.isEmpty && phi == cl % l.flen
    let ticks := if opn then (if o ≤ phi ∧ !late then cl - phi else 0)
      else ticksToOpen s.frame.fcnt.toNat l.flen l.nframes o
    BitVec.ofNat 64 ((if opn then 2 ^ 63 else 0) + (if posted then 2 ^ 62 else 0) + ticks)
  | _, _ => 0

/-- TENON.Q (R152). -/
def execTenonQ (t : Bin) : State → Host.Outcome State Fault Refusal :=
  weave 0x3D 2 t.g t.d t.a 0 noPre (fun c s =>
    let ra := s.src c t.a
    .ok (ra.2.dst c t.d (s.tenonStatus ra.1)))

end Sys2Proof.Machine
end

