-- ==== Sys2Proof/Machine/EngineForms.lean ====
section
/-! DEFINITION. Majors 0x74, 0x75 and 0x77 (R328 to R337, R339): copies, barrier objects, watermark channels and cut-list
registers, on both planes. -/

namespace Sys2Proof.Machine

/-! ### CPY (R333 to R335) -/

/-- The watermark channel that a kind binds to, with its epoch. -/
def CpyKind.channel (kind : CpyKind) (wm : Tbl Watermark) : Watermark :=
  match kind with
  | .lin k => tgetD wm k Watermark.zero
  | _ => Watermark.zero
def CpyKind.bound (kind : CpyKind) (wm : Tbl Watermark) : Option (Nat × Nat) :=
  match kind with
  | .lin k => some (k, (tgetD wm k Watermark.zero).epoch)
  | _ => none

/-- A frame CPY: the due tick is the last anchor, or the release, plus A[31:0] (R334). -/
def State.frameCopy (s : State) (b d a : Nat) (kind : CpyKind) : Run State :=
  let k := s.bench b
  let clr := tgetD k.clr d ClReg.zero
  s.acceptCopy b clr (clr.cut.kindBad kind true (kind.channel k.wm).cfg) clr.addr
    (k.lastAnchor + (k.ra a).toNat % 2 ^ 32) (kind.bound k.wm)

/-- EVPEND.XFR is set (R101, R335). -/
def Ctx.xfr (x : Ctx) : Ctx := x.event 9

/-- A weave CPY: earlier stores become visible, the group stalls while the engine is full, and the engine checks and
accepts the copy at retirement (R302, R311, R335). -/
def State.weaveCopy (s : State) (c d : Nat) (kind : CpyKind) : Run State := do
  let x := s.ctx c
  let cl := s.cluster (clusterOf c)
  let clr := tgetD x.clr d ClReg.zero
  let cut := clr.cut
  if Config.bteLimit ≤ cl.bte.length then waitFor .engine
  else
    let t := s.drainAll (coreOf c)
    let row := cut.row (cut.kindBad kind false (kind.channel cl.wm).cfg) false (s.clx x) cut.base
    if row = 2 then pure (t.modCtx c Ctx.xfr)
    else if row ≠ 0 then .error (.wide (rowCode row false) clr.addr (rowInfo row))
    else
      let sr := cut.mode = 2 ∧ cut.rm = 4
      let q : BteCopy := ⟨c, x.asid.toNat, !x.priv, clr, x.drawc, x.seed, cut.rm, 0, 0, 0, kind.bound cl.wm, s.launchOf x,
        x.gang, x.gen, s.ctl.group, []⟩
      let t1 := if sr then t.modCtx c (fun y => { y with drawc := nextDraw y.drawc }) else t
      pure (t1.fresh.modCluster (clusterOf c) (fun k => { k with bte := tset k.bte t1.weave.nextId q }))

/-- A CPY form. -/
def cpy (x g d a b : Nat) (kind : CpyKind) : State → Host.Outcome State Fault Refusal :=
  both 0x74 x g d a b noPre (fun c s => s.weaveCopy c d kind) (fun bn _ s => s.frameCopy bn d a kind)

/-- CPY.BOX (R333). -/
def execCpyBox (t : Bin) : State → Host.Outcome State Fault Refusal := cpy 0 t.g t.d t.a 0 .box

/-- CPY.MCAST (R333). -/
def execCpyMcast (t : Bin) : State → Host.Outcome State Fault Refusal := cpy 1 t.g t.d t.a 0 .mcast

/-- CPY.RED (R333). -/
def execCpyRed (t : Bin) : State → Host.Outcome State Fault Refusal := cpy 2 t.g t.d t.a 0 .red

/-- CPY.LIN (R318, R333). -/
def execCpyLin (t : Tri) : State → Host.Outcome State Fault Refusal := cpy 3 t.g t.d t.a t.b (.lin t.b)

/-! ### Barrier objects (R336, R337) -/

/-- Offset of a bench's object, which the form may touch (R337, R384). -/
def State.frameBar (s : State) (b : Nat) (a : W64) : Run Nat := do
  let off := a.toNat / 16 * 16
  need (decide (off < Config.sramBytes)) cSram off 0
  s.checkOwner b off 16
  pure off

/-- Local address of a cluster's object. -/
def State.weaveBar (s : State) (c : Nat) (a : W64) : Run Nat :=
  let la := a.toNat / 16 * 16
  if la < 2 ^ 20 ∧ s.clx (s.ctx c) then .ok la else stop cLocal la 0

/-- The conditions of a weave barrier form on an operand that is no pipe. -/
def preBar (a : Nat) (s : State) (c : Nat) : Run Unit :=
  if isQ a then .ok () else (s.weaveBar c ((s.ctx c).x a)).map (fun _ => ())

/-- BAR.INIT (R337). -/
def execBarInit (t : AB) : State → Host.Outcome State Fault Refusal :=
  both 0x75 0 t.g 0 t.a t.b (preBar t.a)
    (fun c s => do
      let ra := s.src c t.a
      let rb := ra.2.src c t.b
      let la ← s.weaveBar c ra.1
      let u := rb.2.drainAll (coreOf c)
      pure (u.setLocalBar (clusterOf c) la ((u.localBar (clusterOf c) la).init rb.1)))
    (fun bn _ s => do
      let k := s.bench bn
      let off ← s.frameBar bn (k.ra t.a)
      pure (s.setBenchBar bn off ((s.benchBar bn off).init (k.ra t.b))))

/-- BAR.ARRIVE: D receives the phase before the arrival; on the weave plane a release at cluster scope (R337). -/
def execBarArrive (t : Tri) : State → Host.Outcome State Fault Refusal :=
  both 0x75 1 t.g t.d t.a t.b (preBar t.a)
    (fun c s => do
      let ra := s.src c t.a
      let rb := ra.2.src c t.b
      let la ← s.weaveBar c ra.1
      let u := rb.2.drainAll (coreOf c)
      let o := u.localBar (clusterOf c) la
      pure ((u.setLocalBar (clusterOf c) la (o.arrive rb.1)).dst c t.d (BitVec.ofNat 64 o.phase)))
    (fun bn _ s => do
      let k := s.bench bn
      let off ← s.frameBar bn (k.ra t.a)
      let o := s.benchBar bn off
      pure ((s.setBenchBar bn off (o.arrive (k.ra t.b))).modBench bn (fun q => q.later 1 (.a t.d (BitVec.ofNat 64 o.phase)))))

/-- BAR.WAIT: an acquire at cluster scope once the phase differs (R337). -/
def execBarWait (t : BarWait) : State → Host.Outcome State Fault Refusal :=
  weave 0x75 2 t.g 0 t.a t.p (preBar t.a) (fun c s => do
    let ra := s.src c t.a
    let la ← s.weaveBar c ra.1
    let u := ra.2.drainAll (coreOf c)
    if (u.localBar (clusterOf c) la).phase = t.p then waitFor .barrier else pure (u.acquire (coreOf c)))

/-- BAR.TEST (R337). -/
def execBarTest (t : BarTest) : State → Host.Outcome State Fault Refusal :=
  both 0x75 3 t.g t.d t.a t.p (preBar t.a)
    (fun c s => do
      let ra := s.src c t.a
      let la ← s.weaveBar c ra.1
      let u := ra.2.drainAll (coreOf c)
      let o := u.localBar (clusterOf c) la
      let flip := o.phase != t.p
      let v := if flip then u.acquire (coreOf c) else u
      pure (v.dst c t.d (BitVec.ofNat 64 ((if flip then 1 else 0) + 2 * o.ovr))))
    (fun bn _ s => do
      let k := s.bench bn
      let off ← s.frameBar bn (k.ra t.a)
      pure (s.modBench bn (fun q => q.later 1 (.g t.d ((s.benchBar bn off).phase != t.p)))))

/-! ### Watermarks (R339) -/

/-- The range of a WM.SET, within `space` bytes. FADDR is the offset A also where the length is at fault (R361; DESIGN CHOICE, log 84). -/
def wmRange (a b : W64) (space code : Nat) : Run Unit :=
  need (decide (a.toNat < 2 ^ 22) && decide (b.toNat < 2 ^ 22) && decide (a.toNat + b.toNat ≤ space)) code a.toNat 0

/-- WM.SET (R339). A new epoch is seen at once by the contexts stalled on the channel. -/
def execWmSet (t : Tri) : State → Host.Outcome State Fault Refusal :=
  both 0x77 0 t.g t.d t.a t.b
    (fun s c => if isQ t.a || isQ t.b then .ok () else wmRange ((s.ctx c).x t.a) ((s.ctx c).x t.b) (2 ^ 20) cLocal)
    (fun c s => do
      let ra := s.src c t.a
      let rb := ra.2.src c t.b
      wmRange ra.1 rb.1 (2 ^ 20) cLocal
      pure (rb.2.modCluster (clusterOf c) (fun k =>
        { k with wm := tset k.wm t.d ((tgetD k.wm t.d Watermark.zero).set ra.1.toNat rb.1.toNat) })))
    (fun bn _ s => do
      let k := s.bench bn
      wmRange (k.ra t.a) (k.ra t.b) Config.sramBytes cSram
      pure (s.setBench bn { k with wm := tset k.wm t.d ((tgetD k.wm t.d Watermark.zero).set (k.ra t.a).toNat (k.ra t.b).toNat) }))

/-- WM.RD (R339). -/
def execWmRd (t : Bin) : State → Host.Outcome State Fault Refusal :=
  both 0x77 1 t.g t.d t.a 0 noPre
    (fun c s => .ok (s.dst c t.d (tgetD (s.cluster (clusterOf c)).wm t.a Watermark.zero).pos))
    (fun bn _ s => .ok (s.modBench bn (fun k => k.later 1 (.a t.d (tgetD k.wm t.a Watermark.zero).pos))))

/-! ### Cut-list registers (R330 to R332) -/

/-- Aligned 8-byte words that a context reads one by one, each checked under R106. Those of a tensor SRAM share one turn of its port (R260;
DESIGN CHOICE, log 84). -/
def State.readWords (s : State) (c ea : Nat) : Nat → Run (List Byte × State)
  | 0 => .ok ([], s)
  | n + 1 => do
    let (v, s1) ← s.load c (ea % 2 ^ 64) 8 .read
    let (bs, s2) ← s1.readWords c (ea + 8) n
    pure (leBytes 8 v ++ bs, s2)

/-- The words of a cut list at an address: the header, then the dimension records it calls for (R331). -/
def State.readCut (s : State) (c ea : Nat) : Run (List Byte × State) := do
  let (h, s1) ← s.readWords c ea 6
  let n := imageLength (leNat (h.take 8))
  let (d, s2) ← s1.readWords c (ea + 48) ((n - 48) / 8)
  pure (h ++ d, s2)

/-- The checks of R106 on those words, tested before the pipes. -/
def preCut (a : Nat) (s : State) (c : Nat) : Run Unit :=
  if isQ a then .ok () else (List.range 6).forM (fun i =>
    (s.checkAccess c ((((s.ctx c).x a).toNat / 8 * 8 + 8 * i) % 2 ^ 64) 8 .read).map (fun _ => ()))

/-- Code bytes of the segment that a bench executes, as the loop buffer holds them; none where they are not data of the
segment (R331). -/
def Half.codeBytes (h : Half) (va n : Nat) : Run (List Byte) :=
  (List.range n).mapM (fun i =>
    let at_ := va + i
    let p := (at_ - h.body) / 4
    if at_ < h.body ∨ h.nsyl ≤ p then stop cFetch at_ 0
    else if bitOf (leNat ((h.bitmap.drop (p / 8)).take 1)) (p % 8) then stop cFetch at_ 0
    else .ok (BitVec.ofNat 8 (fld (h.words.getD p 0) (8 * ((at_ - h.body) % 4)) 8)))

def Half.empty : Half := ⟨0, 0, 0, [], [], 0, 0, false⟩

/-- CL.SEND: the low three bits of A are ignored (R331). -/
def execClSend (t : Bin) : State → Host.Outcome State Fault Refusal :=
  both 0x77 2 t.g t.d t.a 0 (preCut t.a)
    (fun c s => do
      let ra := s.src c t.a
      let ea := ra.1.toNat / 8 * 8
      let (bs, s1) ← ra.2.readCut c ea
      pure (s1.modCtx c (fun x => { x with clr := tset x.clr t.d ⟨bs, ea⟩ })))
    (fun bn _ s => do
      let k := s.bench bn
      let h := tgetD k.halves k.half Half.empty
      let ea := (k.ra t.a).toNat / 8 * 8
      let hd ← h.codeBytes ea 48
      let ds ← h.codeBytes (ea + 48) (imageLength (leNat (hd.take 8)) - 48)
      pure (s.setBench bn { k with clr := tset k.clr t.d ⟨hd ++ ds, ea⟩ }))

/-- CL.CHK (R332). -/
def execClChk (t : Bin) : State → Host.Outcome State Fault Refusal :=
  both 0x77 3 t.g t.d t.a 0 noPre
    (fun c s =>
      let cut := (tgetD (s.ctx c).clr t.a ClReg.zero).cut
      .ok (s.dst c t.d (BitVec.ofNat 64 (cut.check false (s.clx (s.ctx c)) cut.base))))
    (fun bn _ s =>
      let k := s.bench bn
      let cut := (tgetD k.clr t.a ClReg.zero).cut
      .ok (s.setBench bn (k.later 1 (.a t.d (BitVec.ofNat 64 (cut.check true false (k.arena cut)))))))

end Sys2Proof.Machine
end

