-- ==== Sys2Proof/Machine/JigForms.lean ====
section
/-! DEFINITION. The jig (R319 to R322, R338, major 0x76), the channels (R323, R324, R340, R341, major 0x78), and PAUSE's
tests of both (R321, R334). -/

namespace Sys2Proof.Machine

/-! ### The program (R319) -/

def Jig.word (j : Jig) (off : Nat) : Nat := leNat ((j.store.drop off).take 8)
def Jig.mode (j : Jig) : Nat := fld (j.word 0) 62 2
def Jig.levels (j : Jig) : Nat := fld (j.word 0) 59 3 + 1
def Jig.per (j : Jig) : Nat := fld (j.word 0) 16 16
def Jig.due (j : Jig) : Nat := fld (j.word 8) 32 32
/-- The template as a cut list's image, its bases replaced. -/
def Jig.template (j : Jig) (base dbase : Nat) : ClReg :=
  let t := (j.store.drop 0xB0).take (imageLength (j.word 0xB0))
  ⟨t.take 8 ++ leBytes 8 base ++ leBytes 8 dbase ++ t.drop 24, j.addr⟩
/-- The words of a BUNDLE template, header first. -/
def Jig.bundle (j : Jig) : List Nat :=
  let w (i : Nat) : Nat := leNat ((j.store.drop (0xB0 + 4 * i)).take 4)
  (List.range (bundleLen (w 0))).map w

/-- A form that no template holds. -/
def jigBans (w : Nat) : Bool :=
  let m := majOf w
  (decide (0x20 ≤ m) && decide (m ≤ 0x24)) || m == 0x76 || m == 0x7C || m == 0x7D ||
    (writesF w).any (fun i => i == 130 || i == 131)

/-- The checks of JIG.LOAD. -/
def Jig.legal (j : Jig) : Bool :=
  fld (j.word 0) 62 2 ≤ 1 && j.levels ≤ 6 && fld (j.word 0) 32 27 == 0 && fld (j.word 0) 0 16 == 0 && 1 ≤ j.per &&
    fld (j.word 8) 0 32 == 0 && (j.mode == 0 || j.due == 0) &&
    (List.range j.levels).all (fun l => fld (j.word (0x20 + 24 * l)) 35 28 == 0) &&
    (if j.mode = 0 then !(j.template 0 0).cut.row1 true
     else
      decide (bundleLen (j.word 0xB0 % 2 ^ 32) ≤ 16) && !ppOf (j.word 0xB0 % 2 ^ 32) && !ancOf (j.word 0xB0 % 2 ^ 32) &&
        (match bundleSlots (j.addr + 0xB0) j.bundle with
          | some ss => ss.all (fun s => !jigBans s.word)
          | none => false))

/-- Iterations of a run (R320). -/
def Jig.total (j : Jig) : Nat := j.trips.foldl (· * ·) 1
/-- The trip counts at JIG.GO. -/
def Jig.tripsFrom (j : Jig) (seqlen : Tbl W32) : List Nat :=
  (List.range j.levels).map (fun l =>
    let w := j.word (0x20 + 24 * l)
    if bitOf w 63 then (tgetD seqlen (fld w 32 3) 0).toNat else fld w 0 32)
/-- Stream `off` (0x10 for S, 0x18 for D) at iteration `n`: increments lie at `inc` of a level's record. -/
def Jig.stream (j : Jig) (off inc : Nat) : List Nat → Nat → Nat → Nat
  | [], _, _ => j.word off
  | t :: ts, l, n => (n % t * j.word (inc + 24 * l) + j.stream off inc ts (l + 1) (n / t)) % 2 ^ 64
def Jig.sAt (j : Jig) (n : Nat) : Nat := j.stream 0x10 0x28 j.trips 0 n
def Jig.dAt (j : Jig) (n : Nat) : Nat := j.stream 0x18 0x30 j.trips 0 n

/-! ### Forms (R321, R338) -/

/-- JIG.LOAD (R319, R338). -/
def execJigLoad (t : UnA) : State → Host.Outcome State Fault Refusal :=
  frame 0x76 0 t.g 0 t.a 0 (fun bn _ s => do
    let k := s.bench bn
    let off := (k.ra t.a).toNat / 64 * 64
    s.checkSram bn off 512
    need (k.jig.state != .run) cJigBusy off 0
    let j : Jig := { Jig.idle with store := s.sramBytes bn off 512, addr := off, state := .loaded, iter := k.jig.iter }
    need j.legal cJigProgram off 0
    pure (s.setBench bn { k with jig := j }))

/-- JIG.GO (R321); a BUNDLE program suspends the bench's own issue (R322). -/
def execJigGo (t : Nul) : State → Host.Outcome State Fault Refusal :=
  frame 0x76 1 t.g 0 0 0 (fun bn _ s => do
    let k := s.bench bn
    need (k.jig.state != .idle) cJigProgram k.jig.addr 0
    need (k.jig.state != .run) cJigBusy k.jig.addr 0
    let j : Jig := { k.jig with trips := k.jig.tripsFrom k.seqlen, iter := 0, start := k.tick, anchor := k.lastAnchor }
    let j1 := if j.total = 0 then j else { j with state := .run }
    let k1 := { k with jig := j1 }
    pure (s.setBench bn (if j.mode = 1 then { k1 with bubble := k.tick + 1 + j.total * j.per } else k1)))

/-- JIG.STOP (R321). -/
def execJigStop (t : Nul) : State → Host.Outcome State Fault Refusal :=
  frame 0x76 2 t.g 0 0 0 (fun bn _ s =>
    .ok (s.modBench bn (fun k => if k.jig.state = .run then { k with jig := { k.jig with state := .loaded } } else k)))

def JigState.code : JigState → Nat
  | .idle => 0
  | .loaded => 1
  | .run => 2
/-- The word that JIG.STAT writes (R338). -/
def Jig.stat (j : Jig) : W64 :=
  BitVec.ofNat 64 (j.state.code * 2 ^ 62 + (j.levels - 1) * 2 ^ 59 + j.mode % 2 * 2 ^ 58 + min j.iter (2 ^ 32 - 1))
/-- JIG.STAT (R338). -/
def execJigStat (t : UnD) : State → Host.Outcome State Fault Refusal :=
  frame 0x76 3 t.g t.d 0 0 (fun bn _ s => .ok (s.modBench bn (fun k => k.later 1 (.a t.d k.jig.stat))))

/-- Iteration `n` of a running jig has been made. -/
def Jig.made (j : Jig) : Jig := { j with iter := j.iter + 1, state := if j.total ≤ j.iter + 1 then .loaded else .run }
/-- Whether an iteration falls on a bench's tick. -/
def Jig.falls (j : Jig) (tick : Nat) : Bool := j.state == .run && tick == j.start + 1 + j.iter * j.per

/-- JIG_ITERATION (R322). -/
def execJigIteration (b : Nat) (s : State) : Host.Outcome State Fault Refusal :=
  let k := s.bench b
  let j := k.jig
  if !j.falls k.tick then .fault .noSubject
  else
    let n := j.iter
    let s1 := { s.setBench b { k with jig := j.made } with ctl := { s.ctl with group := 0, ext := none } }
    if j.mode = 0 then
      finishF' s1 b (s1.acceptCopy b (j.template (j.sAt n) (j.dAt n)) false j.addr (j.anchor + j.due + n * j.per) none)
    else
      .next ((s1.modBench b (fun q =>
        (q.wa 30 (BitVec.ofNat 64 (j.sAt n))).wa 31 (BitVec.ofNat 64 (j.dAt n)))).push [.template b])

/-! ### Channels (R324, R340, R341) -/

def State.channel (s : State) (ch : Nat) : Run Channel :=
  match tget s.frame.channels ch with
  | some c => .ok c
  | none => stop cChRole 0 ch
def State.setChannel (s : State) (ch : Nat) (c : Channel) : State :=
  { s with frame := { s.frame with channels := tset s.frame.channels ch c } }
/-- The consumer's side (R340). -/
def State.consumed (s : State) (b ch : Nat) : Run Channel := do
  let c ← s.channel ch
  need (c.xpkg || c.cons == b) cChRole 0 ch
  pure c

def State.send (s : State) (m : Message) : State := { s with eng := { s.eng with outbox := s.eng.outbox ++ [m] } }

/-- One entry lands at a tick in the consumer's buffer; a full buffer ends the launch, whatever a get of the same tick would take
(R324; DEDUCED, log 82). -/
def State.landEntry (s : State) (ch now : Nat) (v : W1024) : State :=
  match tget s.frame.channels ch with
  | none => s
  | some c =>
    if c.depth ≤ c.landed.length then s.faultFrame ⟨cChFull, ch, 0, 0, 1, c.cons, 0⟩
    else s.setChannel ch { c with landed := c.landed ++ [(now, v)] }

/-- CH.PUT (R341). An entry due at its own tick, on a channel of no latency, lands with it, in a hold when the hold ends (R170). -/
def execChPut (t : Tri) : State → Host.Outcome State Fault Refusal :=
  frame 0x78 0 t.g t.d t.a t.b (fun bn _ s => do
    let k := s.bench bn
    let c ← s.channel t.d
    need (c.prod == bn) cChRole 0 t.d
    let now := s.frame.fcnt.toNat
    let due := k.lastAnchor + (k.ra t.b).toNat % 2 ^ 32
    need (decide (now + c.lat ≤ due)) cTimed 0 0
    let v := k.rv t.a % 2 ^ c.width
    if !c.xpkg && due == now && s.frame.causes.isEmpty then pure (s.landEntry t.d now (BitVec.ofNat 1024 v))
    else
      let s1 := s.setChannel t.d { c with flying := c.flying ++ [(due, now, BitVec.ofNat 1024 v)] }
      pure (if c.xpkg then s1.send (.entry t.d due v) else s1))

/-- The oldest landed entry (R324). -/
def Channel.oldest (c : Channel) (ch : Nat) : Run (W1024 × Channel) :=
  match c.landed with
  | e :: rest => .ok (e.2, { c with landed := rest })
  | [] => stop cChEmpty 0 ch

/-- CH.GET (R341). -/
def execChGet (t : Bin) : State → Host.Outcome State Fault Refusal :=
  frame 0x78 1 t.g t.d t.a 0 (fun bn _ s => do
    let c ← s.consumed bn t.a
    let (e, c1) ← c.oldest t.a
    pure ((s.setChannel t.a c1).modBench bn (fun k => k.laterV 2 t.d 0 c.width e.toNat)))

/-- One element of CH.RED; none where the type takes part in no reduction. -/
def chanOp (ty op : Nat) : Option (Nat → Nat → Nat × Nat) :=
  match ieeeOf ty with
  | some f => some (fun d e => if op = 0 then fadd f .rne 0 d e else clean (if op = 1 then fmax f d e else fmin f d e))
  | none =>
    if 1 ≤ ty ∧ ty ≤ 3 then
      let n := fmtWidth ty
      some (fun d e => clean (if op = 0 then addW n d e else if op = 1 then maxI n d e else minI n d e))
    else none

/-- CH.RED (R341). A format it does not take is reported with FADDR and INFO 0, as it has no element or cut list (R361; DESIGN CHOICE,
DESIGN CHOICE, log 84). -/
def execChRed (t : Tri) : State → Host.Outcome State Fault Refusal :=
  frame 0x78 2 t.g t.d t.a t.b (fun bn _ s => do
    let c ← s.consumed bn t.a
    match chanOp c.ty t.b with
    | none => stop cShapeFormat 0 0
    | some f => do
      let (e, c1) ← c.oldest t.a
      let n := fmtWidth c.ty
      let k := s.bench bn
      let r := yMap n (c.width / n) (fun i => f (k.vl n t.d i) (lane n i e.toNat))
      pure ((s.setChannel t.a c1).setBench bn ((k.laterV 3 t.d 0 c.width r.1).laterFlags 3 r.2)))

/-- CH.STAT: entries that landed before this tick and are not taken (R329, R341). -/
def execChStat (t : Bin) : State → Host.Outcome State Fault Refusal :=
  frame 0x78 3 t.g t.d t.a 0 (fun bn _ s => do
    let c ← s.consumed bn t.a
    let n := c.landed.countP (fun e => decide (e.1 < s.frame.fcnt.toNat))
    pure (s.modBench bn (fun k => k.later 1 (.a t.d (BitVec.ofNat 64 (c.lat * 2 ^ 16 + n))))))

/-- The entries of a list in ascending due tick, those of one tick as they stand. -/
def insertDue (e : Nat × Nat × W1024) : List (Nat × Nat × W1024) → List (Nat × Nat × W1024)
  | [] => [e]
  | f :: rest => if e.1 < f.1 then e :: f :: rest else f :: insertDue e rest
def byDue (l : List (Nat × Nat × W1024)) : List (Nat × Nat × W1024) := l.foldl (fun a e => insertDue e a) []

/-- What an ARRIVAL_LATE cause is about: a copy or a channel (R171). -/
def aboutCopy (id : Nat) : Nat := 2 * id
def aboutChannel (ch : Nat) : Nat := 2 * ch + 1

/-- CHANNEL_ENTRY_LANDING: the entries that fall due; one that another package sent arrives before its due tick, or ends the wait for
it (R324, R399). -/
def execChannelEntryLanding (ch : Nat) (arriving : Option (Nat × Nat)) (s : State) : Host.Outcome State Fault Refusal :=
  match tget s.frame.channels ch with
  | none => .fault .noSubject
  | some c =>
    match arriving with
    | some (due, v) =>
      let t := s.setChannel ch { c with inbound := c.inbound ++ [(due, BitVec.ofNat 1024 (v % 2 ^ c.width))] }
      .next { t with frame := { t.frame with lateLinks := t.frame.lateLinks.filter (fun e => e != (ch, due)) } }
    | none =>
      let now := s.frame.fcnt.toNat
      let sent := (byDue c.flying).filter (fun e => decide (e.1 ≤ now))
      let came := (byDue (c.inbound.map (fun e => (e.1, e.1, e.2)))).filter (fun e => decide (e.1 ≤ now))
      let t := s.setChannel ch { c with
        flying := c.flying.filter (fun e => !decide (e.1 ≤ now)), inbound := c.inbound.filter (fun e => !decide (e.1 ≤ now)) }
      .next ((if c.xpkg then came else sent).foldl (fun u e => u.landEntry ch now e.2.2) t)

/-- Entries that a bench has put and that have not landed. -/
def State.putting (s : State) (b : Nat) : Bool := s.frame.channels.any (fun c => c.2.prod == b && !c.2.flying.isEmpty)

/-- PAUSE: an anchor counted from the anchored bundle before it (R210); nothing may be in flight (R211, R321,
R334), and its tick
lies within PAUSEBND of the last pause point (R174). -/
def execPause (t : Pause) : State → Host.Outcome State Fault Refusal :=
  frameIf 0x7D 2 0 (t.c / 4096) (t.c / 64 % 64) (t.c % 64) (fun _ _ => t.c != 0) (fun bn _ s => do
    let k := s.bench bn
    need (k.pend.all (fun p => decide (p.at_ ≤ k.tick))) cDirty 0 0
    need (!s.frame.lpass.any (fun e => e.1 == (bn / 16) * 16 + (bn + 1) % 16)) cDirty 0 0
    need (k.jig.state != .run && s.copiesOf bn == 0 && !s.putting bn) cDirty 0 0
    let at_ := k.lastAnchor + t.c
    need (decide (at_ ≤ k.lastPause + s.frame.pausebnd.toNat)) cSpacing 0 0
    pure (s.setBench bn { k with lastAnchor := at_, lastPause := at_ }))

end Sys2Proof.Machine
end

