-- ==== Sys2Proof/Machine/RemoteForms.lean ====
section
/-! DEFINITION. Majors 0x79 and 0x7A (R342 to R345): Spline groups and the ring-membership table; majors 0x3E and 0x3F
(R346 to R350): remote access. -/

namespace Sys2Proof.Machine

/-! ### Memory as an engine outside the cores reaches it -/

/-- The page parts of `n` bytes, each with its permission (R276, R281); at most `fuel` pages. -/
def State.spanParts (s : State) (asid : Nat) (user : Bool) (use : Use) : Nat → Nat → Nat → Run (List Part)
  | 0, _, _ => .ok []
  | fuel + 1, va, n =>
    if n = 0 then .ok []
    else if !canonical va then .error (.wide cTranslation va 0)
    else match s.walkError asid (va % 2 ^ 57), s.walk asid (va % 2 ^ 57) with
      | some at_, _ => .error (.wide cEcc at_ (stackOf at_))
      | none, none => .error (.wide cTranslation va 0)
      | none, some l =>
        if !l.allows use user then .error (.wide cTranslation va 0)
        else do
          let k := beforeEdge va n 4096
          let rest ← s.spanParts asid user use fuel ((va + k) % 2 ^ 64) (n - k)
          pure (⟨l.phys va, k, l⟩ :: rest)
def State.span (s : State) (asid : Nat) (user : Bool) (use : Use) (va n : Nat) : Run (List Part) :=
  s.spanParts asid user use (n / 4096 + 2) va n

/-- Tensor SRAM is reached only inside a mortise (R257, R106). -/
def State.spanReach (s : State) (asid va : Nat) (ps : List Part) : Run Unit :=
  ps.forM (fun p => match regionOf p.pa with
    | .sram b off => (List.range ((p.len + 127) / 128)).forM (fun i =>
        s.mortiseCheck asid b (off + 128 * i) (min 128 (p.len - 128 * i)) va)
    | _ => .ok ())

/-- A read of the parts passes unless an error of it is uncorrectable (R269). -/
def State.spanGood (s : State) (ps : List Part) : Run Unit := ps.forM (fun p => s.eccRead p.pa p.len)
/-- The correctable errors that walks from `va` on and the reads of the parts meet are corrected and counted (R269, R385). -/
def State.spanMeet (s : State) (asid va : Nat) : List Part → State
  | [] => s
  | p :: ps => ((s.walkMeet asid (va % 2 ^ 57)).eccCorrect p.pa p.len).spanMeet asid ((va + p.len) % 2 ^ 64) ps
/-- The same of a range that is written: the errors of its walks. -/
def State.spanWalks (s : State) (asid va : Nat) : List Part → State
  | [] => s
  | p :: ps => (s.walkMeet asid (va % 2 ^ 57)).spanWalks asid ((va + p.len) % 2 ^ 64) ps
def State.spanRead (s : State) (ps : List Part) : List Byte := ps.flatMap (fun p => s.mem.bytes p.pa p.len)
/-- Bytes placed by an engine: whole words, each set full (R293). -/
def State.spanPut (s : State) : List Part → List Byte → State
  | [], _ => s
  | p :: ps, bs => ({ s with mem := s.mem.enginePut (!p.leaf.nc) p.pa (bs.take p.len) }).spanPut ps (bs.drop p.len)

/-! ### Spline groups (R342 to R344) -/

/-- A group descriptor (R342), if it is well formed. -/
def groupDesc (bs : List Byte) : Option Group :=
  let w0 := leNat (bs.take 8)
  let src := leNat ((bs.drop 8).take 8)
  let dst := leNat ((bs.drop 16).take 8)
  let w3 := leNat ((bs.drop 24).take 8)
  let nmem := fld w0 40 8
  let midx := fld w0 32 8
  let ty := fld w0 30 2
  let count := fld w0 0 21
  if fld w0 21 8 ≠ 0 ∨ 1 < ty ∨ count = 0 ∨ 2 ^ 20 < count ∨ nmem < 2 ∨ nmem ≤ midx ∨ src % (if ty = 1 then 2 else 4) ≠ 0 ∨
      dst % 4 ≠ 0 ∨ fld w3 32 32 = 0 then none
  else some { Group.unbound with gid := fld w0 48 16, nmem := nmem, midx := midx, ty := ty, ord := bitOf w0 29, count := count
                                 src := src, dst := dst, tmo := fld w3 32 32, sq := fld w3 0 32 }

/-- SPL.GRP (R342). -/
def execSplGrp (t : Bin) : State → Host.Outcome State Fault Refusal :=
  weave 0x79 0 t.g t.d t.a 0 noPre (fun c s => do
    let x := s.ctx c
    let g := s.group t.d
    let ra := s.src c t.a
    need (g.asid.isNone || g.asid == some x.asid.toNat) cCap ra.1.toNat 0
    if g.asid.isSome ∧ g.state = 1 then waitFor .spline
    else do
      let (bs, s1) ← ra.2.readWords c ra.1.toNat 4
      match groupDesc bs with
      | none => stop cShape ra.1.toNat 0
      | some d => pure (s1.setGroup t.d { d with asid := some x.asid.toNat, launch := s.launchOf x }))

/-- The entry of a form that needs it bound to the context's address space. -/
def State.ownGroup (s : State) (c g : Nat) : Run Group :=
  let e := s.group g
  if e.asid = some (s.ctx c).asid.toNat then .ok e else stop cCap 0 0

/-- SPL.RST (R344). -/
def execSplRst (t : UnD) : State → Host.Outcome State Fault Refusal :=
  weave 0x79 1 t.g t.d 0 0 noPre (fun c s => do
    if (s.group t.d).asid.isNone then pure s
    else do
      let _ ← s.ownGroup c t.d
      pure (s.setGroup t.d Group.unbound))

/-- The DST words of a group, each checked (R343). -/
def State.groupDst (s : State) (x : Ctx) (g : Group) : Run (List Part) := do
  let ps ← s.span x.asid.toNat (!x.priv) .write g.dst (4 * g.count)
  need (ps.all (fun p => atomicTarget p.pa 0)) cAtomic g.dst 0
  s.spanReach x.asid.toNat g.dst ps
  pure ps
/-- The source, and its elements as F32 bits. -/
def State.groupSrc (s : State) (x : Ctx) (g : Group) : Run (List Part × List Nat) := do
  let n := if g.ty = 1 then 2 else 4
  let ps ← s.span x.asid.toNat (!x.priv) .read g.src (n * g.count)
  s.spanReach x.asid.toNat g.src ps
  s.spanGood ps
  let bs := s.spanRead ps
  pure (ps, (List.range g.count).map (fun i =>
    let v := leNat ((bs.drop (n * i)).take n)
    if g.ty = 1 then v * 65536 else v))
/-- The contribution that an entry has outstanding (R343). -/
def Group.contribution (g : Group) : Contribution :=
  { gid := g.gid, seq := g.sent, nmem := g.nmem, midx := g.midx, ty := g.ty, ord := g.ord, count := g.count, tmo := g.tmo
    vals := g.vals }
/-- The words of some parts are set empty, where they carry full/empty bits. -/
def State.spanEmpty (s : State) (ps : List Part) : State :=
  ps.foldl (fun t p => if t.hasFullBits p.pa then { t with mem := t.mem.setEmpty p.pa (wordsTouched p.pa p.len) } else t) s
def Part.wordList (p : Part) : List (Nat × Bool) := (List.range (p.len / 4)).map (fun i => (p.pa + 4 * i, p.leaf.nc))

/-- SPL.LDR (R343). -/
def execSplLdr (t : UnD) : State → Host.Outcome State Fault Refusal :=
  weave 0x79 2 t.g t.d 0 0 noPre (fun c s => do
    let g ← s.ownGroup c t.d
    if g.state = 1 then waitFor .spline
    else do
      let x := s.ctx c
      let s1 := s.drainAll (coreOf c)
      let ps ← s1.groupDst x g
      let src ← s1.groupSrc x g
      let h := { g with state := 1, sent := g.sq, sq := (g.sq + 1) % 2 ^ 32, vals := src.2, launch := s.launchOf x
                        pas := ps.flatMap Part.wordList }
      let s2 := (s1.spanWalks x.asid.toNat g.dst ps).spanMeet x.asid.toNat g.src src.1
      pure (((s2.spanEmpty ps).setGroup t.d h).send (.contribute h.contribution)))

/-- The word of SPL.STAT (R344). -/
def Group.stat (g : Group) : W64 := if g.asid.isNone then 0 else BitVec.ofNat 64 (g.state * 2 ^ 62 + g.sq)

/-- SPL.STAT: on the weave plane an acquire when it returns DONE (R344). -/
def execSplStat (t : Bin) : State → Host.Outcome State Fault Refusal :=
  both 0x79 3 t.g t.d t.a 0 noPre
    (fun c s => do
      let g := s.group t.a
      need (g.asid.isNone || g.asid == some (s.ctx c).asid.toNat) cCap 0 0
      let s1 := if g.asid.isSome ∧ g.state = 2 then s.acquire (coreOf c) else s
      pure (s1.dst c t.d g.stat))
    (fun bn _ s => do
      let g := s.group t.a
      need (g.asid.isNone || g.asid == s.frame.launch.map (·.asid)) cCap 0 0
      pure (s.modBench bn (fun k => k.later 1 (.a t.d g.stat))))

/-! ### The ring-membership table (R325 to R327, R345) -/

abbrev Ring := Tbl (List W64)

/-- Whether member `i` is live. -/
def ringLive (r : Ring) (n i : Nat) : Bool :=
  let w := (ringWord r i 0).toNat
  decide (i < n) && bitOf w 63 && !bitOf w 62
/-- The next member after `i`, 0x100 where none is live. -/
def ringNext (r : Ring) (n i : Nat) : Nat :=
  (((List.range n).map (fun j => (i + j + 1) % n)).find? (ringLive r n)).getD 0x100
/-- Replace fields of an entry's first word. -/
def ringMark (r : Ring) (i : Nat) (f : W64 → W64) : Ring :=
  let e := tgetD r i [0, 0, 0, 0]
  tset r i (f (e.getD 0 0) :: e.drop 1)
/-- A skip of a live member (R326). -/
def ringSkip (r : Ring) (n k : Nat) : Ring :=
  let r1 := ringMark r k (fun w => setFld w 62 1 1)
  let a := ringNext r1 n k
  let r2 := ringMark r1 k (fun w => setFld w 48 9 a)
  ((List.range 256).filter (fun j => bitOf (ringWord r2 j 0).toNat 62 && fld (ringWord r2 j 0).toNat 48 9 == k)).foldl
    (fun q j => ringMark q j (fun w => setFld w 48 9 a)) r2
/-- An entry's image, its reserved fields written as zero. -/
def ringImage (bs : List Byte) : List W64 :=
  let w (i : Nat) : W64 := BitVec.ofNat 64 (leNat ((bs.drop (8 * i)).take 8))
  [setFld (setFld (w 0) 57 4 0) 16 15 0, w 1, w 2, 0]

/-- A selector's bits above 8 must be 0 (R345). A bench's fault has no descriptor or cut list to report, and FADDR is 0 (R361; DESIGN CHOICE,
DESIGN CHOICE, log 84). -/
def selOk (a : W64) : Run Unit := need (decide (a.toNat < 512)) cIllegal 0 0
def selOkF (a : W64) : Run Unit := need (decide (a.toNat < 512)) cShape 0 0
def preSel (a : Nat) (s : State) (c : Nat) : Run Unit := if isQ a then .ok () else selOk ((s.ctx c).x a)

/-- RING.SET (R345). -/
def execRingSet (t : AB) : State → Host.Outcome State Fault Refusal :=
  weave 0x7A 0 t.g 0 t.a t.b (preSel t.a) (fun c s => do
    let ra := s.src c t.a
    let rb := ra.2.src c t.b
    selOk ra.1
    if 256 ≤ ra.1.toNat then
      pure { rb.2 with eng := { rb.2.eng with ringN := max 1 (min rb.1.toNat 256) } }
    else do
      let (bs, s1) ← rb.2.readWords c (rb.1.toNat / 8 * 8) 4
      pure { s1 with eng := { s1.eng with ring := tset s1.eng.ring (ra.1.toNat % 256) (ringImage bs) } })

/-- RING.NEXT (R326, R345). -/
def execRingNext (t : Bin) : State → Host.Outcome State Fault Refusal :=
  both 0x7A 1 t.g t.d t.a 0 (preSel t.a)
    (fun c s => do
      let ra := s.src c t.a
      selOk ra.1
      pure (ra.2.dst c t.d (BitVec.ofNat 64 (ringNext s.eng.ring s.eng.ringN (ra.1.toNat % 256)))))
    (fun bn _ s => do
      let a := (s.bench bn).ra t.a
      selOkF a
      pure (s.modBench bn (fun k =>
        k.later 1 (.a t.d (BitVec.ofNat 64 (ringNext s.frame.ringView s.frame.ringViewN (a.toNat % 256)))))))

/-- RING.SKIP (R326, R345). -/
def execRingSkip (t : Bin) : State → Host.Outcome State Fault Refusal :=
  weave 0x7A 2 t.g t.d t.a 0 (preSel t.a) (fun c s => do
    let ra := s.src c t.a
    selOk ra.1
    let k := ra.1.toNat % 256
    if ringLive s.eng.ring s.eng.ringN k then
      let r := ringSkip s.eng.ring s.eng.ringN k
      let u := ra.2
      pure (({ u with eng := { u.eng with ring := r } }).dst c t.d (BitVec.ofNat 64 (fld (ringWord r k 0).toNat 48 9)))
    else pure (ra.2.dst c t.d 0x100))

/-- What RING.RD reads. -/
def ringRead (r : Ring) (n a w : Nat) : W64 := if 256 ≤ a then BitVec.ofNat 64 n else ringWord r (a % 256) w

/-- RING.RD (R345). -/
def execRingRd (t : Tri) : State → Host.Outcome State Fault Refusal :=
  both 0x7A 3 t.g t.d t.a t.b (preSel t.a)
    (fun c s => do
      let ra := s.src c t.a
      selOk ra.1
      pure (ra.2.dst c t.d (ringRead s.eng.ring s.eng.ringN ra.1.toNat t.b)))
    (fun bn _ s => do
      let a := (s.bench bn).ra t.a
      selOkF a
      pure (s.modBench bn (fun k => k.later 1 (.a t.d (ringRead s.frame.ringView s.frame.ringViewN a.toNat t.b)))))

/-! ### Remote access (R346 to R350) -/

/-- A work request (R346); `bad` says that a reserved field or value stands in it. -/
structure WorkReq where
  op : Nat
  aop : Nat
  ev : Option Nat
  conn : Nat
  laddr : Nat
  raddr : Nat
  len : Nat
  tag : Nat
  opnd1 : Nat
  opnd2 : Nat
  bad : Bool
  deriving DecidableEq, Repr

def workReq (bs : List Byte) : WorkReq :=
  let w (i : Nat) : Nat := leNat ((bs.drop (8 * i)).take 8)
  let op := fld (w 0) 60 4
  let len := fld (w 3) 0 32
  { op := op, aop := fld (w 0) 57 3, ev := if bitOf (w 0) 56 then some (fld (w 0) 44 12) else none, conn := fld (w 0) 0 24
    laddr := w 1, raddr := w 2, len := len, tag := w 4, opnd1 := w 5, opnd2 := w 6
    bad := decide (4 < op) || fld (w 0) 24 20 != 0 || fld (w 3) 32 32 != 0 || w 7 != 0 ||
      (op == 2 && (len != 8 || w 1 % 8 != 0 || w 2 % 8 != 0)) }

/-- Whether a connection is open for an address space. -/
def State.connOpen (s : State) (conn asid : Nat) : Bool :=
  match tget s.eng.conns conn with
  | some k => k.asid == asid
  | none => false

/-- Whether a request is a context's (R383). -/
def State.ownsReq (s : State) (c : Nat) (r : RmaReq) : Bool :=
  let x := s.ctx c
  r.launch == s.launchOf x && r.gidx == ((s.gangOf c).map (·.idx)).getD 0 && r.role == x.role && r.slot == slotOf c && r.gen == x.gen
/-- Incomplete tickets of a context (R347). -/
def State.openTickets (s : State) (c : Nat) : Nat := s.eng.reqs.countP (fun r => s.ownsReq c r.2 && r.2.status.isNone)

/-- The request of a form at an address, checked. -/
def State.readReq (s : State) (c a : Nat) (form : Option Nat) : Run (WorkReq × State) := do
  let (bs, s1) ← s.readWords c a 8
  let r := workReq bs
  need (!r.bad && (form.isNone || form == some r.op)) cRma a 0
  need (s1.connOpen r.conn (s.ctx c).asid.toNat) cCap a 0
  pure (r, s1)

/-- The request as the endpoint holds it. -/
def State.asReq (s : State) (c : Nat) (w : WorkReq) (armed : Option Nat) : RmaReq :=
  let x := s.ctx c
  { launch := s.launchOf x, gidx := ((s.gangOf c).map (·.idx)).getD 0, role := x.role, slot := slotOf c, gen := x.gen
    ticket := x.ticket.toNat, asid := x.asid.toNat, user := !x.priv, epc := s.ctl.group, op := w.op, aop := w.aop, ev := w.ev
    conn := w.conn, laddr := w.laddr, raddr := w.raddr, len := w.len, tag := w.tag, opnd1 := w.opnd1, opnd2 := w.opnd2
    armed := armed, retries := 0, status := none }

def State.setReq (s : State) (id : Nat) (r : RmaReq) : State :=
  { s with eng := { s.eng with reqs := tset s.eng.reqs id r } }

/-- A ticket completes: its status stands, and EV adds 1 to its counter (R347). -/
def State.completeReq (s : State) (id status : Nat) : State :=
  match tget s.eng.reqs id with
  | some r =>
    let t := s.setReq id { r with armed := none, status := some status }
    match r.ev with
    | some n => t.signal n 1
    | none => t
  | none => s

/-- The endpoint begins to fetch a connection's context that its cache does not hold (R404). -/
def State.fetchConn (s : State) (conn : Nat) (k : Conn) : State :=
  if k.cached || k.fetchAt.isSome then s
  else
    let due := s.ctl.now + Config.contextFetchDelay s.ctl.now conn
    { s with eng := { s.eng with conns := tset s.eng.conns conn { k with fetchAt := some due } } }
/-- A connection's context has been used; one that is not in the cache is fetched for the package's own request too (R404; DESIGN CHOICE, log 77). -/
def State.useConn (s : State) (conn : Nat) : State :=
  match tget s.eng.conns conn with
  | some k =>
    if k.cached then { s.fresh with eng := { s.eng with conns := tset s.eng.conns conn { k with used := s.weave.nextId } } }
    else s.fetchConn conn k
  | none => s

/-- A request starts: PUT and SEND read their source, and the message goes; LEN = 0 completes at once, and sends nothing (R348; DESIGN
CHOICE, log 81). -/
def State.startReq (s : State) (id : Nat) : Run State :=
  match tget s.eng.reqs id with
  | none => .ok s
  | some r =>
    if r.len = 0 ∧ r.op ≠ 5 then .ok (s.completeReq id 0)
    else do
      let (s, data) ← if r.op = 0 ∨ r.op = 3 then do
          let ps ← s.span r.asid r.user .read r.laddr r.len
          s.spanReach r.asid r.laddr ps
          s.spanGood ps
          pure (s.spanMeet r.asid r.laddr ps, (s.spanRead ps).map (·.toNat))
        else pure (s, [])
      pure (((s.setReq id { r with armed := none }).send (.rma id r.conn r.op r.aop r.raddr r.len r.opnd1 r.opnd2 r.tag data)).useConn r.conn)

/-- A context's form has issued a request: its ticket is in D, and the counter has moved on. -/
def State.issueReq (s : State) (c d : Nat) (r : RmaReq) : Nat × State :=
  let id := s.weave.nextId
  let t := (s.fresh.setReq id r).modCtx c (fun x => { x with ticket := x.ticket + 1 })
  (id, t.dst c d (s.ctx c).ticket)

/-- The conditions of a request form, tested before the pipes. -/
def preReq (a : Nat) (form : Option Nat) (s : State) (c : Nat) : Run Unit :=
  if isQ a then .ok () else (s.readReq c ((s.ctx c).x a).toNat form).map (fun _ => ())

/-- RMA.PUT, GET, AMO and SEND (R346 to R348). PUT, AMO and SEND wait for earlier stores. -/
def rmaForm (maj x op : Nat) (t : Bin) : State → Host.Outcome State Fault Refusal :=
  weave maj x t.g t.d t.a 0 (preReq t.a (some op)) (fun c s => do
    let ra := s.src c t.a
    let (w, s1) ← ra.2.readReq c ra.1.toNat (some op)
    if Config.rmaTicketLimit ≤ s.openTickets c then waitFor .ticket
    else
      let s2 := if op = 1 then s1 else s1.drainAll (coreOf c)
      let r := s2.issueReq c t.d (s2.asReq c w none)
      r.2.startReq r.1)

/-- RMA.PUT (R348). -/
def execRmaPut (t : Bin) : State → Host.Outcome State Fault Refusal := rmaForm 0x3E 0 0 t

/-- RMA.GET (R348). -/
def execRmaGet (t : Bin) : State → Host.Outcome State Fault Refusal := rmaForm 0x3E 1 1 t

/-- RMA.AMO (R348). -/
def execRmaAmo (t : Bin) : State → Host.Outcome State Fault Refusal := rmaForm 0x3F 0 2 t

/-- RMA.SEND (R348). -/
def execRmaSend (t : Bin) : State → Host.Outcome State Fault Refusal := rmaForm 0x3F 2 3 t

/-- RMA.FLUSH: A names a connection (R348). -/
def execRmaFlush (t : Bin) : State → Host.Outcome State Fault Refusal :=
  weave 0x3E 2 t.g t.d t.a 0 noPre (fun c s => do
    let ra := s.src c t.a
    need (s.connOpen ra.1.toNat (s.ctx c).asid.toNat) cCap ra.1.toNat 0
    if Config.rmaTicketLimit ≤ s.openTickets c then waitFor .ticket
    else
      let w : WorkReq := ⟨5, 0, none, ra.1.toNat, 0, 0, 0, 0, 0, 0, false⟩
      let r := ra.2.issueReq c t.d (ra.2.asReq c w none)
      r.2.startReq r.1)

/-- RMA.ARM: the request waits on its connection for a SEND with its tag (R349): a RECV's own match tag (R346), the trigger tag B of
any other (R348; DEDUCED, log 40). One with LEN = 0 waits too, and completes when it fires (R348; DESIGN CHOICE, log 84). -/
def execRmaArm (t : Tri) : State → Host.Outcome State Fault Refusal :=
  weave 0x3E 3 t.g t.d t.a t.b (preReq t.a none) (fun c s => do
    let ra := s.src c t.a
    let (w, s1) ← ra.2.readReq c ra.1.toNat none
    if Config.rmaTicketLimit ≤ s.openTickets c then waitFor .ticket
    else
      let rb := s1.src c t.b
      pure (rb.2.issueReq c t.d (rb.2.asReq c w (some (if w.op = 4 then w.tag else rb.1.toNat)))).2)

/-- RMA.WAIT (R347, R348): an acquire at system scope where it returns 0 for a GET, AMO, RECV or FLUSH. -/
def execRmaWait (t : Bin) : State → Host.Outcome State Fault Refusal :=
  weave 0x3F 1 t.g t.d t.a 0 noPre (fun c s =>
    let ra := s.src c t.a
    match s.eng.reqs.find? (fun r => s.ownsReq c r.2 && r.2.ticket == ra.1.toNat) with
    | none => .ok (ra.2.dst c t.d 0xFF)
    | some r => match r.2.status with
      | none => waitFor .ticket
      | some st =>
        let acq := st = 0 ∧ (r.2.op = 1 ∨ r.2.op = 2 ∨ r.2.op = 4 ∨ r.2.op = 5)
        .ok ((if acq then ra.2.acquire (coreOf c) else ra.2).dst c t.d (BitVec.ofNat 64 st)))

end Sys2Proof.Machine
end

