-- ==== Sys2Proof/Machine/LoopBuffer.lean ====
section
/-! DEFINITION. The code path into a bench (R72, R159, R160, R164 to R169, R174): segments and their expansion, the loop
buffer, the bundle at an address, the look-ahead nullifier, the watched bundle, and the writes of results that land. -/

namespace Sys2Proof.Machine

/-! ### Expansion (R72, R73) -/

/-- The halfwords of a body. -/
def halfwords : List Byte → List Nat
  | a :: b :: rest => (a.toNat + 256 * b.toNat) :: halfwords rest
  | _ => []
/-- The words of a plain body. -/
def wordsOf : List Byte → List Nat
  | a :: b :: c :: d :: rest => leNat [a, b, c, d] :: wordsOf rest
  | _ => []
/-- The syllables of a token stream; none where a token is reserved, or the stream ends inside one. -/
def expandTokens (dict : List Nat) : List Nat → Option (List Nat)
  | [] => some []
  | t :: rest =>
    if t = 0 then
      match rest with
      | lo :: hi :: tl => (expandTokens dict tl).map (fun l => (lo + 65536 * hi) :: l)
      | _ => none
    else if t / 16384 = 1 then
      match dict[t % 16384]? with
      | some w => (expandTokens dict rest).map (fun l => w :: l)
      | none => none
    else none

/-- The dictionary that stands in its bytes: a count, then the syllables. -/
def parseDict (bs : List Byte) : Option (List Nat) :=
  let n := leNat (bs.take 4)
  if n = 0 ∨ 16384 < n ∨ bs.length < 4 + 4 * n then none else some (wordsOf ((bs.drop 4).take (4 * n)))

/-- An expanded body: NSYL syllables, exactly. -/
def expandBody (g : Seg) (dict : List Nat) (body : List Byte) : Option (List Nat) :=
  let ws := if g.kind = 1 then some (wordsOf body)
    else if g.bodyLen % 2 = 0 then expandTokens dict (halfwords body) else none
  match ws with
  | some l => if l.length = g.nsyl then some l else none
  | none => none

/-- Code bytes as the prefetch engine and set-up read them, through a translation of one page each; the virtual address of the first
byte that does not translate or lacks a permission (R184). -/
def bytesVia (tr : Nat → Option Leaf) (m : Mem) (va : Nat) : Nat → Except Nat (List Byte)
  | 0 => .ok []
  | n + 1 =>
    match tr va with
    | none => .error va
    | some l =>
      if l.allows .fetch true then (bytesVia tr m ((va + 1) % 2 ^ 64) n).map (fun r => m.byte (l.phys va) :: r) else .error va

/-- A segment at a header: its header, bitmap and expanded words. -/
structure Expanded where
  seg : Seg
  bitmap : List Byte
  words : List Nat
  deriving DecidableEq, Repr

/-- Why a segment does not expand. -/
inductive ExpandFail where
  | translation (va : Nat)
  | form
  deriving DecidableEq, Repr

def expandAt (tr : Nat → Option Leaf) (m : Mem) (dict : List Nat) (hdr : Nat) : Except ExpandFail Expanded :=
  match bytesVia tr m hdr 32 with
  | .error va => .error (.translation va)
  | .ok hb => match parseSeg hdr hb with
    | none => .error .form
    | some g =>
      if g.kind = 0 ∨ hdr % 64 ≠ 0 then .error .form
      else match bytesVia tr m (hdr + 0x20) (8 * ((g.nsyl + 63) / 64) + g.bodyLen) with
        | .error va => .error (.translation va)
        | .ok bs =>
          let bl := 8 * ((g.nsyl + 63) / 64)
          match expandBody g dict (bs.drop bl) with
          | some ws => .ok ⟨g, bs.take bl, ws⟩
          | none => .error .form

/-- Translation for the running launch's code: the pinned store (R184). -/
def State.codeLeaf (s : State) (va : Nat) : Option Leaf := s.pinnedLeaf va
def State.dictOf (s : State) (b : Nat) : List Nat := ((s.frame.launch.map (fun l => tgetD l.dicts b [])).getD [])

/-- What an expansion puts into a half. A segment that no longer expands is empty: every fetch in it finds no syllable. -/
def Expanded.half (x : Expanded) (readyAt : Nat) : Half :=
  ⟨x.seg.hdr, x.seg.body, x.seg.nsyl, x.bitmap, x.words, x.seg.next, readyAt, false⟩

/-- The longest that an expansion of `n` syllables takes: 2,048 ticks (R159). R355 has short segments ready 1,448 ticks after the segment
before them was entered, and R422 1,160 ticks, which the model takes for every segment whose bitmap is one word (DEDUCED, log 82). -/
def prefetchBound (n : Nat) : Nat := if n ≤ 64 then min 1160 Config.prefetchTicks else Config.prefetchTicks
/-- The prefetch engine of a bench begins a segment (R159), whose read meets the errors of its granules (R269). When it is
ready is a free value within the bound (DESIGN CHOICE, log 15). -/
def State.beginPrefetch (s : State) (b hdr : Nat) : State :=
  let at_ (n : Nat) : Nat := s.ctl.now + min (prefetchBound n) (Config.prefetchDelay s.ctl.free)
  let k := s.bench b
  let j := 1 - k.half
  match expandAt s.codeLeaf s.mem (s.dictOf b) hdr with
  | .ok x =>
    let reads := spanPieces s.codeLeaf hdr (x.seg.body - hdr + x.seg.bodyLen)
    (match reads.find? (fun p => s.eccBad p.1 p.2) with
      | some p => s.benchFault b 0 cEcc p.1 (stackOf p.1)
      | none => (reads.foldl (fun t p => t.eccCorrect p.1 p.2) (s.setBench b { k with halves := tset k.halves j (x.half (at_ x.seg.nsyl)) })).drew)
  | .error (.translation va) => s.benchFault b 0 cTranslation va 0
  | .error .form => (s.setBench b { k with halves := tset k.halves j ⟨hdr, hdr + 0x20, 0, [], [], 0, at_ 0, false⟩ }).drew

/-- The entry that releases bench `b` next after entry `e`, in release order and wrapping (R159). -/
def nextEntry (es : List TtEntry) (b e : Nat) : Option Nat :=
  ((List.range es.length).map (fun i => (e + 1 + i) % es.length)).find? (fun i => match es[i]? with
    | some t => bitOf t.mask b
    | none => false)

/-- What follows a bench's current segment: NEXT, or the first segment of its next entry. -/
def State.successor (s : State) (b : Nat) (h : Half) : Option Nat :=
  if h.next ≠ 0 then some h.next
  else match s.frame.launch with
    | none => none
    | some l => (nextEntry l.entries b (s.bench b).entry).bind (fun i => (l.entries[i]?).map (·.seg))

/-- When a bench first issues from a segment in one half, the other half begins to fill (R159). -/
def State.feed (s : State) (b : Nat) : State :=
  let k := s.bench b
  if k.fed then s
  else
    let t := s.setBench b { k with fed := true }
    match tget k.halves k.half with
    | none => t
    | some h => match s.successor b h with
      | none => t
      | some hdr => t.beginPrefetch b hdr
/-- A bench stands at an address of a half, whose segment is not yet entered if the half is another one. -/
def Bench.stand (k : Bench) (half addr : Nat) : Bench :=
  { k with pc := addr, half := half, fed := k.fed && half == k.half }

/-! ### Bundles at an address -/

/-- The words from an address on, to the first whose stop bit is set, at most `n` of them (R66). -/
def Half.upTo (h : Half) : Nat → Nat → Run (List Nat)
  | 0, _ => pure []
  | n + 1, addr => match h.at_ addr with
    | none => illegal
    | some (v, e) => do
      need e cFetch addr 0
      if sOf v then pure [v] else do
        let rest ← h.upTo n (addr + 4)
        pure (v :: rest)
/-- The words of the bundle at an address of a half, header first (R27, R64, R66). A word that is not executable is reported before
the bundle's legality is tested (DESIGN CHOICE, log 84). -/
def Half.bundle (h : Half) (addr : Nat) : Run (List Nat) :=
  match h.at_ addr with
  | none => stop cFetch addr 0
  | some (w, exec) =>
    if !exec then stop cFetch addr 0
    else if !isBhdr w then illegal
    else if sOf w then pure [w]
    else do
      let rest ← h.upTo (bundleLen w - 1) (addr + 4)
      pure (w :: rest)

/-- A bundle's anchor tick (R210): ANCHOR counts from the release, PAUSE from the anchored bundle before it. -/
def anchorTick (release last : Nat) (ss : List SlotSyl) : Option Nat :=
  match ss.find? (fun s => s.name == .c) with
  | none => none
  | some c =>
    if isPauseSyl c.word then some (last + fld c.word 2 18)
    else if isAnchorSyl c.word then some (release + ((c.ext.getD 0) * 64 + bOf c.word))
    else none

/-- Whether a bundle holds a BHALT. -/
def hasHalt (ws : List Nat) : Bool := ws.any (fun w => majOf w == 0x7D && xOf w == 1)

/-! ### Results that land (R81, R188, R224) -/

/-- P rows land: a product through their handle still meets it in flight at this tick (R355). -/
def Bench.noteLanding (k : Bench) (h : Nat) : Bench :=
  { k with landed := k.landed.filter (fun e => e.1 == k.tick) ++ [(k.tick, h)] }
/-- Apply one effect to the bench that holds it. Effects on tensor SRAM are made where they land. -/
def Bench.apply (k : Bench) : Effect → Bench
  | .a i v => k.wa i v
  | .v i lo n v =>
    let old := (tgetD k.v i 0).toNat
    { k with v := tset k.v i (BitVec.ofNat 1024 (old - fld old lo n * 2 ^ lo + fld v.toNat 0 n * 2 ^ lo)) }
  | .g i b => k.wg i b
  | .flags f => { k with flags := k.flags ||| f }
  | .slot h _ a => { k with h := tset k.h h a }
  | .release h => { k with h := terase k.h h }
  | .latch t => { k with shadow := t }
  | .swap => { k with active := k.shadow, shadow := k.active }
  | .seqlen i v => { k with seqlen := tset k.seqlen i v }
  | .rows h _ => k.noteLanding h
  | .keep _ _ => k

/-- The results of a bench that land at its tick and satisfy `p`, in order of issue. -/
def Bench.landing (k : Bench) (p : Effect → Bool) : List Pending := k.pend.filter (fun e => decide (e.at_ ≤ k.tick) && p e.eff)
def Bench.keepPend (k : Bench) (p : Effect → Bool) : Bench :=
  { k with pend := k.pend.filter (fun e => !(decide (e.at_ ≤ k.tick) && p e.eff)) }
/-- They land. -/
def Bench.land (k : Bench) (p : Effect → Bool) : Bench := (k.landing p).foldl (fun q e => q.apply e.eff) (k.keepPend p)

/-- Scalar and vector results. -/
def Effect.isResult : Effect → Bool
  | .a _ _ => true
  | .v _ _ _ _ => true
  | .g _ _ => true
  | .seqlen _ _ => true
  | _ => false
/-- Results of the matrix forms. -/
def Effect.isMatrix : Effect → Bool
  | .slot _ _ _ => true
  | .release _ => true
  | .rows _ _ => true
  | _ => false
def Effect.isFlags : Effect → Bool
  | .flags _ => true
  | _ => false
def Effect.isLatch : Effect → Bool
  | .latch _ => true
  | _ => false
def Effect.isSwap : Effect → Bool
  | .swap => true
  | _ => false
def Effect.isKeep : Effect → Bool
  | .keep _ _ => true
  | _ => false

/-! ### The nullifier (R168) -/

/-- Whether a bundle is nullifiable under the guards of a bench. An illegal bundle is not: its encoding raises ILLEGAL_ENCODING
whatever its guards read (R25, R66, R69), and a legal one's syllables all decode. -/
def nullifiable (k : Bench) (addr : Nat) (ws : List Nat) : Bool :=
  match ws with
  | [] => false
  | h :: rest =>
    presOf h != 0 && !ancOf h && !ppOf h &&
      rest.all (fun w => isExt w || (!k.rg (grdOf w) && !isKernelForm w && majOf w != 0x16)) && (bundleSlots addr ws).isSome

/-- Where a bench stands in its code: the half and the address. -/
structure Place where
  half : Nat
  addr : Nat
  deriving DecidableEq, Repr

/-- Past the end of a segment the place moves into the next one, if that is ready there; none where it is not. -/
def Bench.follow (k : Bench) (p : Place) : Option Place :=
  match tget k.halves p.half with
  | none => some p
  | some h =>
    if p.addr = h.body + 4 * h.nsyl ∧ h.next ≠ 0 then
      match tget k.halves (1 - p.half) with
      | some o => if o.ready ∧ o.hdr = h.next then some ⟨1 - p.half, o.body⟩ else none
      | none => none
    else some p

/-- What the nullifier finds in at most `n` bundles: the place reached, and whether a bundle issues there. -/
def Bench.examine (k : Bench) : Nat → Place → Place × Bool
  | 0, p => (p, false)
  | n + 1, p =>
    match k.follow p with
    | none => (p, false)
    | some q => match tget k.halves q.half with
      | none => (q, true)
      | some h => match h.bundle q.addr with
        | .ok ws => if nullifiable k q.addr ws then k.examine n ⟨q.half, q.addr + 4 * ws.length⟩ else (q, true)
        | .error _ => (q, true)

/-- The bundle that a bench would issue at this tick, if it may issue one (R94, R168). -/
def Bench.nextIssue (k : Bench) : Option Place :=
  if !k.busy || decide (k.tick < k.bubble) then none
  else
    let r := k.examine 4 ⟨k.half, k.pc⟩
    if r.2 then some r.1 else none

/-! ### The watched bundle (R167) -/

/-- Whether a bundle ends the block whatever the guards read. Fetch order is address order as fall-through would reach it (R167),
and falls through a BHALT whose guard may read false (DEDUCED: "or BHALT, leaves the bench watching no bundle", R171). -/
def mustHalt (ws : List Nat) : Bool := ws.any (fun w => majOf w == 0x7D && xOf w == 1 && grdOf w == 0)
/-- The first anchored bundle in fetch order within a segment; `none` with the NEXT to go on with, or with nothing. -/
def Half.firstAnchor (h : Half) (release last : Nat) : Nat → Nat → Option (Option Nat × Nat)
  | 0, _ => none
  | fuel + 1, addr =>
    if addr = h.body + 4 * h.nsyl then some (none, h.next)
    else match h.bundle addr with
      | .error _ => none
      | .ok ws =>
        match ws with
        | [] => none
        | hd :: _ =>
          if ancOf hd then (match bundleSlots addr ws with
            | some ss => (anchorTick release last ss).map (fun t => (some t, addr))
            | none => none)
          else if mustHalt ws then none
          else h.firstAnchor release last fuel (addr + 4 * ws.length)

/-- The segment at a header as an expansion would find it now. -/
def State.expandNow (s : State) (b hdr : Nat) : Option Half :=
  match expandAt s.codeLeaf s.mem (s.dictOf b) hdr with
  | .ok x => some (x.half 0)
  | .error _ => none

/-- The segment at a header as a bench's code path holds it, or as it would expand it. -/
def State.chained (s : State) (b : Nat) (k : Bench) (hdr : Nat) : Option Half :=
  match tget k.halves (1 - k.half) with
  | some o => if o.hdr = hdr then some o else s.expandNow b hdr
  | none => s.expandNow b hdr

/-- More segments than any pinned set holds. -/
def chainFuel : Nat := 2 ^ 44
/-- The anchor tick and address of the bundle that a bench watches, through at most `fuel` further segments. -/
def State.watchFrom (s : State) (b : Nat) (k : Bench) : Nat → Half → Nat → Option (Nat × Nat)
  | 0, _, _ => none
  | fuel + 1, h, addr =>
    match h.firstAnchor k.release k.lastAnchor (h.nsyl + 1) addr with
    | none => none
    | some (some t, a) => some (t, a)
    | some (none, next) =>
      if next = 0 then none
      else match s.chained b k next with
        | some o => s.watchFrom b k fuel o o.body
        | none => none

def State.watched (s : State) (b : Nat) : Option (Nat × Nat) :=
  let k := s.bench b
  if !k.busy then none
  else match tget k.halves k.half with
    | none => none
    | some h => s.watchFrom b k chainFuel h k.pc

/-! ### Timetable positions -/

/-- The release of entry `e` that falls at the present FCNT, if one does (R166). -/
def State.releaseNow (s : State) (e : Nat) : Bool :=
  match s.frame.launch with
  | none => false
  | some l => match l.entries[e]? with
    | none => false
    | some t => decide (s.frame.fcnt.toNat / l.flen < l.nframes) && s.frame.fcnt.toNat % l.flen == t.release

/-- The first segment of entry `e`. -/
def State.entrySeg (s : State) (e : Nat) : Nat := ((s.frame.launch.bind (fun l => l.entries[e]?)).map (·.seg)).getD 0
/-- The half of a bench that a block beginning at a header starts in: the one filled last where it holds that segment, else the one
the bench stands in; none where the segment is ready in neither (R159, R171). -/
def Bench.firstHalf (k : Bench) (hdr : Nat) : Option (Nat × Half) :=
  let held (j : Nat) : Option (Nat × Half) := ((tget k.halves j).filter (fun h => h.hdr == hdr && h.ready)).map (fun h => (j, h))
  held (1 - k.half) <|> held k.half

end Sys2Proof.Machine
end

