-- ==== Sys2Proof/Machine/FrameEvents.lean ====
section
/-! DEFINITION. Events of the frame plane's ticks: segments, releases, holds and the slip log (R159, R166, R170 to R174),
landings (R81, R188, R221, R224, R233, R254), mortises (R177 to R182) and the start of a frame (R327). -/

namespace Sys2Proof.Machine

def State.modFrame (s : State) (f : Frame → Frame) : State := { s with frame := f s.frame }
/-- A launch-wide fault of the frame launch that names no bench (R370). -/
def State.packageFault (s : State) (code faddr info : Nat) : State := s.faultFrame ⟨code, info, faddr, 0, 2, 0, 0⟩

/-! ### Segments and releases -/

/-- A block starts on a bench (R157, R166); the spacing of pause points is tested on the path taken (R174). -/
def State.startBlock (s : State) (e b : Nat) : State :=
  let k := s.bench b
  let t := s.frame.fcnt.toNat
  match k.firstHalf (s.entrySeg e) with
  | none => s
  | some (j, h) =>
    if k.busy then s
    else if k.ran ∧ max k.release k.lastPause + s.frame.pausebnd.toNat < t then s.benchFault b 0 cSpacing 0 0
    else s.setBench b { k with busy := true, ran := true, entry := e, release := t, lastAnchor := t, lastPause := t, pc := h.body
                               half := j, fed := false }
/-- The benches of a mask. -/
def benchesOf (mask : Nat) : List Nat := (List.range Config.benches).filter (bitOf mask)
def State.entryMask (s : State) (e : Nat) : Nat :=
  ((s.frame.launch.bind (fun l => l.entries[e]?)).map (·.mask)).getD 0

/-- BLOCK_RELEASE (R166). -/
def execBlockRelease (e : Nat) (s : State) : Host.Outcome State Fault Refusal :=
  if s.releaseNow e then .next ((benchesOf (s.entryMask e)).foldl (fun t b => t.startBlock e b) s) else .fault .noSubject

/-! ### Holds (R170 to R173) -/

/-- The word of a slip-log entry at +0x08 (R172). -/
def slipWord (cause bench idx held : Nat) : W64 :=
  BitVec.ofNat 64 (cause * 2 ^ 56 + bench * 2 ^ 47 + idx % 4096 * 2 ^ 32 + min held (2 ^ 32 - 1))
/-- A cause arises: its slip-log entry is written, and the plane holds (R171, R172). A REMOTE entry's HELD is fixed. -/
def State.addCause (s : State) (code bench idx about held : Nat) : State :=
  let f := s.frame
  let i := f.next % 64
  (s.modFrame (fun f => { f with
    slip := tset f.slip i (f.fcnt, slipWord code bench idx held), next := (i + 1) % 64, total := min (f.total + 1) (2 ^ 32 - 1)
    slipsNow := f.slipsNow + (min (f.total + 1) (2 ^ 32 - 1) - f.total), holdSlots := f.holdSlots.filter (fun j => j != i) ++ (if code = 6 then [] else [i])
    tenonHeld := if code = 4 then f.tenonHeld ++ [about] else f.tenonHeld
    causes := f.causes ++ [⟨code, bench, i, about⟩] })).life (0x120 + code) 1

/-- Whether a bench is late at its watched bundle at the present FCNT (R171): it is not the next bundle to issue. -/
def State.anchorDue (s : State) (b : Nat) : Bool :=
  match s.watched b with
  | some (t, a) => t == s.frame.fcnt.toNat && ((((s.bench b).land Effect.isResult).nextIssue).map (·.addr)) != some a
  | none => false

/-- Whether ANCHOR_LATE lasts: the watched bundle's tick does not lie after the held FCNT, and it is not the next to issue (R171). -/
def State.anchorHeld (s : State) (b : Nat) : Bool :=
  match s.watched b with
  | some (t, a) => decide (t ≤ s.frame.fcnt.toNat) && ((((s.bench b).land Effect.isResult).nextIssue).map (·.addr)) != some a
  | none => false

/-- ANCHOR_LATE (R171). -/
def execAnchorLate (b : Nat) (s : State) : Host.Outcome State Fault Refusal :=
  if s.anchorDue b then .next (s.addCause 1 b (s.bench b).entry b 0) else .fault .noSubject

/-- Whether every tenon of a mortise is posted in its window (R177, R182). -/
def State.allPosted (s : State) (m : Nat) : Bool :=
  match s.frame.launch with
  | none => true
  | some l => ((List.range l.tenons.length).zip l.tenons).all (fun p =>
      p.2.mort != m || (if p.2.dkind = 0 then s.frame.staged.any (fun w => w.1 == m) else (tget s.frame.posts p.1).isSome))

/-- The remote demand at the present FCNT (R397). -/
def State.demand (s : State) : Nat := ((tget s.host.notices s.frame.fcnt.toNat).map (·.1)).getD 0

/-- The tick at which a granule's data are due: a load's at the copy's due tick, a scale's of a store at its slot start + 512 (R268,
R312). -/
def Copy.granDue (c : Copy) (g : Granule) : Nat := if c.clr.cut.dir = 0 then c.due else g.slotAt.getD never + 512
/-- A copy whose data are due and not in the landing buffer (R171, R269, R312). -/
def Copy.absent (c : Copy) (fcnt : Nat) : Bool :=
  c.grans.any (fun g => !g.write && decide (c.granDue g ≤ fcnt) && (!g.taken || g.late))

/-- Whether a cause remains (R171). -/
def State.remains (s : State) (c : Cause) : Bool :=
  match c.code with
  | 1 => s.anchorHeld c.bench
  | 2 => (s.bench c.bench).busy
  | 3 => if c.slot % 2 = 1 then s.frame.lateLinks.any (fun e => e.1 == c.slot / 2 && decide (e.2 ≤ s.frame.fcnt.toNat))
    else ((tget s.frame.copies (c.slot / 2)).map (fun q => q.absent s.frame.fcnt.toNat)).getD false
  | 4 => !s.allPosted c.slot
  | 5 => ((s.bench (c.slot % 256)).firstHalf (s.entrySeg (c.slot / 256))).isNone
  | _ => decide (s.frame.heldHere < s.demand)

/-- Benches that catch up in the hold in progress. -/
def State.catching (s : State) (b : Nat) : Bool := s.frame.causes.any (fun c => (c.code == 1 || c.code == 2) && c.bench == b)
/-- Whether a bench runs at this tick: each outside a hold, in it those that catch up. -/
def State.runs (s : State) (b : Nat) : Bool := s.frame.causes.isEmpty || s.catching b

/-- One hold tick passes, which HELD of each entry counts from its cause's arising on (R170, R172); the first is a hold begun (R385). A tick that no remote demand accounts for is one of the spell's
excess E. An aligned package sends E tick by tick, each in a notice of its own, since every member holds HZ frame ticks after the hold
began (R397, R398, R423; DEDUCED, log 79). -/
def State.holdTick (s : State) : State :=
  let h := s.frame.held + 1
  let t := (s.modFrame (fun f => { f with
    held := h, heldHere := f.heldHere + 1
    slip := f.holdSlots.foldl (fun t i => tmod t i (0, 0) (fun e => (e.1, setFld e.2 0 32 (min (fld e.2.toNat 0 32 + 1) (2 ^ 32 - 1))))) f.slip })).life
    0x129 1
  let u := if s.frame.held = 0 then t.life 0x128 1 else t
  if s.inDomain && decide (s.demand ≤ s.frame.heldHere) then u.send (.hold s.frame.fcnt.toNat 1) else u

/-- Arithmetic-clock ticks of the hold in progress (R173, R183). -/
def State.holdTime (s : State) : Nat :=
  if (s.frame.launch.map (·.tsq)).getD false then 4 * s.frame.held else s.frame.held

/-- HOLD_END: no cause remains, and the tick advances FCNT (R170). -/
def execHoldEnd (s : State) : Host.Outcome State Fault Refusal :=
  if s.frame.held = 0 ∨ s.frame.causes.any s.remains then .fault .noSubject
  else .next (s.modFrame (fun f => { f with held := 0, holdSlots := [], causes := [] }))

/-- HOLD_TIMEOUT (R173). -/
def execHoldTimeout (s : State) : Host.Outcome State Fault Refusal :=
  match s.frame.causes with
  | [] => .fault .noSubject
  | c :: _ => if s.frame.holdmax.toNat < s.holdTime then .next (s.packageFault cHold c.idx c.code) else .fault .noSubject

/-! ### Landings -/

/-- A bench's results of one kind land. -/
def State.landOn (s : State) (b : Nat) (p : Effect → Bool) : Host.Outcome State Fault Refusal :=
  if ((s.bench b).landing p).isEmpty then .fault .noSubject else .next (s.modBench b (fun k => k.land p))

/-- RESULT_LANDING: scalar and vector results, in order of issue (R81, R82, R188). -/
def execResultLanding (b : Nat) (s : State) : Host.Outcome State Fault Refusal := s.landOn b Effect.isResult

/-- Rows that a landing writes to tensor SRAM, in the place among the writes of its tick that R207 and R226 give them: an access at
that tick does not see them (R207, R224). -/
def State.landRows (s : State) (b cls acc ord : Nat) (rows : List (Nat × List Byte)) : State :=
  rows.foldl (fun t r => t.endWrite ⟨cls, acc, b, ord, sramPa b r.1, .bytes r.2⟩) s

def Effect.rowsOf : Effect → List (Nat × List Byte)
  | .rows _ w => w
  | .keep _ w => w
  | _ => []
/-- The tick that orders the writes of a landing among those of engine copies (R313). -/
def Effect.accepted : Effect → Nat
  | .keep t _ => t
  | _ => 0

/-- MATRIX_RESULT_LANDING (R224, R226). -/
def execMatrixResultLanding (b : Nat) (s : State) : Host.Outcome State Fault Refusal :=
  let l := (s.bench b).landing Effect.isMatrix
  if l.isEmpty then .fault .noSubject
  else .next (l.foldl (fun t e => t.landRows b 4 0 e.ord e.eff.rowsOf) (s.modBench b (fun k => k.land Effect.isMatrix)))

/-- Tiles that reach a bench's SHADOW latch at this tick: from LLOAD, and from LPASS, which lands in no hold tick (R170). -/
def State.tilesNow (s : State) (b : Nat) : Nat × Nat :=
  (((s.bench b).landing Effect.isLatch).length,
    if s.frame.causes.isEmpty then s.frame.lpass.countP (fun e => e.1 == b && e.2.1 == s.frame.fcnt.toNat) else 0)

/-- LATCH_LANDING; two landings in one SHADOW at one tick are a hazard (R221). -/
def execLatchLanding (b : Nat) (s : State) : Host.Outcome State Fault Refusal :=
  let n := s.tilesNow b
  if n.1 = 0 then .fault .noSubject
  else
    let t := s.modBench b (fun k => k.land Effect.isLatch)
    .next (if 1 < n.1 + n.2 then t.benchFault b 0 cMatrix 0x11 0 else t)

/-- LPASS_LANDING (R233). -/
def execLpassLanding (b : Nat) (s : State) : Host.Outcome State Fault Refusal :=
  let n := s.tilesNow b
  let now := s.frame.fcnt.toNat
  match s.frame.lpass.filter (fun e => e.1 == b && e.2.1 == now) with
  | [] => .fault .noSubject
  | l =>
    let t := (s.modFrame (fun f => { f with lpass := f.lpass.filter (fun e => !(e.1 == b && e.2.1 == now)) })).modBench b
      (fun k => l.foldl (fun q e => { q with shadow := e.2.2 }) k)
    .next (if 1 < n.1 + n.2 then t.benchFault b 0 cMatrix 0x11 0 else t)

/-- WINNOW_COPY_LANDING (R254). -/
def execWinnowCopyLanding (b : Nat) (s : State) : Host.Outcome State Fault Refusal :=
  let l := (s.bench b).landing Effect.isKeep
  if l.isEmpty then .fault .noSubject
  else .next (l.foldl (fun t e => t.landRows b 2 e.eff.accepted e.ord e.eff.rowsOf) (s.modBench b (fun k => k.land Effect.isKeep)))

/-! ### Mortises -/

/-- The window of a mortise holds no post and no staged word. -/
def Frame.clearWindow (f : Frame) (l : FrameLaunch) (m : Nat) : Frame :=
  { f with staged := f.staged.filter (fun w => w.1 != m)
           posts := f.posts.filter (fun p => match l.tenons[p.1]? with
             | some t => t.mort != m
             | none => true) }

/-- EVPEND.MRT in every weave context of an address space (R101, R179). -/
def State.postMrt (s : State) (asid : Nat) : State :=
  let t := (keysWhere s.weave.ctxs (fun _ x => x.asid.toNat == asid)).foldl (fun t c => t.modCtx c (·.event 10)) s
  { t with weave := { t.weave with launches := t.weave.launches.map (fun (e : Nat × Launch) =>
    (e.1, if e.2.asid = asid then { e.2 with opened := e.2.savedGangs } else e.2)) } }

/-- MORTISE_OPEN (R179). -/
def execMortiseOpen (m : Nat) (s : State) : Host.Outcome State Fault Refusal :=
  match s.frame.launch, s.mortise? m with
  | some l, some r =>
    .next ((s.modFrame (fun f => { f.clearWindow l m with openM := f.openM.filter (fun i => i != m) ++ [m] })).postMrt r.asid)
  | _, _ => .fault .noSubject

/-- What a mortise latches (R181): posted tenons, and under FALLBACK the defaults of the others. -/
def State.latchOf (s : State) (l : FrameLaunch) (m : Nat) (r : Mortise) : MortiseLatch :=
  { mort := m, posted := s.allPosted m
    words := (s.frame.staged.filter (fun w => w.1 == m)).map (fun w => (w.2.1, w.2.2))
    dests := ((List.range l.tenons.length).zip l.tenons).filterMap (fun p =>
      if p.2.mort ≠ m ∨ p.2.dkind = 0 then none
      else match tget s.frame.posts p.1 with
        | some v => some (p.2.dkind, p.2.didx, v)
        | none => if r.hold then none else some (p.2.dkind, p.2.didx, BitVec.ofNat 64 p.2.dflt))
    mask := r.mask }

/-- A mortise closes: its window ends, and its latch is settled for the end of the tick. -/
def State.closeMortise (s : State) (m : Nat) : Host.Outcome State Fault Refusal :=
  match s.frame.launch, s.mortise? m with
  | some l, some r =>
    if !s.frame.openM.contains m then .fault .noSubject
    else .next (s.modFrame (fun f => { f.clearWindow l m with
      openM := f.openM.filter (fun i => i != m), latches := f.latches ++ [s.latchOf l m r] }))
  | _, _ => .fault .noSubject

/-- Whether a mortise under HOLD lacks a tenon. -/
def State.lacksTenon (s : State) (m : Nat) : Bool := ((s.mortise? m).map (·.hold)).getD false && !s.allPosted m
/-- TENON_HOLD: the mortise's window stays open (R171, R182). -/
def State.holdTenon (s : State) (m : Nat) : State := s.addCause 4 256 m m 0
/-- MORTISE_CLOSE (R181); a mortise under HOLD that lacks a tenon holds the frame plane instead (R182). -/
def execMortiseClose (m : Nat) (s : State) : Host.Outcome State Fault Refusal :=
  if s.frame.openM.contains m && s.lacksTenon m then .next (s.holdTenon m) else s.closeMortise m

/-- HOLD_LATCH: the latch of a mortise that TENON_HOLD has held (R182). -/
def execHoldLatch (m : Nat) (s : State) : Host.Outcome State Fault Refusal :=
  if s.frame.tenonHeld.contains m ∧ s.allPosted m then s.closeMortise m else .fault .noSubject

/-- One register destination of a tenon on one bench (R177). -/
def Bench.latchDest (k : Bench) (d : Nat × Nat × W64) : Bench :=
  let v := d.2.2
  match d.1 with
  | 1 => k.wa d.2.1 v
  | 2 => k.wg d.2.1 (v.getLsbD 0)
  | 3 => { k with seqlen := tset k.seqlen d.2.1 (v.setWidth 32) }
  | 4 => { k with kvb := tset k.kvb d.2.1 v }
  | 5 => { k with kvss := v }
  | 6 => { k with kvps := v }
  | 7 => { k with winthr := v.setWidth 32 }
  | 8 => { k with fmtsel := v.setWidth 8 }
  | _ => k
/-- A latch takes effect on the benches of its mask; its staged words follow every other write of the tick (R207). -/
def State.applyLatch (s : State) (h : MortiseLatch) : State :=
  (benchesOf h.mask).foldl (fun t b => t.modBench b (fun k =>
    { h.dests.foldl Bench.latchDest k with mlatch := tset k.mlatch h.mort h.posted }))
    (h.words.foldl (fun t w => t.framePut false w.1 (leBytes 8 w.2.toNat)) s)

/-! ### The start of a frame -/

/-- FRAME_START: the frame plane's view of the ring-membership table, as it stands at the first tick of the frame, hold tick or not
(R161, R327). -/
def execFrameStart (s : State) : Host.Outcome State Fault Refusal :=
  .next (s.modFrame (fun f => { f with ringView := s.eng.ring, ringViewN := s.eng.ringN }))

end Sys2Proof.Machine
end

