-- ==== Sys2Proof/Machine/Queues.lean ====
section
/-! DEFINITION. Fault records (R360, R370, R371), completion entries and rings (R411), interrupts (R412), and the registers
of launch queues (R408). -/

namespace Sys2Proof.Machine

/-! ### Fault records -/

/-- Whether one cause is reported before another (R371). -/
def FaultCause.before (f g : FaultCause) : Bool :=
  decide (f.code < g.code) || (f.code == g.code && (decide (f.kind < g.kind) || (f.kind == g.kind && decide (f.who < g.who))))
/-- The cause that a record reports. -/
def reported : List FaultCause → Option FaultCause
  | [] => none
  | f :: fs => some (fs.foldl (fun a g => if g.before a then g else a) f)

/-- Who raised a cause, as the word at 0x18. -/
def FaultCause.place (f : FaultCause) : Nat :=
  f.kind * 2 ^ 62 + (match f.kind with
    | 0 => clusterOf f.who * 2 ^ 23 + coreOf f.who % 8 * 2 ^ 20 + slotOf f.who
    | 1 => f.who * 2 ^ 12
    | _ => 0)
/-- The 64 bytes of R370 as words. -/
def FaultCause.record (f : FaultCause) (fcnt cframe n : Nat) : List W64 :=
  [BitVec.ofNat 64 (2 ^ 63 + f.info % 2 ^ 32 * 2 ^ 16 + f.code), BitVec.ofNat 64 f.faddr, BitVec.ofNat 64 f.epc,
    BitVec.ofNat 64 f.place, BitVec.ofNat 64 fcnt, f.firsterr,
    BitVec.ofNat 64 (min cframe (2 ^ 32 - 1) * 2 ^ 32 + min n (2 ^ 32 - 1)), 0]

/-! ### Completion entries (R411) -/

/-- STATUS codes. -/
def stDone : Nat := 0x00
def stRefused : Nat := 0x01
def stFault : Nat := 0x02
def stCancelled : Nat := 0x03
def stPreempted : Nat := 0x04
def stNoPause : Nat := 0x05
def stBusy : Nat := 0x06
def stMismatch : Nat := 0x07
def stResumed : Nat := 0x08
def stNoTarget : Nat := 0x09

def State.modQueue (s : State) (q : Nat) (f : Queue → Queue) : State := s.setQueue q (f (s.queue q))
/-- A completion entry is due on a queue: it is written once the ring has room. -/
def State.complete (s : State) (q status index : Nat) (frec : List W64) : State :=
  s.modQueue q (fun k => { k with completions := k.completions ++ [⟨status, index, frec, false⟩] })
/-- The entry of a frame launch that is over: until it is written the launch keeps the plane (R412). -/
def State.completeFrame (s : State) (q status index : Nat) (frec : List W64) : State :=
  s.modQueue q (fun k => { k with completions := k.completions ++ [⟨status, index, frec, true⟩] })

def Queue.enabled (q : Queue) : Bool := bitOf q.cfg.toNat 63
def Queue.logn (q : Queue) : Nat := fld q.cfg.toNat 36 4
def Queue.asid (q : Queue) : Nat := fld q.cfg.toNat 40 12
/-- Distance between two ring indices. -/
def idxSub (a b : Nat) : Nat := (a + 2 ^ 32 - b % 2 ^ 32) % 2 ^ 32
/-- Address of a slot of a ring of 128-byte entries. -/
def ringAddr (base : W64) (logn i : Nat) : Nat := base.toNat + 128 * (i % 2 ^ logn)
def Queue.room (q : Queue) : Bool := decide (idxSub q.ctail q.chead < 2 ^ q.logn)
/-- Whether the ring has room for `n` entries after those that wait; a record's end waits with the entry that reports it (R412). -/
def Queue.roomFor (q : Queue) (n : Nat) : Bool := decide (idxSub q.ctail q.chead + q.completions.length + n ≤ 2 ^ q.logn)
/-- The queue's own number: 0 to 63 of its die, or 0 to 3 of the package. -/
def queueNumber (q : Nat) : Nat := if q < 128 then q % 64 else q - 128

/-- The 128 bytes of an entry. -/
def Completion.bytes (c : Completion) (q fcnt : Nat) : List Byte :=
  leBytes 8 (c.status * 2 ^ 56 + queueNumber q * 2 ^ 48 + c.index % 2 ^ 32) ++ leBytes 8 fcnt ++ List.replicate 48 0 ++
    (List.range 8).flatMap (fun i => leBytes 8 (c.frec.getD i 0).toNat)

/-- The host port that owns a queue (R407). -/
def queuePort (q : Nat) : Nat := if q < 128 then q % 64 / 32 else (q - 128) / 2
/-- One MSI-X message through the queue's port, which disarms the queue (R407, R412). -/
def State.interrupt (s : State) (q : Nat) : State :=
  let k := s.queue q
  let t := s.setQueue q { k with armed := false, window := false }
  { t with host := { t.host with msi := (queuePort q, k.ivec) :: t.host.msi } }

/-- A weave launch leaves its queue and the tables. -/
def State.dropLaunch (s : State) (id : Nat) (l : Launch) : State :=
  let t := s.modQueue l.queue (fun q => { q with records := q.records.filter (fun i => i != id) })
  { t with weave := { t.weave with launches := terase t.weave.launches id } }
/-- With the entry that reports its end a spent record goes (R412). -/
def State.dropSpent (s : State) (q : Nat) (c : Completion) : State :=
  if c.status = stRefused ∨ c.status = stFault ∨ c.status = stCancelled then
    (s.weave.launches.filter (fun (e : Nat × Launch) => e.2.state == .spent && e.2.queue == q && e.2.index == c.index)).foldl
      (fun t e => t.dropLaunch e.1 e.2) s
  else s

/-- COMPLETION_ENTRY_WRITE (R411); the first entry written while the queue is armed opens its window (R412). -/
def execCompletionEntryWrite (q : Nat) (s : State) : Host.Outcome State Fault Refusal :=
  let k := s.queue q
  match k.completions with
  | [] => .fault .noSubject
  | c :: rest =>
    if !k.room then .fault .noSubject
    else
      let s1 := State.dropSpent { s with mem := s.mem.putBytes false (ringAddr k.cbase k.logn k.ctail) (c.bytes q s.frame.fcnt.toNat) } q c
      let k1 := { s1.queue q with completions := rest, ctail := (k.ctail + 1) % 2 ^ 32 }
      .next (if !k.armed || k.window then s1.setQueue q k1
        else if fld k.cfg.toNat 0 16 = 0 then (s1.setQueue q k1).interrupt q
        else s1.setQueue q { k1 with window := true })

/-- INTERRUPT_WINDOW_CLOSE (R412). -/
def execInterruptWindowClose (q : Nat) (s : State) : Host.Outcome State Fault Refusal :=
  if (s.queue q).window then .next (s.interrupt q) else .fault .noSubject

/-- QUEUE_ARM: an arming that finds unread entries sends its message at once (R412). -/
def execQueueArm (q v : Nat) (s : State) : Host.Outcome State Fault Refusal :=
  if s.bootHold then .next s
  else
    let k := s.queue q
    let t := s.setQueue q { k with ivec := v % 2048, armed := true }
    .next (if k.chead = k.ctail then t else t.interrupt q)

/-- COMPLETION_HEAD_WRITE (R412). -/
def execCompletionHeadWrite (q v : Nat) (s : State) : Host.Outcome State Fault Refusal :=
  if s.bootHold then .next s else .next (s.modQueue q (fun k => { k with chead := v % 2 ^ 32 }))

/-! ### Queue registers (R408) -/

/-- A host write has been answered BUSY. -/
def State.busy (s : State) : State := { s with host := { s.host with busyReply := true } }

/-- The implemented bits of QCFG. -/
def qcfgBits (v : Nat) : W64 := BitVec.ofNat 64 (fld v 63 1 * 2 ^ 63 + fld v 36 16 * 2 ^ 36 + fld v 0 16)

/-- QUEUE_ENABLE: a write of QCFG; enabling sets the indices to TAIL (R408). -/
def execQueueEnable (q v : Nat) (s : State) : Host.Outcome State Fault Refusal :=
  if s.bootHold then .next s
  else
    let k := s.queue q
    if k.enabled then .next s.busy
    else if bitOf v 63 then
      .next (s.setQueue q { k with cfg := qcfgBits v, head := k.tail, chead := k.tail, ctail := k.tail })
    else .next (s.setQueue q { k with cfg := qcfgBits v })

/-- The 128 bytes of the record at an index of a submission ring. -/
def State.recordBytes (s : State) (q i : Nat) : List Byte :=
  let k := s.queue q
  s.mem.bytes (ringAddr k.base k.logn i) 128
def State.recordAddr (s : State) (q i : Nat) : Nat := ringAddr (s.queue q).base (s.queue q).logn i
/-- Whether the read of a record meets an uncorrectable error (R269). -/
def State.recordBad (s : State) (q i : Nat) : Bool := s.eccBad (s.recordAddr q i) 128
/-- A launch whose set-up meets an uncorrectable error at an address ends by it (R269, R370). -/
def State.eccComplete (s : State) (q index at_ : Nat) : State :=
  ((s.complete q stFault index ((⟨cEcc, stackOf at_, at_, 0, 2, 0, 0⟩ : FaultCause).record s.frame.fcnt.toNat 0 1)).life
    (0x10C + stackOf at_) 1).life (0x200 + cEcc) 1
/-- Word `w` of a list of bytes. -/
def wordAt (bs : List Byte) (off : Nat) : Nat := leNat ((bs.drop off).take 8)

/-- Where an address space has its ASID table entry (R271), whether the read of it meets an uncorrectable error (R269), and whether
it is valid. -/
def State.asidAddr (s : State) (asid : Nat) : Nat := s.host.asidtb.toNat + 8 * asid
def State.asidBad (s : State) (asid : Nat) : Bool := s.eccBad (s.asidAddr asid) 8
def State.asidValid (s : State) (asid : Nat) : Bool := bitOf (s.phys8 (s.asidAddr asid)) 63

end Sys2Proof.Machine
end

