-- ==== Sys2Proof/Machine/FrameLaunch.lean ====
section
/-! DEFINITION. Frame launches: the record (R409, R410), set-up and its checks (R163 to R165, R174, R176 to R178, R184, R323,
R379), start and end (R157, R162, R166, R369), and the end of a tick's writes (R207, R313, R329). -/

namespace Sys2Proof.Machine

/-! ### Records -/

/-- A frame record (R409). -/
structure FrameRecord where
  tt : Nat
  pin : Nat
  pinn : Nat
  align : Bool
  tsq : Bool
  ch : Nat
  nch : Nat
  dtag : Nat
  seed : Nat
  wctr : Nat
  sctr : Nat
  siginc : Nat
  waitval : Nat
  deriving DecidableEq, Repr

def FrameRecord.ofBytes (bs : List Byte) : FrameRecord :=
  let w (i : Nat) : Nat := wordAt bs (8 * i)
  { tt := w 0, pin := w 1, pinn := fld (w 2) 32 16, align := bitOf (w 2) 19, tsq := bitOf (w 2) 18, ch := w 3
    nch := fld (w 4) 56 8, dtag := fld (w 4) 0 32, seed := w 5, wctr := fld (w 6) 52 12, sctr := fld (w 6) 40 12
    siginc := fld (w 6) 0 32, waitval := w 7 }
/-- The record's own fields lie in their ranges. -/
def FrameRecord.legal (r : FrameRecord) (bs : List Byte) : Bool :=
  let w (i : Nat) : Nat := wordAt bs (8 * i)
  fld (w 2) 48 16 == 0 && fld (w 2) 20 12 == 0 && fld (w 2) 0 18 == 0 && decide (1 ≤ r.pinn) && decide (r.pinn ≤ 4096) &&
    r.pin % 16 == 0 && decide (r.nch ≤ 64) && fld (w 4) 32 24 == 0 && (r.nch != 0 || r.ch == 0) && fld (w 6) 32 8 == 0 &&
    (bs.drop 64).all (· == 0)

/-! ### The pinned set (R184, R410) -/

/-- Walk a range's pages into the store; refused where a page does not translate, is compressed, or does not fit. -/
def State.pinRange (s : State) (asid end_ : Nat) : Nat → Nat → List TlbEntry → Setup (List TlbEntry)
  | 0, _, _ => refuse
  | fuel + 1, va, store =>
    if end_ ≤ va then pure store
    else match tlbFind store asid va with
      | some l => s.pinRange asid end_ fuel (l.va + l.size) store
      | none => do
        s.meetsWalk asid va
        match s.walk asid va with
        | none => refuse
        | some l =>
          if l.cmp || decide (Config.pinnedStore ≤ store.length) then refuse
          else s.pinRange asid end_ fuel (l.va + l.size) (store ++ [⟨asid, l⟩])

/-- One range record. -/
def State.pinRecord (s : State) (asid : Nat) (store : List TlbEntry) (bs : List Byte) : Setup (List TlbEntry) :=
  let a := wordAt bs 0
  let n := wordAt bs 8
  let half := if bitOf a 56 then 2 ^ 57 else 2 ^ 56
  if fld a 57 7 ≠ 0 ∨ a % 4096 ≠ 0 ∨ fld n 40 24 ≠ 0 ∨ n = 0 ∨ half < a + 4096 * n then refuse
  else s.pinRange asid (a + 4096 * n) (Config.pinnedStore + 2) a store

/-- The store that the whole set fills. -/
def State.pinSet (s : State) (asid va : Nat) : Nat → List TlbEntry → Setup (List TlbEntry)
  | 0, store => pure store
  | n + 1, store => do
    let bs ← s.walkBytes asid va 16
    let st ← s.pinRecord asid store bs
    s.pinSet asid (va + 16) n st

/-- Translation through a store being built. -/
def storeLeaf (store : List TlbEntry) (asid va : Nat) : Option Leaf :=
  if canonical va then tlbFind store asid (va % 2 ^ 57) else none

/-! ### Chains (R73, R160) -/

/-- A chain's segments as halves, and the dictionaries its compressed segments name, by address. -/
structure Chain where
  halves : List Half
  dicts : List (Nat × List Nat)
  deriving DecidableEq, Repr

/-- Code bytes that set-up reads through a store. -/
def State.codeVia (s : State) (tr : Nat → Option Leaf) (va n : Nat) : Setup (List Byte) := do
  (spanPieces tr va n).forM (fun p => s.meets p.1 p.2)
  Setup.of (bytesVia tr s.mem va n).toOption
/-- The dictionary at an address. -/
def State.dictAt (s : State) (tr : Nat → Option Leaf) (va : Nat) : Setup (List Nat) := do
  let c ← s.codeVia tr va 4
  let n := leNat c
  ensure (decide (1 ≤ n) && decide (n ≤ 16384))
  let bs ← s.codeVia tr va (4 + 4 * n)
  Setup.of (parseDict bs)

/-- The chain from a segment on; `seen` are the headers before it. -/
def State.chainFrom (s : State) (tr : Nat → Option Leaf) : Nat → Nat → List Nat → Setup Chain
  | 0, _, _ => refuse
  | fuel + 1, hdr, seen => do
    ensure (!seen.contains hdr)
    let hb ← s.codeVia tr hdr 32
    let g ← Setup.of (parseSeg hdr hb)
    let d ← if g.kind = 2 then s.dictAt tr g.dict else pure []
    let _ ← s.codeVia tr hdr (g.body - hdr + g.bodyLen)
    match expandAt tr s.mem d hdr with
    | .error _ => refuse
    | .ok x =>
      let ds := if g.kind = 2 then [(g.dict, d)] else []
      if g.next = 0 then pure ⟨[x.half 0], ds⟩
      else do
        let c ← s.chainFrom tr fuel g.next (hdr :: seen)
        pure ⟨x.half 0 :: c.halves, ds ++ c.dicts⟩

/-! ### Pause-point spacing (R174) -/

/-- The pause points of a half in fetch order, counted from the release; the last anchored bundle so far, and whether a
BHALT or a word that is no bundle ends the walk. -/
def Half.pauses (h : Half) : Nat → Nat → Nat → List Nat × Nat × Bool
  | 0, _, last => ([], last, true)
  | fuel + 1, addr, last =>
    if addr = h.body + 4 * h.nsyl then ([], last, false)
    else match h.bundle addr with
      | .error _ => ([], last, true)
      | .ok ws =>
        let hd := ws.getD 0 0
        let t := if ancOf hd then (bundleSlots addr ws).bind (anchorTick 0 last) else none
        let l := t.getD last
        let p := if ppOf hd then t.toList else []
        if hasHalt ws then (p, l, true)
        else
          let r := h.pauses fuel (addr + 4 * ws.length) l
          (p ++ r.1, r.2)
/-- The same along a chain. -/
def chainPauses : List Half → Nat → List Nat
  | [], _ => []
  | h :: hs, last =>
    let r := h.pauses (h.nsyl + 1) h.body last
    r.1 ++ (if r.2.2 then [] else chainPauses hs r.2.1)

/-- Consecutive ticks differ by at most the bound. -/
def spaced (bnd : Nat) : Nat → List Nat → Bool
  | _, [] => true
  | t, u :: l => decide (u ≤ t + bnd) && decide (t ≤ u + bnd) && spaced bnd u l
/-- Ticks from a release of entry `e` to the next release of bench `b`. -/
def nextRelease (es : List TtEntry) (flen b e : Nat) : Nat :=
  match (nextEntry es b e).bind (fun i => es[i]?), es[e]? with
  | some n, some t => let d := (n.release + flen - t.release) % flen
                      if d = 0 then flen else d
  | _, _ => flen

/-! ### Timetable structures (R163, R164, R176, R177, R379) -/

/-- A region of tensor SRAM as a live map or a region list gives it: offset and length. -/
def regionWord (w : Nat) : Option (Nat × Nat) :=
  let off := fld w 32 22
  let len := fld w 0 22
  if fld w 22 10 ≠ 0 ∨ off % 128 ≠ 0 ∨ len % 128 ≠ 0 ∨ len = 0 ∨ Config.sramBytes < off + len then none else some (off, len)

/-- The four words of a bench mask. -/
def maskAt (bs : List Byte) (off : Nat) : Nat := leNat ((bs.drop off).take 32)

def State.readEntry (s : State) (asid eaddr flen i : Nat) : Setup TtEntry := do
  let bs ← s.walkBytes asid (eaddr + 64 * i) 64
  let w := wordAt bs 0
  let live := wordAt bs 0x30
  let nl := wordAt bs 0x38
  ensure (decide (fld w 32 32 < flen) && fld w 24 8 == 0 && decide (nl < 65536) && live % 8 == 0 &&
    (nl != 0 || live == 0) && maskAt bs 8 != 0)
  let ls ← collect (fun j => do
    let v ← s.walk8 asid (live + 8 * j)
    Setup.of (if fld v 54 10 = 0 then regionWord v else none)) nl
  pure ⟨fld w 32 32, fld w 0 24, maskAt bs 8, wordAt bs 0x28, ls⟩

def State.readMortise (s : State) (asid maddr nmort flen i : Nat) : Setup (Mortise × Nat × Nat) := do
  let bs ← s.walkBytes asid (maddr + 64 * i) 64
  let w := wordAt bs 0
  let v := wordAt bs 8
  let open_ := fld w 32 32
  let close := fld w 0 32
  let n := fld v 40 8
  let ra := fld v 0 32
  ensure (decide (open_ + 16 ≤ close) && decide (close ≤ flen) && fld v 49 3 == 0 && fld v 32 8 == 0 && decide (1 ≤ n) &&
    decide (n ≤ 16) && ra % 8 == 0 && decide (64 * nmort ≤ ra) && (bs.drop 0x30).all (· == 0))
  let rs ← collect (fun j => do
    let g ← s.walk8 asid (maddr + ra + 8 * j)
    Setup.of (if fld g 54 2 = 0 then (regionWord g).map (fun r => (fld g 56 8, r.1, r.2)) else none)) n
  pure (⟨open_, close, fld v 52 12, bitOf v 48, rs, maskAt bs 0x10⟩, ra, 8 * n)

/-- The destinations of R177. -/
def tenonDest (kind idx : Nat) : Bool :=
  match kind with
  | 1 => decide (1 ≤ idx) && decide (idx ≤ 31)
  | 2 => decide (1 ≤ idx) && decide (idx ≤ 7)
  | 3 => decide (idx ≤ 7)
  | 4 => decide (idx ≤ 7)
  | _ => decide (kind ≤ 8) && idx == 0
def State.readTenon (s : State) (asid taddr nmort i : Nat) : Setup Tenon := do
  let bs ← s.walkBytes asid (taddr + 16 * i) 16
  let w := wordAt bs 0
  ensure (tenonDest (fld w 56 8) (fld w 50 6) && fld w 6 44 == 0 && decide (fld w 0 6 < nmort))
  pure ⟨fld w 56 8, fld w 50 6, fld w 0 6, wordAt bs 8⟩

/-- Whether every two elements of a list, the earlier first, satisfy `p`. -/
def everyPair {α : Type} (p : α → α → Bool) : List α → Bool
  | [] => true
  | a :: l => l.all (p a) && everyPair p l

/-- Destinations of a mortise's tenons. -/
def destsOf (ts : List Tenon) (m : Nat) : List (Nat × Nat) :=
  (ts.filter (fun t => t.mort == m)).map (fun t => (t.dkind, t.didx))
/-- Two mortises that R178 lets stand side by side. -/
def mortisesAgree (ts : List Tenon) (p q : Nat × Mortise) : Bool :=
  let a := p.2
  let b := q.2
  !(decide (a.open_ < b.close) && decide (b.open_ < a.close)) ||
    (!(a.regions.any (fun r => b.regions.any (fun t => r.1 == t.1 && overlaps r.2.1 r.2.2 t.2.1 t.2.2))) &&
      ((a.mask &&& b.mask) == 0 || !((destsOf ts p.1).any (fun d => (destsOf ts q.1).contains d))))
/-- The entries' order, and their benches' releases (R165). -/
def entriesAgree (a b : TtEntry) : Bool :=
  decide (a.release ≤ b.release) && ((a.mask &&& b.mask) == 0 || a.release != b.release)

/-- An entry of the channel table (R323). -/
def State.readChannel (s : State) (asid chaddr i : Nat) : Setup Channel := do
  let bs ← s.walkBytes asid (chaddr + 16 * i) 16
  let w := wordAt bs 0
  let p := fld w 56 8
  let c := fld w 48 8
  let route := fld w 46 2
  let x := bitOf w 45
  let port := fld w 37 8
  let shape := fld w 22 2
  ensure (fld w 32 5 == 0 && fld w 0 16 == 0 && fld (wordAt bs 8) 0 32 == 0 && shape != 3 && validFmt (fld w 24 8) &&
    (if x then decide (port < 144) else if route ≤ 1 then p / 16 == c / 16 else p % 16 == c % 16))
  let lat := if x then Config.portPath p port + fld (tgetD s.host.splport port 0).toNat 16 24 else routeLat route p c
  pure ⟨p, c, route, x, port, fld w 24 8, 256 * 2 ^ shape, fld w 16 6 + 1, lat, [], [], []⟩

/-! ### Set-up (R165) -/

/-- What set-up builds. -/
structure Built where
  launch : FrameLaunch
  pinned : List TlbEntry
  channels : List Channel
  deriving DecidableEq, Repr

/-- The dictionary addresses of one bench agree (R160), and the one it has. -/
def benchDict (es : List TtEntry) (cs : List Chain) (b : Nat) : List (Nat × List Nat) :=
  ((es.zip cs).filter (fun p => bitOf p.1.mask b)).flatMap (fun p => p.2.dicts)
def oneDict (ds : List (Nat × List Nat)) : Bool := ds.all (fun d => some d.1 == (ds.head?).map (·.1))

/-- The header of a timetable (R163). -/
structure TtHeader where
  nframes : Nat
  flen : Nat
  nent : Nat
  nmort : Nat
  fslots : Nat
  holdmax : Nat
  bnd : Nat
  eaddr : Nat
  maddr : Nat
  taddr : Nat
  nten : Nat
  deriving DecidableEq, Repr

/-- The header from its 64 bytes. -/
def ttHeader (bs : List Byte) : TtHeader :=
  let w (off : Nat) : Nat := wordAt bs off
  { nframes := w 0, flen := fld (w 8) 32 32, nent := fld (w 8) 16 16, nmort := fld (w 8) 8 8, fslots := fld (w 8) 0 3
    holdmax := fld (w 0x10) 32 32, bnd := fld (w 0x10) 0 17, eaddr := w 0x18, maddr := w 0x20, taddr := w 0x28, nten := fld (w 0x30) 0 9 }
/-- Every field of the header lies in its range, is aligned, is 0 where its array is empty, and the reserved fields are 0 (R163). -/
def TtHeader.legal (h : TtHeader) (bs : List Byte) : Bool :=
  decide (1 ≤ h.nframes) && decide (h.nframes ≤ 2 ^ 63) && decide (1024 ≤ h.flen) && decide (1 ≤ h.nent) && decide (h.nent ≤ 4096) &&
    decide (h.nmort ≤ 64) && decide (1 ≤ h.fslots) && decide (1024 ≤ h.holdmax) && decide (1 ≤ h.bnd) && decide (h.bnd ≤ 65536) &&
    h.eaddr % 64 == 0 && h.maddr % 64 == 0 && (h.nmort != 0 || h.maddr == 0) && h.taddr % 16 == 0 && (h.nten != 0 || h.taddr == 0) &&
    decide (h.nten ≤ 256) && fld (wordAt bs 8) 3 5 == 0 && fld (wordAt bs 0x10) 17 15 == 0 && fld (wordAt bs 0x30) 9 55 == 0 &&
    wordAt bs 0x38 == 0

/-- All structures of a launch, copied and checked; refused where a check fails, or a pinned page names a compander table that
is not valid (R45). -/
def State.buildFrame (s : State) (q asid index : Nat) (r : FrameRecord) : Setup Built := do
  let hd ← s.walkBytes asid r.tt 64
  let h := ttHeader hd
  ensure (h.legal hd)
  let es ← collect (s.readEntry asid h.eaddr h.flen) h.nent
  ensure (everyPair entriesAgree es)
  let ms ← collect (s.readMortise asid h.maddr h.nmort h.flen) h.nmort
  ensure (everyPair (fun a b => !overlaps a.2.1 a.2.2 b.2.1 b.2.2) ms)
  let ts ← collect (s.readTenon asid h.taddr h.nmort) h.nten
  ensure (everyPair (fun a b => !(a.mort == b.mort && a.dkind == b.dkind && a.didx == b.didx)) ts)
  ensure (everyPair (mortisesAgree ts) ((List.range h.nmort).zip (ms.map (·.1))))
  let chs ← collect (s.readChannel asid r.ch) r.nch
  let store ← s.pinSet asid r.pin r.pinn []
  ensure (store.all (fun e => !e.leaf.typed || e.leaf.tbl == 0 || tblValid (s.compander e.leaf.tbl)))
  let cs ← es.mapM (fun e => s.chainFrom (storeLeaf store asid) chainFuel e.seg [])
  let ds := (List.range Config.benches).map (fun b => (b, benchDict es cs b))
  ensure (ds.all (fun d => oneDict d.2))
  ensure (((List.range h.nent).zip (es.zip cs)).all (fun p =>
    let ps := chainPauses p.2.2.halves 0
    (benchesOf p.2.1.mask).all (fun b => spaced h.bnd 0 (ps ++ [nextRelease es h.flen b p.1]))))
  pure ⟨{ queue := q, index := index, asid := asid, seed := BitVec.ofNat 64 r.seed, align := r.align, tsq := r.tsq
          dtag := r.dtag, nframes := h.nframes, flen := h.flen, fslots := h.fslots, holdmax := h.holdmax, pausebnd := h.bnd, entries := es
          morts := ms.map (·.1), tenons := ts
          dicts := ds.filterMap (fun d => (d.2.head?).map (fun e => (d.1, e.2))), sctr := r.sctr, siginc := r.siginc
          readyAt := s.ctl.now }, store, chs⟩

/-- The benches as a launch finds them (R157): only the weave ports' queues stay. -/
def portsOnly (bs : Tbl Bench) : Tbl Bench :=
  (bs.filter (fun (b : Nat × Bench) => !b.2.port.isEmpty)).map (fun (b : Nat × Bench) => (b.1, { Bench.zero with port := b.2.port }))

/-- A bench whose launch is over: its registers stay as they are until the next launch starts (R157); it executes nothing, its
accumulator slots cease to exist and its winnow state is discarded where a fault ended the launch (R244, R369), and nothing more of
it lands. -/
def Bench.over (k : Bench) (fault : Bool) : Bench :=
  let q := if fault then { k with h := [], win := [], winthr := 0, winref := 0, winmap := 0 } else k
  { q with busy := false, pend := [], halves := []
           jig := { k.jig with state := if k.jig.state == .run then .loaded else k.jig.state } }
/-- What a launch leaves of the frame plane when it is over: the registers and the slip log (R162), the benches, the error list of
the stacks, and what boot fixed. -/
def Frame.ended (f : Frame) (fault : Bool) : Frame :=
  { Frame.reset with
    fcnt := f.fcnt, flen := f.flen, pausebnd := f.pausebnd, holdmax := f.holdmax, total := f.total, next := f.next
    slip := f.slip, benches := f.benches.map (fun (b : Nat × Bench) => (b.1, b.2.over fault)), flagEcc := f.flagEcc, launch := f.launch }

/-- The benches of a launch, each with its first segment being expanded (R157, R159). Half 0 takes it. -/
def State.armBenches (s : State) (es : List TtEntry) : State :=
  (List.range Config.benches).foldl (fun t b =>
    match (List.range es.length).find? (fun i => ((es[i]?).map (fun e => bitOf e.mask b)).getD false) with
    | none => t
    | some i =>
      (t.setBench b { Bench.zero with port := (t.bench b).port, half := 1 }).beginPrefetch b
        (((es[i]?).map (·.seg)).getD 0)) s

/-- A frame queue's next record: none while the queue's earlier work, or an entry that reports it, stands before it. -/
def State.frameHead (s : State) (q : Nat) : Option (List Byte) :=
  let k := s.queue q
  if !k.enabled ∨ k.head = k.tail ∨ k.held.isSome ∨ (tget s.host.parked q).isSome ∨ !k.completions.isEmpty ∨ s.bootHold then none
  else some (s.recordBytes q k.head)
/-- Whether that record's wait is met (R409). -/
def State.frameReady (s : State) (q : Nat) : Bool :=
  match s.frameHead q with
  | none => false
  | some bs =>
    let r := FrameRecord.ofBytes bs
    decide (r.waitval ≤ (s.evctr r.wctr).toNat)
/-- Whether an ended launch keeps the plane until the entry that reports its end is written (R412). -/
def State.planeWaits (s : State) : Bool := [128, 129, 130, 131].any (fun q => (s.queue q).completions.any (·.plane))
/-- The frame queue whose record starts next. -/
def State.nextFrame (s : State) : Option Nat :=
  if s.frame.running || s.frame.pending || s.planeWaits then none else [128, 129, 130, 131].find? s.frameReady

/-- Whether the package is aligned (R395). -/
def State.aligned (s : State) : Bool := bitOf s.host.alignstat.toNat 63

/-- The launch that set-up has built takes the plane, and its benches' first segments are fetched (R159, R165). -/
def State.seatLaunch (s : State) (b : Built) : State :=
  let f := { s.frame.ended true with
    benches := portsOnly s.frame.benches, launch := some b.launch, pending := true, pinned := b.pinned
    channels := (List.range b.channels.length).zip b.channels }
  ({ s with frame := f }).armBenches b.launch.entries
/-- FRAME_LAUNCH_SETUP (R165, R184, R409): the record is read; a check that fails refuses it, an aligned launch on a package
that is not aligned with ALIGN_MISMATCH (R396); an uncorrectable error that a read meets ends the launch (R269). -/
def execFrameLaunchSetup (q : Nat) (s : State) : Host.Outcome State Fault Refusal :=
  if s.nextFrame ≠ some q then .fault .noSubject
  else
    let k := s.queue q
    let bs := s.recordBytes q k.head
    let r := FrameRecord.ofBytes bs
    let t := s.setQueue q { k with head := (k.head + 1) % 2 ^ 32 }
    if s.recordBad q k.head then .next (t.eccComplete q k.head (s.recordAddr q k.head))
    else
      let u0 := t.eccCorrect (s.recordAddr q k.head) 128
      let u := u0.eccCorrect (s.asidAddr k.asid) 8
      if !r.legal bs then .next (u0.complete q stRefused k.head [])
      else if s.asidBad k.asid then .next (u0.eccComplete q k.head (s.asidAddr k.asid))
      else if !s.asidValid k.asid then .next (u.complete q stRefused k.head [])
      else if r.align && !s.aligned then .next (u.complete q stMismatch k.head [])
      else
        let o := (s.buildFrame q k.asid k.head r).outcome
        let v := u.corrects o.2
        match o.1 with
        | .error none => .next (v.complete q stRefused k.head [])
        | .error (some at_) => .next (v.eccComplete q k.head at_)
        | .ok b => .next (v.seatLaunch b)

/-- Every bench of the launch holds its first segment (R159). -/
def State.segmentsReady (s : State) : Bool := s.frame.benches.all (fun b => b.2.halves.all (fun h => h.2.ready))

/-- The launch starts at FCNT 0, with every word of tensor SRAM full (R161, R162, R166, R292). -/
def State.startFrame (s : State) : State :=
  match s.frame.launch with
  | none => s
  | some l => ({ s with
      mem := { s.mem with empties := s.mem.empties.filter (fun (e : Nat × Unit) => !isSram e.1) }
      host := { s.host with notices := [], fclkGot := s.host.fclkGot.map (fun (e : Option Nat × Nat × Option Nat) => (e.1, e.2.1, none)) } }).modFrame (fun f => { f with
      running := true, pending := false, fcnt := 0, flen := BitVec.ofNat 64 l.flen, pausebnd := BitVec.ofNat 64 l.pausebnd
      holdmax := BitVec.ofNat 64 l.holdmax, total := 0, next := 0, wrote := [] })

/-! ### Aligned launches (R396) -/

def State.package (s : State) : Nat := fld s.host.bootstat.toNat 0 17
def State.leader (s : State) : Nat := fld s.host.alignstat.toNat 32 17
def State.horizon (s : State) : Nat := fld s.host.alignstat.toNat 0 32
def State.isLeader (s : State) : Bool := s.aligned && s.package == s.leader
def State.members (s : State) : Nat := fld s.host.alignctl.toNat 40 8 + 1

/-- A pre-emption that its launch outran finds no record to act on (R413). -/
def State.dropPause (s : State) : State :=
  match s.frame.pauseReq.map (·.1) <|> s.frame.pauseAsked.map (·.1) with
  | some q => s.complete q stNoTarget (s.queue q).head []
  | none => s
/-- The leader sets a pause tick for its domain, at least HZ frame ticks ahead, for a request of FCNT `p` (R400). Alone in its domain it
pauses at the first tick from there on at which it rests (R378). -/
def State.choosePause (s : State) (q save p : Nat) : State :=
  let t := s.modFrame (fun f => { f with pauseReq := some (q, save, p), pauseFrom := f.fcnt.toNat + s.horizon, pauseAsked := none })
  if s.members = 1 then t
  else
    let z := s.frame.fcnt.toNat + s.horizon + Config.pauseChoice s.ctl.free
    (t.drew.modFrame (fun f => { f with pauseFrom := z })).send (.pauseAt p z)
/-- A request that came before the launch started is met at its start: the leader chooses the pause tick (R400; DEDUCED, log 49). -/
def State.pauseEarly (s : State) : State :=
  match s.frame.launch, s.frame.pauseAsked.map (·.2) <|> s.host.asked with
  | some l, some save => if s.isLeader then ({ s with host := { s.host with asked := none } }).choosePause l.queue save 0 else s
  | _, _ => s

/-- The launch that waits for its aligned start is refused. -/
def State.refusePending (s : State) (dtag : Nat) : State :=
  match s.frame.launch with
  | none => s
  | some l =>
    if s.frame.pending && l.align && l.dtag == dtag then
      ((({ s with host := { s.host with asked := none } }).dropPause).complete l.queue stMismatch l.index []).modFrame (·.ended true)
    else s

/-- The leader hears that a member's launch stands ready; a member's later notice takes the place of its earlier one. The last notice of
a DTAG settles it for all its members: their launches start at one instant, or, where any two differ, all of them are refused (R396;
DEDUCED, log 79). -/
def State.hearReady (s : State) (n : Nat × Nat × Nat × Nat) : State :=
  let l := s.host.ready.filter (fun m => m.1 != n.1) ++ [n]
  let same := l.filter (fun m => m.2.1 == n.2.1)
  let rest := l.filter (fun m => m.2.1 != n.2.1)
  if same.length ≠ s.members then { s with host := { s.host with ready := l } }
  else if same.any (fun m => m.2.2 != n.2.2) then
    (({ s with host := { s.host with ready := rest } }).send (.mismatch n.2.1)).refusePending n.2.1
  else ({ s with host := { s.host with ready := rest, startIn := some s.horizon } }).send (.start s.horizon)

/-- A member's host has asked for a pause: the leader hears of it once the member's launch stands ready (R400). -/
def State.forwardPause (s : State) : State :=
  match s.frame.pauseAsked with
  | some (_, save) => s.send (.preempt (if s.frame.running then s.frame.fcnt.toNat else 0) save)
  | none => s
/-- A launch that holds its segments starts, or tells its domain that it is ready. -/
def State.segmentsHeld (s : State) : State :=
  match s.frame.launch with
  | none => s
  | some l =>
    if !s.frame.pending || !s.segmentsReady then s
    else if !l.align then s.startFrame
    else if s.isLeader then s.hearReady (s.package, l.dtag, l.flen, l.nframes)
    else (s.send (.ready l.dtag l.flen l.nframes)).forwardPause

/-- SEGMENT_READY; the last of a launch's first segments starts the launch (R159). -/
def execSegmentReady (b : Nat) (s : State) : Host.Outcome State Fault Refusal :=
  let k := s.bench b
  if k.halves.any (fun h => !h.2.ready && decide (h.2.readyAt ≤ s.ctl.now)) then
    .next (s.setBench b { k with halves := k.halves.map (fun (h : Nat × Half) =>
      (h.1, if h.2.readyAt ≤ s.ctl.now then { h.2 with ready := true } else h.2)) }).segmentsHeld
  else .fault .noSubject

/-! ### The end of a tick -/

/-- One barrier subtraction on a bench (R316). -/
def State.benchSubtract (s : State) (b off n : Nat) : State := s.setBenchBar b off ((s.benchBar b off).land n)
/-- One advance of a bench's watermark (R318). -/
def Bench.advance (k : Bench) (ch ep first n : Nat) : Bench :=
  { k with wm := tmod k.wm ch Watermark.zero (fun w => w.advance ep first n) }

/-- One write kept for the end of a tick; an engine's sets full the words that it writes (R293), and the flags of a reduction's step go
to the issuing bench's FLAGS (R306). -/
def State.endOne (s : State) (e : EndWrite) : State :=
  let r := e.result s.mem
  let t := s.framePut e.op.byEngine e.pa r.1
  if e.op.byEngine then t.modBench e.bench (fun k => { k with flags := k.flags ||| BitVec.ofNat 64 r.2 }) else t
/-- The writes kept for the end of a tick, then the barrier subtractions, the watermark advances, and the flags of what
landed on the benches that run at the tick (R170, R214). -/
def State.finishWrites (s : State) : State :=
  let f := s.frame
  let s1 := (byEnd f.ends).foldl State.endOne s
  let s2 := f.subs.foldl (fun t u => t.benchSubtract u.1 u.2.1 u.2.2) s1
  let s3 := f.advances.foldl (fun t u => t.modBench u.1 (fun k => k.advance u.2.1 u.2.2.1 u.2.2.2.1 u.2.2.2.2)) s2
  let s4 := ((s3.frame.benches.map (·.1)).filter s.runs).foldl (fun t b => t.modBench b (fun k => k.land Effect.isFlags)) s3
  s4.modFrame (fun g => { g with ends := [], subs := [], advances := [] })

/-! ### Ends of a launch -/

/-- Results in the order of their landing, those of one tick in order of issue. -/
def insertPending (e : Pending) : List Pending → List Pending
  | [] => [e]
  | f :: l => if e.at_ < f.at_ || (e.at_ == f.at_ && decide (e.ord < f.ord)) then e :: f :: l else f :: insertPending e l

/-- Results still in flight at a bench's last BHALT land at their ticks (R166), which may come after the launch: in the order in which
they would land. -/
def State.landRest (s : State) (b : Nat) : State :=
  ((s.bench b).pend.foldl (fun l e => insertPending e l) []).foldl (fun t e =>
    e.eff.rowsOf.foldl (fun u r => { u with mem := u.mem.rawPut (sramPa b r.1) r.2 }) (t.modBench b (fun k => k.apply e.eff))) s
/-- The frame launch is over, with a status. -/
def State.endFrame (s : State) (status : Nat) (frec : List W64) : State :=
  match s.frame.launch with
  | none => s
  | some l =>
    let s1 := if status = stDone then (s.frame.benches.map (·.1)).foldl State.landRest s.dropPause else s.dropPause
    let t := (s1.completeFrame l.queue status l.index frec).modFrame (·.ended (status != stDone))
    if status = stDone then t.signal l.sctr (BitVec.ofNat 64 l.siginc) else t

/-- FRAME_LAUNCH_COMPLETE (R166): the launch's end waits for room for the entry that reports it, and for that of a pre-emption that it
outran (R412). -/
def execFrameLaunchComplete (s : State) : Host.Outcome State Fault Refusal :=
  match s.frame.launch with
  | none => .fault .noSubject
  | some l =>
    if s.frame.running ∧ l.nframes * l.flen ≤ s.frame.fcnt.toNat ∧ s.frame.benches.all (fun b => !b.2.busy) ∧
        s.frame.openM = [] ∧ s.frame.latches = [] ∧
        (s.queue l.queue).roomFor (if s.frame.pauseReq.isSome || s.frame.pauseAsked.isSome then 2 else 1) then .next (s.endFrame stDone [])
    else .fault .noSubject

/-- The fault record of a launch that ends at F (R370). -/
def FrameLaunch.fault (l : FrameLaunch) (f : FaultCause) (n at_ : Nat) : List W64 := f.record at_ (min (at_ / l.flen) l.nframes) n
/-- A launch-wide fault ends the frame launch (R369 to R371, R400): `at_` is its F. In a domain of several members its entry waits until no
notice of an earlier F can come. -/
def State.faultEnd (s : State) (f : FaultCause) (n at_ : Nat) : State :=
  match s.frame.launch with
  | none => s
  | some l =>
    let t := (s.endFrame stFault (l.fault f n at_)).life (0x200 + f.code) 1
    let u := if l.align && s.aligned && s.members != 1 then
        let wait := (s.horizon + s.frame.holdmax.toNat) * (if l.tsq then 4 else 1)
        t.modFrame (fun k => { k with wrote := s.frame.wrote, settling := some ⟨f.code, at_, wait⟩ })
      else t
    if l.align ∧ s.aligned ∧ f.code ≠ cRemote then u.send (.fault at_) else u
/-- The cause that a launch reports when another member of its domain faulted: INFO holds the port toward it (R373). -/
def remoteFault (port : Nat) : FaultCause := ⟨cRemote, port, 0, 0, 2, 0, 0⟩
/-- A launch that has ended by a fault ends at an earlier F of its domain in its place: what it wrote from there on is discarded, and so
are its record and its count (R400; DEDUCED, log 49). -/
def State.endEarlier (s : State) (code f port : Nat) : State :=
  match s.frame.launch with
  | none => s
  | some l =>
    let t := (s.unwrite f).modQueue l.queue (fun k => { k with completions := k.completions.map (fun c =>
      if c.plane then { c with frec := l.fault (remoteFault port) 1 f } else c) })
    ((t.life (0x200 + code) (2 ^ 64 - 1)).life (0x200 + cRemote) 1).modFrame (fun k =>
      { k with settling := k.settling.map (fun e => { e with code := cRemote, at_ := f }) })
/-- One tick fewer until the entry of such a launch may be written. -/
def State.settle (s : State) : State :=
  s.modFrame (fun k => { k with
    settling := (k.settling.filter (fun e => decide (1 < e.left))).map (fun e => { e with left := e.left - 1 }) })

end Sys2Proof.Machine
end

