-- ==== Sys2Proof/Machine/FrameSave.lean ====
section
/-! DEFINITION. Pre-emption of a frame launch (R378 to R381, R400): rest, the save record of a bench, the pause and the
resumption. -/

namespace Sys2Proof.Machine

/-! ### Rest (R378) -/

/-- A busy bench stands before a PAUSE bundle whose anchor tick is the present FCNT; the place of that bundle. -/
def State.beforePause (s : State) (k : Bench) : Option Place :=
  match k.nextIssue with
  | none => none
  | some p => match tget k.halves p.half with
    | none => none
    | some h => match h.bundle p.addr with
      | .error _ => none
      | .ok ws => match bundleSlots p.addr ws with
        | none => none
        | some ss =>
          if ppOf (ws.getD 0 0) && anchorTick k.release k.lastAnchor ss == some s.frame.fcnt.toNat then some p else none
/-- Nothing of a bench is in flight, and it is idle or stands before its PAUSE. -/
def State.benchRests (s : State) (b : Nat) : Bool :=
  let k := s.bench b
  k.pend.all (fun p => decide (p.at_ ≤ k.tick)) && decide (k.winBusy ≤ k.tick) && k.jig.state != .run && s.copiesOf b == 0 &&
    !s.putting b && (!k.busy || (s.beforePause k).isSome)
/-- No window of a mortise holds the present frame tick. -/
def State.noWindow (s : State) : Bool :=
  match s.frame.launch with
  | none => true
  | some l => l.morts.all (fun m =>
      let phi := s.frame.fcnt.toNat % l.flen
      decide (phi < m.open_) || decide (m.close ≤ phi))
/-- The package is at rest at this tick. -/
def State.atRest (s : State) : Bool :=
  s.frame.held == 0 && s.noWindow && s.frame.lpass.isEmpty && s.frame.channels.all (fun c => c.2.inbound.isEmpty) && (s.frame.benches.map (·.1)).all s.benchRests

/-- Whether this launch is one of an alignment domain. -/
def State.frameAligned (s : State) : Bool := (s.frame.launch.map (·.align)).getD false && s.aligned
/-- Whether a requested pause falls on this tick: the first from the request on at which the package is at rest, or, in a domain of several
members, the leader's tick (R378, R400; DEDUCED, log 49). -/
def State.pauseNow (s : State) : Bool :=
  s.frame.running && s.frame.pauseReq.isSome && s.atRest &&
    (if s.frameAligned && s.members != 1 then s.frame.fcnt.toNat == s.frame.pauseFrom else decide (s.frame.pauseFrom ≤ s.frame.fcnt.toNat))

/-! ### The record of a bench (R330, R380) -/

/-- Bytes of a list of numbers of `n` bytes each. -/
def packed (n : Nat) (vs : List Nat) : List Byte := vs.flatMap (leBytes n)
/-- `n` bytes, the list padded with zeros. -/
def padded (n : Nat) (bs : List Byte) : List Byte := (bs ++ List.replicate (n - bs.length) 0).take n

def Latch.record (t : Latch) : List Byte :=
  (List.range 128).flatMap (fun r => padded 256 (t.rows.getD r [])) ++
    (List.range 128).flatMap (fun r => padded 8 (t.scales.getD r [])) ++
    packed 8 [t.fmt, t.geo, t.tbl, t.kg, if t.valid then 1 else 0]
def WinEntry.record (e : WinEntry) : List Byte :=
  leBytes 8 e.desc.toNat ++ leBytes 8 ((if e.valid then 1 else 0) + (if e.sv then 2 else 0)) ++
    packed 4 ((List.range 16).map (fun i => (e.sig.getD i 0).toNat))
def AccSlot.record (a : AccSlot) : List Byte :=
  (List.range 520).flatMap (fun p => packed 4 ((List.range 32).map (fun i => a.word (posWord p i))))
def ClReg.record (c : ClReg) : List Byte := padded 248 c.bytes ++ leBytes 8 c.addr
def JigState.word : JigState → Nat
  | .idle => 0
  | _ => 1
/-- Mask of the numbers below `n` that satisfy `p`. -/
def bitsWhere (n : Nat) (p : Nat → Bool) : Nat := (List.range n).foldl (fun m i => if p i then m + 2 ^ i else m) 0

/-- The register part of a bench's record: offsets with their bytes. -/
def Bench.record (k : Bench) (bhdr : Nat) : List (Nat × List Byte) :=
  [(0x0, packed 8 [bhdr, (if k.busy then 2 ^ 63 else 0) + k.entry, k.flags.toNat, k.drawc.toNat, k.kctl.toNat, k.ktop.toNat]),
   (0x30, packed 8 [bitsWhere 16 k.rg + bitsWhere 16 (fun h => (tget k.h h).isSome) * 2 ^ 16 + k.fmtsel.toNat * 2 ^ 32,
      bitsWhere 64 (fun m => tgetD k.mlatch m false)]),
   (0x40, packed 4 ((List.range 8).map (fun i => (tgetD k.seqlen i 0).toNat))),
   (0x60, packed 8 ((List.range 8).map (fun i => (tgetD k.kvb i 0).toNat))),
   (0xA0, packed 8 [k.kvss.toNat, k.kvps.toNat, k.winthr.toNat, k.winref.toNat, k.winmap.toNat, k.ktrip.toNat]),
   (0x100, packed 8 ((List.range 32).map (fun i => (k.ra i).toNat))),
   (0x200, packed 8 ((List.range 8).flatMap (fun i =>
      let w := tgetD k.wm i Watermark.zero
      [w.cfg.toNat, w.pos.toNat]))),
   (0x1000, packed 128 ((List.range 64).map (fun i => (tgetD k.v i 0).toNat))),
   (0x3000, (List.range 16).flatMap (fun i => (tgetD k.clr i ClReg.zero).record)),
   (0x4000, (List.range 64).flatMap (fun i => (tgetD k.win i WinEntry.zero).record)),
   (0x6000, padded 512 k.jig.store ++ leBytes 8 k.jig.state.word),
   (0x7000, k.active.record), (0x7000 + 0x8800, k.shadow.record)] ++
  k.h.map (fun (e : Nat × AccSlot) => (0x18000 + 0x10400 * e.1, e.2.record))
/-- The channels whose entries wait at a bench. -/
def channelRecords (chs : Tbl Channel) (b : Nat) : List (Nat × List Byte) :=
  chs.filterMap (fun (c : Nat × Channel) =>
    if c.2.cons = b ∧ c.1 < 64 then
      some (0x11C000 + 0x2080 * c.1, padded 128 (leBytes 8 c.2.landed.length) ++ packed 128 (c.2.landed.map (fun e => e.2.toNat)))
    else none)
/-- The live map of a bench: its running entry's, or its next entry's (R379). -/
def State.liveMap (s : State) (b : Nat) (k : Bench) : List (Nat × Nat) :=
  match s.frame.launch with
  | none => []
  | some l =>
    let here := s.frame.fcnt.toNat % l.flen
    let mine := ((List.range l.entries.length).zip l.entries).filter (fun p => bitOf p.2.mask b)
    let e := if k.busy then l.entries[k.entry]? else
      (match mine.find? (fun p => decide (here ≤ p.2.release)) with
        | some p => some p.2
        | none => (mine.head?).map (·.2))
    ((e.map (·.live)).getD [])

/-- Where the record of bench `b` lies. -/
def benchSave (save b : Nat) : Nat := save + 0x1000 + 0x500000 * b
def State.putAt (s : State) (base : Nat) (ps : List (Nat × List Byte)) : State :=
  ps.foldl (fun t p => { t with mem := t.mem.putBytes false (base + p.1) p.2 }) s
/-- A bench writes its record. -/
def State.saveBench (s : State) (save b : Nat) : State :=
  let k := s.bench b
  let bhdr := match s.beforePause k with
    | some p => if k.busy then p.addr else 0
    | none => 0
  s.putAt (benchSave save b) (k.record bhdr ++ channelRecords s.frame.channels b ++
    (s.liveMap b k).map (fun r => (0x200000 + r.1, s.mem.rawBytes (sramPa b r.1) r.2)))
/-- The package header: FCNT, SLIPLOG and the slip log. -/
def State.saveHeader (s : State) (save : Nat) : State :=
  s.putAt save [(0, packed 8 ([s.frame.fcnt.toNat, s.frame.slipLog.toNat] ++ (List.range 64).flatMap (fun i =>
    let e := tgetD s.frame.slip i (0, 0)
    [e.1.toNat, e.2.toNat])))]

/-- A bench as it waits for its resumption: at its PAUSE bundle. -/
def State.parkBench (s : State) (b : Nat) : Bench :=
  let k := s.bench b
  match s.beforePause k with
  | some p => { k with port := [], pc := p.addr, half := p.half }
  | none => { k with port := [] }

/-- FRAME_PAUSE: at Z the plane stops and saves (R378, R380). What landed at Z is in place before it is saved. -/
def execFramePause (s : State) : Host.Outcome State Fault Refusal :=
  match s.frame.pauseReq, s.frame.launch with
  | some (q, save, _), some l =>
    if !s.pauseNow then .fault .noSubject
    else
      let t := s.finishWrites
      let bs := List.range Config.benches
      let u := bs.foldl (fun v b => v.saveBench save b) (t.saveHeader save)
      let parked := { u.frame with benches := bs.map (fun b => (b, u.parkBench b)), pauseReq := none }
      let v := { u with host := { u.host with parked := tset u.host.parked l.queue parked } }
      .next ((v.complete q stPreempted l.index []).modFrame (·.ended true))
  | _, _ => .fault .noSubject

/-- NOPAUSE: no such tick has come, and the launch runs on (R378). -/
def execNopause (s : State) : Host.Outcome State Fault Refusal :=
  match s.frame.pauseReq, s.frame.launch with
  | some (q, _, p), some l =>
    if p + 4 * s.frame.pausebnd.toNat < s.frame.fcnt.toNat then
      .next ((s.complete q stNoPause l.index []).modFrame (fun f => { f with pauseReq := none }))
    else .fault .noSubject
  | _, _ => .fault .noSubject

/-! ### Resumption (R381) -/

/-- Number `i` of `n` bytes each. -/
def numAt (n : Nat) (bs : List Byte) (i : Nat) : Nat := leNat ((bs.drop (n * i)).take n)
/-- A table of the numbers below `n`. -/
def tabulate {α : Type} (n : Nat) (f : Nat → α) : Tbl α := (List.range n).map (fun i => (i, f i))

def Latch.ofRecord (bs : List Byte) : Latch :=
  let w (i : Nat) : Nat := wordAt bs (0x8400 + 8 * i)
  { valid := bitOf (w 4) 0, rows := (List.range 128).map (fun r => (bs.drop (256 * r)).take 256)
    scales := (List.range 128).map (fun r => (bs.drop (0x8000 + 8 * r)).take 8)
    fmt := w 0, geo := w 1, tbl := w 2, kg := w 3 }
def WinEntry.ofRecord (bs : List Byte) : WinEntry :=
  ⟨bitOf (wordAt bs 8) 0, BitVec.ofNat 64 (wordAt bs 0) &&& 0xFFBFFFFFFFFFFFFF, bitOf (wordAt bs 8) 1,
    (List.range 16).map (fun i => BitVec.ofNat 32 (numAt 4 (bs.drop 16) i))⟩
def AccSlot.ofRecord (bs : List Byte) : AccSlot :=
  (List.range 520).foldl (fun a p => (List.range 32).foldl (fun q i => q.setWord (posWord p i) (numAt 4 bs (32 * p + i))) a)
    ⟨[], [], []⟩
def ClReg.ofRecord (bs : List Byte) : ClReg := ⟨bs.take (imageLength (wordAt bs 0)), wordAt bs 0xF8⟩

/-- A parked bench takes its record's values; `rd` reads the record. The bits that a register reserves read zero whatever memory holds by
then, as do DRAWC[63] and all but the flags of FLAGS (R7, R51, R95, R242, R245, R247, R317; DESIGN CHOICE, log 81). -/
def Bench.restore (k : Bench) (rd : Nat → Nat → List Byte) : Bench :=
  let w (off : Nat) : Nat := leNat (rd off 8)
  let v (off : Nat) : W64 := BitVec.ofNat 64 (w off)
  let gs := w 0x30
  { k with
    pc := if bitOf (w 8) 63 then w 0 else k.pc
    busy := bitOf (w 8) 63, entry := fld (w 8) 0 12, flags := v 0x10 &&& 0x7F, drawc := v 0x18 &&& 0x7FFFFFFFFFFFFFFF, kctl := v 0x20 &&& 0x800000FFFFFFFFFF, ktop := v 0x28
    g := BitVec.ofNat 16 gs, fmtsel := BitVec.ofNat 8 (gs / 2 ^ 32), mlatch := tabulate 64 (fun m => bitOf (w 0x38) m)
    seqlen := tabulate 8 (fun i => BitVec.ofNat 32 (leNat (rd (0x40 + 4 * i) 4)))
    kvb := tabulate 8 (fun i => v (0x60 + 8 * i)), kvss := v 0xA0, kvps := v 0xA8
    winthr := BitVec.ofNat 32 (w 0xB0), winref := v 0xB8 &&& 0x0000FFFF0000FFFF, winmap := v 0xC0
    ktrip := v 0xC8 &&& 0x1FFFFFFFF
    a := tabulate 32 (fun i => v (0x100 + 8 * i))
    wm := tabulate 8 (fun i => ⟨v (0x200 + 16 * i) &&& 0x803FFFFF003FFFFF, v (0x208 + 16 * i), (tgetD k.wm i Watermark.zero).done⟩)
    v := tabulate 64 (fun i => BitVec.ofNat 1024 (leNat (rd (0x1000 + 128 * i) 128)))
    clr := tabulate 16 (fun i => ClReg.ofRecord (rd (0x3000 + 256 * i) 256))
    win := tabulate 64 (fun i => WinEntry.ofRecord (rd (0x4000 + 80 * i) 80))
    jig := { k.jig with store := rd 0x6000 512, state := if w 0x6200 = 1 then .loaded else .idle }
    active := Latch.ofRecord (rd 0x7000 0x8428), shadow := Latch.ofRecord (rd 0xF800 0x8428)
    h := ((List.range 16).filter (fun h => bitOf gs (16 + h))).map (fun h =>
      (h, AccSlot.ofRecord (rd (0x18000 + 0x10400 * h) 0x10400))) }

/-- A channel's landed entries from its consumer's record. -/
def Channel.restore (c : Channel) (ch fcnt : Nat) (rd : Nat → Nat → List Byte) : Channel :=
  let at_ := 0x11C000 + 0x2080 * ch
  let n := min 64 (leNat (rd at_ 8))
  { c with landed := (List.range n).map (fun i =>
      (((c.landed[i]?).map (·.1)).getD fcnt, BitVec.ofNat 1024 (leNat (rd (at_ + 0x80 + 128 * i) 128)))) }

/-- Tensor SRAM of every bench reads zero, but for the live bytes of the records. -/
def State.restoreSram (s : State) (save : Nat) : State :=
  let s1 := { s with mem := { s.mem with cells := s.mem.cells.filter (fun (c : Host.Cell) => !isSram c.1) } }
  (s.frame.benches).foldl (fun t (e : Nat × Bench) =>
    (s.liveMap e.1 e.2).foldl (fun u r =>
      let live := s.mem.bytes (benchSave save e.1 + 0x200000 + r.1) r.2
      { u with mem := u.mem.rawPut (sramPa e.1 r.1) live }) t) s1

/-- The read of a record of the benches meets the errors of its bytes (R269). -/
def State.meetSave (s : State) (save : Nat) : State :=
  let n := 0x1000 + 0x500000 * Config.benches
  match s.eccLow save n with
  | some a => (s.faultFrame ⟨cEcc, stackOf a, a, 0, 2, 0, 0⟩).life (0x10C + stackOf a) 1
  | none => s.eccCorrect save n
/-- A paused launch is restored from its record, and goes on at Z (R381). -/
def State.resumeFrame (s : State) (q save : Nat) (p : Frame) : State :=
  let rd (b : Nat) (off n : Nat) : List Byte := s.mem.bytes (benchSave save b + off) n
  let hd (i : Nat) : Nat := leNat (s.mem.bytes (save + 8 * i) 8)
  let ports (b : Nat) : List PortAccess := (s.bench b).port
  let bs := tabulate Config.benches (fun b => { (tgetD p.benches b Bench.zero).restore (rd b) with port := ports b })
  let f := { p with
    benches := bs
    channels := p.channels.map (fun (c : Nat × Channel) => (c.1, c.2.restore c.1 (hd 0) (rd c.2.cons)))
    fcnt := BitVec.ofNat 64 (hd 0), total := hd 1 / 2 ^ 32 % 2 ^ 32, next := hd 1 % 64
    slip := tabulate 64 (fun i => (BitVec.ofNat 64 (hd (2 + 2 * i)), BitVec.ofNat 64 (hd (3 + 2 * i)) &&& 0xFFFF8FFFFFFFFFFF))
    tested := true, sub := 0, flagEcc := s.frame.flagEcc }
  (({ s with frame := f, host := { s.host with parked := terase s.host.parked q } }).restoreSram save).meetSave save

end Sys2Proof.Machine
end

