-- ==== Sys2Proof/Machine/WeaveLaunch.lean ====
section
/-! DEFINITION. Weave launches: records and descriptors (R112, R113, R123, R124), readiness (R125), the dispatchers (R111, R115,
R126 to R128, R130, R131), gang save records (R383), completion and faults of a launch (R125, R350, R369, R374). -/

namespace Sys2Proof.Machine

/-! ### Records and descriptors -/

/-- One pipe of a descriptor (R112). -/
def pipeWord (w : Nat) : Option Pipe :=
  if fld w 24 40 ≠ 0 ∨ fld w 0 4 ≠ 0 then none
  else some ⟨[], fld w 16 8 + 1, fld w 13 3, fld w 10 3, fld w 7 3, fld w 4 3, false, false⟩
/-- The ends of a pipe: role and port. -/
def Pipe.ports (p : Pipe) : List (Nat × Nat) := [(p.prole, p.pq), (p.crole, p.cq)]
def pipeDepths (ps : List Pipe) : Nat := (ps.map (·.depth)).foldl (· + ·) 0

/-- The gang descriptor at an address, unless R113 refuses it; an address that is no multiple of 8 is refused too (DESIGN CHOICE, log 72). -/
def State.readDesc (s : State) (asid va : Nat) : Setup GangDesc := do
  ensure (va % 8 == 0)
  let h ← s.walk8 asid va
  let nrole := fld h 0 8
  let npipe := fld h 8 8
  ensure (fld h 16 48 == 0 && decide (1 ≤ nrole) && decide (nrole ≤ 8) && decide (npipe ≤ 16))
  let es ← collect (fun k => s.walk8 asid (va + 8 + 16 * k)) nrole
  let hs ← collect (fun k => s.walk8 asid (va + 0x10 + 16 * k)) nrole
  let ps ← collect (fun j => do
    let w ← s.walk8 asid (va + 8 + 16 * nrole + 8 * j)
    Setup.of (pipeWord w)) npipe
  ensure (hs.all (fun h => decide (h ≤ 10)) && ps.all (fun p => decide (p.prole < nrole) && decide (p.crole < nrole)) &&
    everyPair (fun a b => a != b) (ps.flatMap Pipe.ports) && decide (pipeDepths ps ≤ Config.pipeEntriesPerCluster))
  pure ⟨es, hs, ps⟩

/-- The record's own fields (R124). -/
def recordLegal (bs : List Byte) : Bool :=
  let w (i : Nat) : Nat := wordAt bs (8 * i)
  fld (w 0) 48 16 != 0 && fld (w 0) 40 8 == 0 && fld (w 0) 38 2 != 0 && fld (w 0) 0 30 == 0 && fld (w 3) 32 8 == 0 &&
    w 6 == 0 && w 7 == 0
/-- A launch from its record (R123). -/
def Launch.ofBytes (bs : List Byte) (q index asid tvec : Nat) (d : GangDesc) : Launch :=
  let w (i : Nat) : Nat := wordAt bs (8 * i)
  { queue := q, index := index, asid := asid, tvec := tvec, ngang := fld (w 0) 48 16, dies := fld (w 0) 38 2
    prio := fld (w 0) 36 2, ecls := fld (w 0) 34 2, det := bitOf (w 0) 33, tsq := bitOf (w 0) 32, fl1 := bitOf (w 0) 31
    clx := bitOf (w 0) 30, desc := d, waitval := w 2, wctr := fld (w 3) 52 12, sctr := fld (w 3) 40 12, siginc := fld (w 3) 0 32
    seed := w 4, ltag := w 5, args := (List.range 8).map (fun i => w (8 + i)), state := .waiting, readyAt := 0, age := 0
    undeferred := [], placed := [], ended := [], save := none, savedGangs := [], opened := [], jumps := [], faults := [] }

/-- A refused record waits with its entry where the ring has no room for it (R412). -/
def State.keepRefused (s : State) (q : Nat) (l : Launch) : State :=
  (s.fresh.setLaunch s.weave.nextId { l with state := .spent }).modQueue q (fun r => { r with records := r.records ++ [s.weave.nextId] })
/-- The device reads and checks the next record of a weave queue; a refused one completes at once (R124), and one whose reading meets an
uncorrectable error ends by it (R269). -/
def State.readRecord (s : State) (q : Nat) : State :=
  let k := s.queue q
  let bs := s.recordBytes q k.head
  let t0 := s.setQueue q { k with head := (k.head + 1) % 2 ^ 32 }
  let o := (do
    s.meets (s.recordAddr q k.head) 128
    ensure (recordLegal bs)
    s.meets (s.asidAddr k.asid) 8
    ensure (s.asidValid k.asid)
    s.readDesc k.asid (wordAt bs 8) : Setup GangDesc).outcome
  let t := t0.corrects o.2
  let waits := if (t.queue q).roomFor 1 then t else t.keepRefused q (Launch.ofBytes bs q k.head 0 0 ⟨[], [], []⟩)
  match o.1 with
  | .error none => waits.complete q stRefused k.head []
  | .error (some at_) => waits.eccComplete q k.head at_
  | .ok d =>
    let id := t.weave.nextId
    (t.fresh.setLaunch id (Launch.ofBytes bs q k.head k.asid k.tvec.toNat d)).modQueue q
      (fun r => { r with records := r.records ++ [id] })
def State.readRecords (s : State) (q : Nat) : Nat → State
  | 0 => s
  | n + 1 => (s.readRecord q).readRecords q n

/-- QUEUE_DOORBELL: TAIL moves, unless the ring would hold more than its slots; an enabled weave queue's records are read
and checked at once (R124, R408). -/
def execQueueDoorbell (q v : Nat) (s : State) : Host.Outcome State Fault Refusal :=
  let k := s.queue q
  if s.bootHold || decide (2 ^ k.logn < idxSub v k.head) then .next s
  else
    let t := s.setQueue q { k with tail := v % 2 ^ 32 }
    .next (if k.enabled && decide (q < 128) then t.readRecords q (idxSub v k.head) else t)

/-! ### Readiness (R125, R127, R128) -/

/-- Whether a launch has become ready. -/
def Launch.isReady (l : Launch) : Bool := l.state != .waiting
/-- Whether a waiting record is ready: every earlier record of its queue is, and its counter stands high enough. -/
def State.readyNow (s : State) (id : Nat) (l : Launch) : Bool :=
  l.state == .waiting && ((s.queue l.queue).records.takeWhile (fun i => i != id)).all (fun i =>
    match tget s.weave.launches i with
    | some e => e.isReady
    | none => true) && decide (l.waitval ≤ (s.evctr l.wctr).toNat)
/-- LAUNCH_RECORD_READY (R125). -/
def execLaunchRecordReady (id : Nat) (s : State) : Host.Outcome State Fault Refusal :=
  match tget s.weave.launches id with
  | none => .fault .noSubject
  | some l =>
    if s.readyNow id l then .next (s.setLaunch id { l with state := .ready, readyAt := s.ctl.now }) else .fault .noSubject

/-- Whether a launch still has gangs to place. -/
def Launch.waits (l : Launch) : Bool :=
  (l.state == .ready || l.state == .running) && decide (l.placed.length < l.ngang)
/-- Whether the waiting gangs of a launch have earned their next priority step. -/
def State.agesNow (s : State) (l : Launch) : Bool :=
  l.isReady && decide (l.age < 3) && decide (l.readyAt + Config.ageingTicks * (l.age + 1) ≤ s.ctl.now)
/-- PRIORITY_AGEING (R127). -/
def execPriorityAgeing (id : Nat) (s : State) : Host.Outcome State Fault Refusal :=
  match tget s.weave.launches id with
  | none => .fault .noSubject
  | some l => if s.agesNow l then .next (s.setLaunch id { l with age := l.age + 1 }) else .fault .noSubject

/-- Whether a launch's gangs are deferred on a die (R128). -/
def State.deferred (s : State) (die : Nat) (l : Launch) : Bool :=
  decide ((s.dispatcher die).ebudget < l.ecls) && !l.undeferred.contains die
def State.expiresNow (s : State) (l : Launch) : Bool :=
  l.isReady && l.undeferred != [0, 1] && decide (l.readyAt + Config.deferralTicks ≤ s.ctl.now)
/-- DEFERRAL_EXPIRY (R128). -/
def execDeferralExpiry (id : Nat) (s : State) : Host.Outcome State Fault Refusal :=
  match tget s.weave.launches id with
  | none => .fault .noSubject
  | some l => if s.expiresNow l then .next (s.setLaunch id { l with undeferred := [0, 1] }) else .fault .noSubject
/-- A rise of a die's budget ends the deferrals that it covers (R128). -/
def State.endDeferrals (s : State) (die old : Nat) : State :=
  let b := (s.dispatcher die).ebudget
  { s with weave := { s.weave with launches := s.weave.launches.map (fun (e : Nat × Launch) =>
    (e.1, if e.2.isReady && decide (old < e.2.ecls) && decide (e.2.ecls ≤ b) && !e.2.undeferred.contains die then
        { e.2 with undeferred := if die = 0 then 0 :: e.2.undeferred else e.2.undeferred ++ [1] }
      else e.2)) } }

/-! ### Placement (R111, R115, R121, R130 to R132) -/

/-- A gang to be placed: what R127 orders it by, with its queue's own number. -/
structure Candidate where
  launch : Nat
  idx : Nat
  prio : Nat
  readyAt : Nat
  queue : Nat
  die : Nat                  -- die of its queue
  deriving DecidableEq, Repr

/-- The first of two lists of numbers that differ, compared at their first difference. -/
def lexBefore : List Nat → List Nat → Bool
  | a :: as, b :: bs => decide (a < b) || (a == b && lexBefore as bs)
  | _, _ => false
/-- The order of R127; where all that it names is equal, the queue's die and then the record (DESIGN CHOICE, log 73). -/
def Candidate.before (a b : Candidate) : Bool :=
  lexBefore [b.prio, a.readyAt, a.queue, a.idx, a.die, a.launch] [a.prio, b.readyAt, b.queue, b.idx, b.die, b.launch]
def insertCandidate (c : Candidate) : List Candidate → List Candidate
  | [] => [c]
  | d :: l => if c.before d then c :: d :: l else d :: insertCandidate c l

/-- The cluster that R130 gives gang `g` of a launch. -/
def Launch.home (l : Launch) (g : Nat) : Nat :=
  let ncl := if l.dies = 3 then 128 else 64
  let z := dowel (BitVec.ofNat 64 l.seed) (BitVec.ofNat 64 (2 ^ 63 + l.ltag % 2 ^ 63)) (BitVec.ofNat 64 g)
  let v := fld z.toNat 32 32 * ncl / 2 ^ 32
  if l.dies = 2 then 64 + v else v

/-- Gangs of a launch that a die may place: unplaced, and with DET only those whose cluster lies there. -/
def Launch.candidates (l : Launch) (id die : Nat) : List Candidate :=
  ((List.range l.ngang).filter (fun g => !l.placed.contains g && (!l.det || dieOfCluster (l.home g) == die))).map (fun g =>
      ⟨id, g, min 3 (l.prio + l.age), l.readyAt, queueNumber l.queue, l.queue / 64⟩)
/-- The ready, undeferred gangs of a die in the order of R127. -/
def State.candidates (s : State) (die : Nat) : List Candidate :=
  (s.weave.launches.flatMap (fun (e : Nat × Launch) =>
    if e.2.waits && bitOf e.2.dies die && !s.deferred die e.2 then e.2.candidates e.1 die else [])).foldl
      (fun l c => insertCandidate c l) []

/-- Gangs on a cluster. -/
def State.gangsOn (s : State) (cl : Nat) : List Gang :=
  (s.weave.gangs.filter (fun (g : Nat × Gang) => g.2.cluster == cl)).map (·.2)
def State.launchWhole (s : State) (l : Nat) : Bool :=
  ((tget s.weave.launches l).map (fun r => r.clx || r.fl1)).getD false
/-- Free cores of a cluster, lowest first; none where one gang has the whole of it (R123). -/
def State.freeCores (s : State) (cl : Nat) : List Nat :=
  let gs := s.gangsOn cl
  if gs.any (fun g => s.launchWhole g.launch) then []
  else ((List.range 8).map (fun i => 8 * cl + i)).filter (fun k => !gs.any (fun g => g.cores.contains k))
/-- Whether a gang of a launch fits on a cluster (R111). -/
def State.fits (s : State) (l : Launch) (cl : Nat) : Bool :=
  let free := s.freeCores cl
  decide (l.desc.entries.length ≤ free.length) && (!(l.clx || l.fl1) || free.length == 8) &&
    decide (((s.gangsOn cl).map (fun g => pipeDepths g.pipes)).foldl (· + ·) 0 + pipeDepths l.desc.pipes ≤
      Config.pipeEntriesPerCluster)

/-- A cluster changes between fused and separate L1s: its cores' copies go (R131). One that an ended launch left fused and that takes
a gang of another fusing launch does not change (DESIGN CHOICE, log 73). -/
def State.fuse (s : State) (cl : Nat) (fused : Bool) : State :=
  if (s.cluster cl).fused = fused then s
  else (List.range 8).foldl (fun t i => t.modCore (8 * cl + i) (fun k => { k with remote := [], fetched := [] }))
    (s.modCluster cl (fun c => { c with fused := fused }))

/-- STATUS of a control context (R17, R21). -/
def Launch.status (l : Launch) : W64 :=
  BitVec.ofNat 64 (l.prio * 2 ^ 18 + l.ecls * 2 ^ 16 + (if l.det then 2 ^ 11 else 0) + (if l.tsq then 2 ^ 10 else 0) +
    (if l.fl1 then 2 ^ 9 else 0))
/-- A role's control context at its start (R21), whose entry is reached as any target is (R14, R113). The PC holds ENTRY without its bits [1:0], which a PC does not have (R14; DESIGN CHOICE, log 72). -/
def Launch.control (l : Launch) (gang role : Nat) : Ctx :=
  { Ctx.zero with
    xs := (List.range 8).foldl (fun m i => tset m (10 + i) (BitVec.ofNat 64 (l.args.getD i 0))) []
    pc := BitVec.ofNat 64 (l.desc.entries.getD role 0 / 4 * 4), jumped := true, status := l.status, seed := BitVec.ofNat 64 l.seed
    asid := BitVec.ofNat 64 l.asid, gang := gang, role := role }

/-- A core takes a role: its local memory is cleared, and its search for a context begins at slot 0 (R32, R115, R129). The core keeps
no copy of another die's line: the end of the launch's wait is an acquire at system scope (R122), and a context that resumes here
sees nothing older than what it has seen (R285). -/
def State.seatRole (s : State) (l : Launch) (gang core role : Nat) : State :=
  let s1 := (s.acquire core).modCore core (fun k =>
    { k with fetched := [], last := 10, gang := some gang, role := role, nhlp := l.desc.helpers.getD role 0, gens := [] })
  { s1 with mem := { s1.mem with local_ := s1.mem.local_.filter (fun (c : Host.Cell) => c.1 / Config.localBytes != core) }
            weave := { s1.weave with left := terase s1.weave.left (16 * core) } }

/-! ### Gang save records (R383) -/

def gangSave (save idx : Nat) : Nat := save + 0x160000 * idx
def roleSave (base role : Nat) : Nat := base + 0x10000 + 0x28000 * role

/-- A context's part of the record. -/
def Ctx.record (x : Ctx) : List Byte :=
  packed 8 ((List.range 32).map (fun i => (x.x i).toNat)) ++ packed 32 ((List.range 16).map (fun i => (x.y (32 + i)).toNat)) ++
    packed 8 ([x.pc.toNat, x.status.toNat, x.flags.toNat, x.firsterr.toNat, x.epc.toNat, x.cause.toNat, x.faddr.toNat,
      x.drawc.toNat, x.pendingEvents.toNat] ++ (List.range 4).map (fun i => (tgetD x.sscr i 0).toNat) ++
      [x.ticket.toNat, x.ps.toNat / 2 * 2, x.gen]) ++
    List.replicate 0x80 0 ++ (List.range 4).flatMap (fun i => (tgetD x.clr i ClReg.zero).record)
/-- A context from its part of the record. Whatever memory holds by then, the bits that a register reserves read zero, and a PC's bits
[1:0] (R14, R17 to R20, R51; DESIGN CHOICE, log 81). -/
def Ctx.ofRecord (l : Launch) (gang role : Nat) (bs : List Byte) : Ctx :=
  let w (off : Nat) : W64 := BitVec.ofNat 64 (wordAt bs off)
  { Ctx.zero with
    xs := (tabulate 32 (fun i => w (8 * i))).drop 1, ys := tabulate 16 (fun i => BitVec.ofNat 256 (numAt 32 (bs.drop 0x100) i))
    ps := BitVec.ofNat 8 (wordAt bs 0x370), pc := BitVec.ofNat 64 (wordAt bs 0x300 / 4 * 4), status := w 0x308 &&& 0xFF0E1D
    flags := w 0x310 &&& 0x3F, firsterr := w 0x318 &&& 0x800000000000FFFF, epc := w 0x320, cause := w 0x328 &&& 0xFFFFFFFF00FF
    faddr := w 0x330, drawc := w 0x338 &&& 0x7FFFFFFFFFFFFFFF, evpend := w 0x340 &&& 0x7FF
    sscr := tabulate 4 (fun i => w (0x348 + 8 * i)), ticket := w 0x368, gen := wordAt bs 0x378 % 2 ^ 16
    clr := tabulate 4 (fun i => ClReg.ofRecord (bs.drop (0x400 + 256 * i))), seed := BitVec.ofNat 64 l.seed
    asid := BitVec.ofNat 64 l.asid, gang := gang, role := role }

/-- A context of a launch by gang, role and slot. -/
def placeCode (idx role slot : Nat) : Nat := 128 * idx + 16 * role + slot
/-- The contexts of a gang that a transfer brought to their PC, which its save record does not say. -/
def State.jumpsOf (s : State) (g : Gang) : List Nat :=
  ((List.range g.cores.length).zip g.cores).flatMap (fun r => ((List.range 11).filter (fun j =>
    ((s.ctx? (16 * r.2 + j)).map (·.jumped)).getD false)).map (placeCode g.idx r.1))

/-- A pipe's state words: close state, count of values, and one more than the values before the stop token, 0 for none. -/
def Pipe.record (p : Pipe) : List Byte :=
  packed 8 [(if p.pclosed then 2 ^ 63 else 0) + (if p.cclosed then 2 ^ 62 else 0) + p.entries.countP (fun e => !isToken e),
    if p.entries.any isToken then (p.entries.takeWhile (fun e => !isToken e)).length + 1 else 0]
/-- The values of a pipe, without tokens. -/
def Pipe.words (p : Pipe) : List Nat := p.entries.filterMap (fun e => match e with
  | .value w => some w.toNat
  | .token => none)

/-- Which helper slots and the control context of a core exist. -/
def State.liveSlots (s : State) (core : Nat) : Nat := bitsWhere 11 (fun j => (s.ctx? (16 * core + j)).isSome)
/-- The header: the gang's index and, by role, the contexts that exist; then the barriers. -/
def State.gangHeader (s : State) (g : Gang) : List (Nat × List Byte) :=
  [(0, packed 8 (g.idx :: g.cores.map s.liveSlots)),
   (0x80, packed 8 ((List.range 8).flatMap (fun b =>
      let r := tgetD g.bars b GBar.zero
      [r.phase, r.arr * 2 ^ 32 + r.tgt])))]
/-- The whole record of a gang. -/
def State.saveGang (s : State) (base : Nat) (g : Gang) : State :=
  let pipes := (List.range g.pipes.length).zip g.pipes
  let roles := (List.range g.cores.length).zip g.cores
  let s1 := s.putAt base (s.gangHeader g ++ pipes.map (fun p => (0x200 + 0x10 * p.1, p.2.record)) ++
    pipes.map (fun p => (0x1000 + 0x800 * p.1, packed 8 p.2.words)))
  roles.foldl (fun t r =>
    (t.putAt (roleSave base r.1) ((List.range 11).map (fun j =>
      match t.ctx? (16 * r.2 + j) with
      | some x => (0x800 * j, x.record)
      | none => (0x800 * j + 0x378, leBytes 8 (tgetD (t.core r.2).gens j 0))))).putAt (roleSave base r.1)
        [(0x8000, s.mem.local_.readBytes (Config.localBytes * r.2) Config.localBytes)]) s1

/-- A pipe as its descriptor binds it, with the saved entries; the tokens are gone (R388). -/
def State.loadPipe (s : State) (base j : Nat) (p : Pipe) : Pipe :=
  let st := leNat (s.mem.bytes (base + 0x200 + 0x10 * j) 8)
  let n := min 256 (st % 2 ^ 16)
  { p with pclosed := bitOf st 63, cclosed := bitOf st 62
           entries := (List.range n).map (fun i =>
             PipeEntry.value (BitVec.ofNat 64 (leNat (s.mem.bytes (base + 0x1000 + 0x800 * j + 8 * i) 8)))) }
/-- A role of a saved gang on its new core: contexts, which find in EVPEND the opening of a mortise meanwhile (R103), each at its PC as it was
(R14), generations and local memory. -/
def State.loadRole (s : State) (l : Launch) (base gang idx core role : Nat) : State :=
  let rb := roleSave base role
  let live := leNat (s.mem.bytes (base + 8 + 8 * role) 8)
  let rd (off n : Nat) : List Byte := s.mem.bytes (rb + off) n
  let s1 := ((List.range 11).filter (bitOf live)).foldl (fun t j =>
    let x := { Ctx.ofRecord l gang role (rd (0x800 * j) 0x800) with jumped := l.jumps.contains (placeCode idx role j) }
    t.setCtx (16 * core + j) (if l.opened.contains idx then x.event 10 else x)) s
  let s2 := s1.modCore core (fun k => { k with gens := tabulate 11 (fun j => leNat (rd (0x800 * j + 0x378) 8) % 2 ^ 16) })
  { s2 with mem := { s2.mem with local_ := s2.mem.local_.writeBytes (Config.localBytes * core) (rd 0x8000 Config.localBytes) } }
def State.loadBars (s : State) (base : Nat) : Tbl GBar :=
  tabulate 8 (fun b =>
    let r := leNat (s.mem.bytes (base + 0x88 + 16 * b) 8)
    ⟨leNat (s.mem.bytes (base + 0x80 + 16 * b) 8) % 2 ^ 32, r / 2 ^ 32 % 2 ^ 32, r % 2 ^ 32⟩)

/-- A gang is placed on a cluster, new or from its save record, whose read meets the errors of its bytes (R111, R269, R383). -/
def State.placeGang (s : State) (id : Nat) (l : Launch) (idx cl : Nat) : State :=
  let gid := s.weave.nextId
  let cores := (s.freeCores cl).take l.desc.entries.length
  let saved := if l.savedGangs.contains idx then l.save else none
  let base := gangSave (saved.getD 0) idx
  let pipes := match saved with
    | some _ => ((List.range l.desc.pipes.length).zip l.desc.pipes).map (fun p => s.loadPipe base p.1 p.2)
    | none => l.desc.pipes
  let g : Gang := ⟨id, idx, cl, cores, pipes, if saved.isSome then s.loadBars base else [], [], false⟩
  let s1 := (s.fresh.fuse cl l.fl1).setGang gid g
  let s2 := ((List.range cores.length).zip cores).foldl (fun t r =>
    let u := t.seatRole l gid r.2 r.1
    match saved with
    | some _ => u.loadRole l base gid idx r.2 r.1
    | none => u.setCtx (16 * r.2) (l.control gid r.1)) s1
  let s3 := s2.setLaunch id
    { l with state := .running, placed := l.placed ++ [idx], savedGangs := l.savedGangs.erase idx, opened := l.opened.erase idx
             jumps := l.jumps.filter (fun j => j / 128 != idx) }
  match saved with
  | none => s3
  | some _ => match s.eccLow base 0x160000 with
    | some a => s3.faultLaunch id ⟨cEcc, stackOf a, a, 0, 2, 0, 0⟩
    | none => s3.eccCorrect base 0x160000

/-! ### Dispatch (R126, R127) -/

def State.setDispatcher (s : State) (die : Nat) (d : Dispatcher) : State :=
  { s with weave := { s.weave with dispatchers := tset s.weave.dispatchers die d } }
def State.reserve (s : State) (die : Nat) (r : Option (Nat × Nat × Nat)) : State :=
  s.setDispatcher die { s.dispatcher die with reserved := r }
/-- A gang that has been placed, or whose launch is over, holds no reservation on either die. -/
def State.unreserve (s : State) (p : Nat × Nat × Nat → Bool) : State :=
  [0, 1].foldl (fun t d => match (t.dispatcher d).reserved with
    | some r => if p r then t.reserve d none else t
    | none => t) s
/-- The cluster of a die with the most free cores, the lowest on a tie. -/
def State.mostFree (s : State) (die : Nat) : Nat :=
  ((List.range 64).map (fun i => 64 * die + i)).foldl (fun b cl =>
    if (s.freeCores b).length < (s.freeCores cl).length then cl else b) (64 * die)
/-- Where a gang goes at this step, if anywhere: the lowest-numbered cluster on which it fits, its reserved cluster among them
(DESIGN CHOICE, log 73). -/
def State.spot (s : State) (die : Nat) (l : Launch) (c : Candidate) : Option Nat :=
  let other := match (s.dispatcher die).reserved with
    | some (a, g, cl) => if a = c.launch ∧ g = c.idx then none else some cl
    | none => none
  (if l.det then [l.home c.idx] else (List.range 64).map (fun i => 64 * die + i)).find? (fun cl =>
    some cl != other && s.fits l cl)
/-- One gang is considered; `first` tells whether it is the first of the step's order. -/
def State.consider (s : State) (die : Nat) (first : Bool) (c : Candidate) : State :=
  match tget s.weave.launches c.launch with
  | none => s
  | some l =>
    if l.placed.contains c.idx then s else match s.spot die l c with
    | some cl => (s.placeGang c.launch l c.idx cl).unreserve (fun r => r.1 == c.launch && r.2.1 == c.idx)
    | none =>
      if first && (s.dispatcher die).reserved.isNone then
        s.reserve die (some (c.launch, c.idx, if l.det then l.home c.idx else s.mostFree die))
      else s
def State.considerAll (s : State) (die : Nat) : Bool → List Candidate → State
  | _, [] => s
  | first, c :: cs => (s.consider die first c).considerAll die false cs

/-- Whether a gang has been placed since the step began. -/
def State.gone (s : State) (c : Candidate) : Bool :=
  match tget s.weave.launches c.launch with
  | some l => l.placed.contains c.idx
  | none => true
/-- A gang is considered by dies `ds` in turn until one places it: what they leave, the dies that have considered no gang yet, and who
placed it. -/
def State.offerTo (s : State) (c : Candidate) (unused : List Nat) : List Nat → State × List Nat × Option Nat
  | [] => (s, unused, none)
  | d :: ds =>
    let t := s.consider d (unused.contains d) c
    if t.gone c then (t, unused.erase d, some d) else t.offerTo c (unused.erase d) ds
/-- Both dispatchers at one step, down the one order of R127, of which each sees its own gangs. Where both could place a gang of a
record die 0 places it, and die 1 the gang after it (R126): `turn` holds the launches whose next gang is die 1's first. -/
def State.considerBoth (s : State) (l0 l1 : List Candidate) (unused turn : List Nat) : List Candidate → State
  | [] => s
  | c :: cs =>
    if s.gone c then s.considerBoth l0 l1 unused turn cs
    else
      let ds := (if turn.contains c.launch then [1, 0] else [0, 1]).filter (fun d => (if d = 0 then l0 else l1).contains c)
      let r := s.offerTo c unused ds
      let turn1 := match r.2.2 with
        | some d => if ds.length = 1 then turn else if d = 0 then c.launch :: turn else turn.filter (fun i => i != c.launch)
        | none => turn
      r.1.considerBoth l0 l1 r.2.1 turn1 cs

/-- A deferred gang holds no reservation (R128). -/
def State.dropDeferred (s : State) (die : Nat) : State :=
  match (s.dispatcher die).reserved with
  | some (a, _, _) => match tget s.weave.launches a with
    | some l => if s.deferred die l then s.reserve die none else s
    | none => s.reserve die none
  | none => s

/-- Whether a dispatch step of a die would change anything. -/
def State.dispatchable (s : State) (die : Nat) : Bool := !(s.candidates die).isEmpty
/-- DISPATCH_STEP (R126, R127). A step of die 0 at which die 1 has gangs to place too is a step of both. -/
def execDispatchStep (die : Nat) (s : State) : Host.Outcome State Fault Refusal :=
  if 1 < die then .fault .noSubject
  else if die = 0 ∧ s.dispatchable 1 then
    let t := (s.dropDeferred 0).dropDeferred 1
    let l0 := t.candidates 0
    let l1 := t.candidates 1
    .next (t.considerBoth l0 l1 [0, 1] [] ((l1.filter (fun c => !l0.contains c)).foldl (fun l c => insertCandidate c l) l0))
  else
    let t := s.dropDeferred die
    .next (t.considerAll die true (t.candidates die))

/-! ### Ends of a launch -/

/-- Requests that a launch has not finished: those started and not completed (R350). -/
def State.requestsOpen (s : State) (id : Nat) : Bool :=
  s.eng.reqs.any (fun r => r.2.launch == id && r.2.status.isNone && r.2.armed.isNone)
/-- Unfired armed requests of a launch complete with CANCELLED, and every request of it goes (R350). One with EV = 1 counts in ECTR as any
completion does, also after a fault (R347; DESIGN CHOICE, log 84). -/
def State.disarm (s : State) (id : Nat) : State :=
  let armed := keysWhere s.eng.reqs (fun _ r => r.launch == id && r.armed.isSome)
  let t := armed.foldl (fun u i => u.completeReq i 4) s
  { t with eng := { t.eng with reqs := t.eng.reqs.filter (fun r => r.2.launch != id) } }
/-- A launch ends: its record goes, or waits with the `n` entries due where the ring has no room for them (R412). -/
def State.leave (s : State) (id n : Nat) (l : Launch) : State :=
  if (s.queue l.queue).roomFor n then s.dropLaunch id l else s.setLaunch id { l with state := .spent, faults := [] }

/-- Whether a launch may complete: its end waits for room for the entry that reports it, and for that of a pre-emption that it outran
(R412). -/
def State.completes (s : State) (id : Nat) (l : Launch) : Bool :=
  l.ended.length == l.ngang && l.faults.isEmpty && !s.requestsOpen id &&
    (s.queue l.queue).roomFor (if l.state = .preempting then 2 else 1)
/-- WEAVE_LAUNCH_COMPLETE (R125, R350). -/
def execWeaveLaunchComplete (id : Nat) (s : State) : Host.Outcome State Fault Refusal :=
  match tget s.weave.launches id with
  | none => .fault .noSubject
  | some l =>
    if s.completes id l then
      let t := ((s.disarm id).dropLaunch id l).signal l.sctr (BitVec.ofNat 64 l.siginc)
      let u := if l.state = .preempting then t.complete l.queue stNoTarget (t.queue l.queue).head [] else t
      .next (u.complete l.queue stDone l.index [])
    else .fault .noSubject

/-- Each buffered store of an ended launch's core drains or is dropped, each whole (R369): a free value says which. `drain` is the fate
of the store to which the entry before belonged; one that has begun to drain drains on. -/
def State.settleStores (s : State) (core : Nat) (drain : Bool) : Nat → State
  | 0 => s
  | n + 1 =>
    match (s.core core).sb with
    | [] => s
    | e :: rest =>
      let d := if e.more then drain else Config.faultedStoreDrains s.ctl.free
      let t := (s.modCore core (fun k => { k with sb := rest })).drew
      (if d then t.performStore core e else t).settleStores core d n
/-- A gang ceases to exist with its contexts, pipes, barriers and copies (R369). -/
def State.killGang (s : State) (gid : Nat) (g : Gang) : State :=
  let s1 := g.cores.foldl (fun t k => (t.settleStores k true (t.core k).sb.length).modCore k Core.release) s
  let ctxs := s1.gangCtxs gid
  let s2 := { s1 with
    weave := { s1.weave with
      ctxs := s1.weave.ctxs.filter (fun (c : Nat × Ctx) => c.2.gang != gid)
      gangs := terase s1.weave.gangs gid }
    frame := { s1.frame with benches := s1.frame.benches.map (fun (b : Nat × Bench) =>
      (b.1, { b.2 with port := b.2.port.filter (fun i => !(ctxs.map PortAccess.ctx).contains i) })) } }
  s2.modCluster g.cluster (fun c => { c with bte := c.bte.filter (fun (e : Nat × BteCopy) => e.2.gang != gid) })
/-- Every gang of a launch is killed. -/
def State.killGangs (s : State) (id : Nat) : State :=
  (s.weave.gangs.filter (fun (g : Nat × Gang) => g.2.launch == id)).foldl (fun t g => t.killGang g.1 g.2) s
/-- A launch ends at once: by a launch-wide fault, or by a forced destroy, which also frees its Spline groups (R369, R374). -/
def State.killLaunch (s : State) (id : Nat) (l : Launch) (freeGroups : Bool) : State :=
  let t := (((s.killGangs id).disarm id).leave id (if l.state = .preempting then 2 else 1) l).unreserve (fun r => r.1 == id)
  let u := if l.state = .preempting then t.complete l.queue stNoTarget (t.queue l.queue).head [] else t
  if freeGroups then { u with eng := { u.eng with groups := u.eng.groups.filter (fun (g : Nat × Group) => g.2.launch != id) } }
  else u

/-- A weave launch ends by the faults that arose at this tick (R369 to R371). -/
def State.faultLaunchEnd (s : State) (id : Nat) (l : Launch) : State :=
  match reported l.faults with
  | none => s
  | some f =>
    let ecc (t : State) (g : FaultCause) : State := if g.code = cEcc then t.life (0x10C + g.info) 1 else t
    (((l.faults.foldl ecc s).killLaunch id l false).complete l.queue stFault l.index
      (f.record s.frame.fcnt.toNat 0 l.faults.length)).life (0x200 + f.code) 1

end Sys2Proof.Machine
end

