-- ==== Sys2Proof/Machine/Preempt.lean ====
section
/-! DEFINITION. Queue commands (R374, R413): pre-emption and resumption of weave gangs (R382, R383, R388) and of frame launches
(R378, R381, R400), and the destruction of a queue. -/

namespace Sys2Proof.Machine

/-! ### Stop tokens (R382) -/

/-- A wait that lets a role halt once its producers have. -/
def Wait.haltable : Wait → Bool
  | .pipe _ => true
  | .wfe _ => true
  | .join => true
  | .gwait => true
  | .event => true
  | .barrier => true
  | .fill => true
  | .watermark => true
  | _ => false
/-- Whether one of a role's groups would pop a token. -/
def Ctx.atToken (x : Ctx) : Bool := x.wait == some (.pipe true)
/-- Whether the contexts of a role go no further: at a group boundary of a role without producers, or at a token, or where all that
could feed it has halted and each of them waits. A replay pending in one of them does not hold up the others (R145, R382). -/
def State.haltsNow (s : State) (gid : Nat) (g : Gang) (role : Nat) : Bool :=
  let cs := (s.roleCtxs gid role).map s.ctx
  let producers := (g.pipes.filter (fun p => p.crole == role)).map (·.prole)
  g.stopping && !g.haltedRoles.contains role && decide (role < g.cores.length) && (if cs.all (·.halted) then cs.all (fun x => x.replay.isNone)
     else producers.isEmpty || cs.any Ctx.atToken ||
      (producers.all g.haltedRoles.contains && cs.all (fun x => (x.wait.map Wait.haltable).getD false)))

/-- A context halts: it leaves its wait without retiring its group, and a GBAR's arrival is taken back (DEDUCED, log 16). -/
def State.haltCtx (s : State) (c : Nat) : State :=
  let s2 := (s.withdrawAll c).modCtx c (fun y => { y with wait := none, since := none, arrived := [], granted := false, halted := true })
  { s2 with frame := { s2.frame with benches := s2.frame.benches.map (fun (b : Nat × Bench) =>
    (b.1, { b.2 with port := b.2.port.filter (fun i => i != PortAccess.ctx c) })) } }

/-- ROLE_HALT (R382): the role's contexts halt, and with the end of the last replay among them the role has halted and its tokens
are pushed. -/
def execRoleHalt (gang role : Nat) (s : State) : Host.Outcome State Fault Refusal :=
  match tget s.weave.gangs gang with
  | none => .fault .noSubject
  | some g =>
    if !s.haltsNow gang g role then .fault .noSubject
    else
      let g1 := { g with haltedRoles := g.haltedRoles ++ [role]
                         pipes := g.pipes.map (fun p => if p.prole = role then { p with entries := p.entries ++ [.token] } else p) }
      let cs := s.roleCtxs gang role
      let settled := cs.all (fun c => (s.ctx c).replay.isNone)
      .next (cs.foldl (fun t c => t.haltCtx c) (if settled then s.setGang gang g1 else s))

/-- Whether a gang may be saved: every role has halted, and its copies have completed (R382). -/
def State.savesNow (s : State) (gid : Nat) (g : Gang) : Bool :=
  g.stopping && (List.range g.cores.length).all g.haltedRoles.contains &&
    !(s.cluster g.cluster).bte.any (fun e => e.2.gang == gid)
/-- A launch whose gangs are all off the cores is pre-empted (R413). -/
def State.preempted (s : State) (id : Nat) : State :=
  match tget s.weave.launches id with
  | none => s
  | some l =>
    if l.state = .preempting ∧ !s.weave.gangs.any (fun g => g.2.launch == id) ∧ l.ended.length < l.ngang then
      (s.setLaunch id { l with state := .preempted }).complete l.queue stPreempted l.index []
    else s
/-- GANG_SAVE (R382, R383): stores first become visible; the cores and pipe entries return to the dispatcher. -/
def execGangSave (gang : Nat) (s : State) : Host.Outcome State Fault Refusal :=
  match tget s.weave.gangs gang with
  | none => .fault .noSubject
  | some g =>
    match tget s.weave.launches g.launch with
    | none => .fault .noSubject
    | some l =>
      if !s.savesNow gang g then .fault .noSubject
      else
        let t := g.cores.foldl (fun u k => u.drainAll k) s
        let u := t.saveGang (gangSave (l.save.getD 0) g.idx) g
        let v := g.cores.foldl (fun u k => u.modCore k Core.release) u
        let w := { v with weave := { v.weave with
          ctxs := v.weave.ctxs.filter (fun (c : Nat × Ctx) => c.2.gang != gang), gangs := terase v.weave.gangs gang } }
        .next ((w.setLaunch g.launch { l with placed := l.placed.filter (fun i => i != g.idx)
                                              savedGangs := l.savedGangs ++ [g.idx], jumps := l.jumps ++ s.jumpsOf g }).preempted g.launch)

/-! ### Commands (R413) -/

/-- A command that finds no record in the state it acts on. -/
def State.noTarget (s : State) (q : Nat) : State := s.complete q stNoTarget (s.queue q).head []

/-- PREEMPT of a weave queue's head record. -/
def State.preemptWeave (s : State) (q save : Nat) : State :=
  match (s.queue q).records.head? with
  | none => s.noTarget q
  | some id => match tget s.weave.launches id with
    | none => s.noTarget q
    | some l =>
      if l.state ≠ .ready ∧ l.state ≠ .running then s.noTarget q
      else
        let t := s.setLaunch id { l with state := .preempting, save := some save }
        ({ t with weave := { t.weave with gangs := t.weave.gangs.map (fun (g : Nat × Gang) =>
          (g.1, if g.2.launch = id then { g.2 with stopping := true } else g.2)) } }).preempted id

/-- PREEMPT of a frame queue's head record: the launch that runs or stands set up, or the ready record at the head. -/
def State.preemptFrame (s : State) (q save : Nat) : State :=
  let k := s.queue q
  let mine := (s.frame.launch.map (fun l => l.queue == q)).getD false
  if (s.frame.running || s.frame.pending) && mine then
    (if s.frame.pauseReq.isSome || s.frame.pauseAsked.isSome then s.noTarget q
     else if s.frameAligned then
       let t := s.modFrame (fun f => { f with pauseAsked := some (q, save) })
       if s.isLeader then (if s.frame.running then s.choosePause q save s.frame.fcnt.toNat else t)
       else if s.frame.running || s.segmentsReady then t.forwardPause
       else t
     else
       let p := if s.frame.running then s.frame.fcnt.toNat else 0
       s.modFrame (fun f => { f with pauseReq := some (q, save, p), pauseFrom := p }))
  else if s.frameReady q then
    (s.setQueue q { k with held := some save }).complete q stPreempted k.head []
  else s.noTarget q

/-- PREEMPT (R413). -/
def execPreempt (q save : Nat) (s : State) : Host.Outcome State Fault Refusal :=
  .next (if s.bootHold then s else if q < 128 then s.preemptWeave q save else s.preemptFrame q save)

/-- PREEMPT_FORWARD: a request of FCNT `p` reaches the leader, which keeps one that comes before its launch has started, or the leader's
choice reaches a member, which saves where its own host asked, if it did (R400; DEDUCED, log 49). -/
def execPreemptForward (p save : Nat) (chosen : Option Nat) (s : State) : Host.Outcome State Fault Refusal :=
  .next (if s.frame.running && s.frameAligned then
      (match s.frame.launch, chosen with
      | some l, some z => s.modFrame (fun f => { f with
          pauseReq := some (l.queue, (f.pauseAsked.map (·.2)).getD save, p), pauseFrom := z, pauseAsked := none })
      | some l, none => if s.frame.pauseReq.isSome || !s.isLeader then s else s.choosePause l.queue save p
      | none, _ => s)
    else if chosen.isNone && s.isLeader && ((s.frame.pending && s.frameAligned) || !s.host.ready.isEmpty) then
      { s with host := { s.host with asked := some save } }
    else s)

/-- RESUME of a weave queue's head record (R388). -/
def State.resumeWeave (s : State) (q save : Nat) : State :=
  match (s.queue q).records.head? with
  | none => s.noTarget q
  | some id => match tget s.weave.launches id with
    | none => s.noTarget q
    | some l =>
      if l.state ≠ .preempted then s.noTarget q
      else (s.setLaunch id { l with state := .running, save := some save }).complete q stResumed l.index []
/-- RESUME of a frame queue's head record; it waits while another launch has the plane (R381, R409). -/
def State.resumeHead (s : State) (q save : Nat) : State :=
  let k := s.queue q
  match tget s.host.parked q with
  | some p =>
    if s.frame.running || s.frame.pending || s.planeWaits then { s with host := { s.host with resuming := tset s.host.resuming q save } }
    else
      let t := { s with host := { s.host with resuming := terase s.host.resuming q } }
      (t.resumeFrame q save p).complete q stResumed ((p.launch.map (·.index)).getD 0) []
  | none =>
    if k.held.isSome then (s.setQueue q { k with held := none }).complete q stResumed k.head [] else s.noTarget q

/-- RESUME (R413); while one waits for the plane, another finds its record in another state (DEDUCED, log 49). -/
def execResume (q save : Nat) (s : State) : Host.Outcome State Fault Refusal :=
  .next (if s.bootHold then s else if q < 128 then s.resumeWeave q save
    else if (tget s.host.resuming q).isSome then s.noTarget q
    else s.resumeHead q save)

/-! ### Destruction (R374) -/

/-- Whether a queue has running work: a weave launch with gangs on the cores or on their way off, or the launch that has the
frame plane. A record that waits, is ready, or stands pre-empted does not run (DEDUCED, log 22). -/
def State.hasWork (s : State) (q : Nat) : Bool :=
  if q < 128 then (s.queue q).records.any (fun id => match tget s.weave.launches id with
    | some l => l.state == .running || l.state == .preempting
    | none => false)
  else (s.frame.running || s.frame.pending) && (s.frame.launch.map (fun l => l.queue == q)).getD false
/-- The queue is disabled; records that it holds unread go with it. -/
def State.disable (s : State) (q : Nat) : State :=
  s.modQueue q (fun k => { k with cfg := setFld k.cfg 63 1 0, head := k.tail, held := none })
/-- The frame launch is cancelled; a domain hears of it as of a fault (R400). -/
def State.cancelFrame (s : State) (l : FrameLaunch) : State :=
  let u := { s with host := { s.host with
    ready := s.host.ready.filter (fun m => m.1 != s.package), asked := none, startIn := if s.frame.pending then none else s.host.startIn } }
  let t := (u.endFrame stCancelled []).life (0x200 + cCancelled) 1
  if s.frame.running && l.align && s.aligned then t.send (.fault s.frame.fcnt.toNat) else t

/-- Every launch of a queue ends as cancelled (R374). -/
def State.cancelAll (s : State) (q : Nat) : State :=
  if q < 128 then
    (s.queue q).records.foldl (fun t id => match tget t.weave.launches id with
      | some l => if l.state = .spent then t else ((t.killLaunch id l true).complete q stCancelled l.index []).life (0x200 + cCancelled) 1
      | none => t) s
  else
    let k := s.queue q
    let t := match s.frame.launch with
      | some l => if (s.frame.running || s.frame.pending) && l.queue == q then
          s.cancelFrame l else s
      | none => s
    let u := match tget t.host.parked q with
      | some p =>
        let r := if (tget t.host.resuming q).isSome then t.noTarget q else t
        let v := { r with host := { r.host with parked := terase r.host.parked q, resuming := terase r.host.resuming q } }
        (v.complete q stCancelled ((p.launch.map (·.index)).getD 0) []).life (0x200 + cCancelled) 1
      | none => t
    if k.held.isSome then (u.complete q stCancelled k.head []).life (0x200 + cCancelled) 1 else u
/-- What a destroy does once it goes ahead: what the queue holds ends, the command has its entry, and the queue is disabled. -/
def State.destroy (s : State) (q : Nat) : State :=
  let t := s.cancelAll q
  (t.complete q stDone (t.queue q).head []).disable q
/-- DESTROY (R374, R413). -/
def execDestroy (q : Nat) (s : State) : Host.Outcome State Fault Refusal :=
  if s.bootHold then .next s
  else if s.hasWork q then .next (s.complete q stBusy (s.queue q).head []).busy
  else .next (s.destroy q)
/-- DESTROY_FORCE (R374, R413). -/
def execDestroyForce (q : Nat) (s : State) : Host.Outcome State Fault Refusal := .next (if s.bootHold then s else s.destroy q)

end Sys2Proof.Machine
end

