-- ==== Sys2Proof/Machine/Wakes.lean ====
section
/-! DEFINITION. Wakes of waiting contexts (R102, R117, R137, R141, R147, R148, R298, R302, R318, R337, R343, R347) and the drain of the store buffer (R286). A woken context runs its group again from its beginning (R120); where
what it waits for has not come about, it waits on. -/

namespace Sys2Proof.Machine

/-- A context that waits as `p` says goes on, as `a` says: it issues its group again, or its group, which has issued, tries to end. -/
def State.wake (s : State) (c : Nat) (p : Wait → Bool) (a : Nat → Act := .issue) : Host.Outcome State Fault Refusal :=
  match s.ctx? c with
  | none => .fault .noSubject
  | some x => match x.wait with
    | none => .fault .noSubject
    | some w =>
      if p w && !x.halted then .next ((s.setCtx c { x with wait := none }).push [a c]) else .fault .noSubject

def Wait.isWfe : Wait → Bool
  | .wfe _ => true
  | _ => false
def Wait.isPipe : Wait → Bool
  | .pipe _ => true
  | _ => false

/-- WFE_WAKE (R102). -/
def execWfeWake (c : Nat) (s : State) : Host.Outcome State Fault Refusal := s.wake c Wait.isWfe .finish
/-- Whether a WFE's bound has passed. -/
def State.boundPassed (s : State) (c : Nat) : Wait → Bool
  | .wfe bound => bound != 0 && decide (bound ≤ s.waited c)
  | _ => false
/-- WFE_TIMEOUT (R102). -/
def execWfeTimeout (c : Nat) (s : State) : Host.Outcome State Fault Refusal := s.wake c (s.boundPassed c) .finish
/-- Whether a yield is over: every other context that was ready has issued, or 11 cycles have passed (R147). -/
def State.yieldOver (s : State) (c : Nat) : Wait → Bool
  | .yield others => others.isEmpty || decide (11 ≤ s.waited c)
  | _ => false
/-- YIELD_RESUME (R147). -/
def execYieldResume (c : Nat) (s : State) : Host.Outcome State Fault Refusal :=
  match s.ctx? c with
  | none => .fault .noSubject
  | some x =>
    if (x.wait.map (s.yieldOver c)).getD false && !x.halted then .next (s.setCtx c { x with wait := none, since := none })
    else .fault .noSubject
/-- PIPE_STALL_RESUME (R117). -/
def execPipeStallResume (c : Nat) (s : State) : Host.Outcome State Fault Refusal := s.wake c Wait.isPipe
/-- HJOIN_WAKE (R137). -/
def execHjoinWake (c : Nat) (s : State) : Host.Outcome State Fault Refusal := s.wake c (· == .join) .finish
/-- GWAIT_WAKE (R141). -/
def execGwaitWake (c : Nat) (s : State) : Host.Outcome State Fault Refusal := s.wake c (· == .gwait) .finish
/-- WAITEV_WAKE (R148). -/
def execWaitevWake (c : Nat) (s : State) : Host.Outcome State Fault Refusal := s.wake c (· == .event) .finish
/-- BAR_WAIT_WAKE (R337). -/
def execBarWaitWake (c : Nat) (s : State) : Host.Outcome State Fault Refusal := s.wake c (· == .barrier)
/-- LDS_FILL_WAKE (R298); a group that waits on its own partly covered store is retried with it (R29). -/
def execLdsFillWake (c : Nat) (s : State) : Host.Outcome State Fault Refusal := s.wake c (fun w => w == .fill || w == .drain)
/-- WATERMARK_STALL_RESUME: the access that tries again is an acquire of the advance it waited for (R291, R318). -/
def execWatermarkStallResume (c : Nat) (s : State) : Host.Outcome State Fault Refusal :=
  (s.acquire (coreOf c)).wake c (· == .watermark)
/-- ENGINE_SLOT_FREE (R302). -/
def execEngineSlotFree (c : Nat) (s : State) : Host.Outcome State Fault Refusal := s.wake c (· == .engine)
/-- SPL_PENDING_WAKE (R342, R343). -/
def execSplPendingWake (c : Nat) (s : State) : Host.Outcome State Fault Refusal := s.wake c (· == .spline)
/-- RMA_WAIT_WAKE (R347). -/
def execRmaWaitWake (c : Nat) (s : State) : Host.Outcome State Fault Refusal := s.wake c (· == .ticket)

/-- STORE_BUFFER_DRAIN (R286). -/
def execStoreBufferDrain (core : Nat) (s : State) : Host.Outcome State Fault Refusal :=
  if (s.core core).sb.isEmpty then .fault .noSubject else .next (s.drainOne core)

/-- REPLAY_EXECUTION: the replay unit runs the next group of a pending block (R144). -/
def execReplayExecution (c : Nat) (s : State) : Host.Outcome State Fault Refusal :=
  match (s.ctx? c).bind (·.replay) with
  | none => .fault .noSubject
  | some _ => .next (s.push [.replay c])

end Sys2Proof.Machine
end

