-- ==== Sys2Proof/Machine/BlockTransfer.lean ====
section
/-! DEFINITION. The block-transfer engine of a cluster (R302, R305 to R309, R311, R313, R316, R318, R335): a copy's parts, its
faults, and its completion. -/

namespace Sys2Proof.Machine

/-- Where one side of an element lies: physical memory with the page's NC bit, or local memory. -/
inductive Spot where
  | mem (pa : Nat) (nc : Bool)
  | loc (i : Nat)
  deriving DecidableEq, Repr

/-- Bytes at a spot, as their home holds them; device registers are read whole. -/
def State.readSpot (s : State) (p : Spot) (n : Nat) : List Byte :=
  match p with
  | .loc i => s.mem.local_.readBytes i n
  | .mem pa _ => match regionOf pa with
    | .device off => leBytes n (s.devRead off n)
    | _ => s.mem.bytes pa n
/-- An engine's write at a spot (R293). -/
def State.writeSpot (s : State) (p : Spot) (bs : List Byte) : State :=
  match p with
  | .loc i => { s with mem := { s.mem with local_ := s.mem.local_.writeBytes i bs } }
  | .mem pa nc => match regionOf pa with
    | .device off => s.deviceStore off bs.length (leNat bs)
    | _ => { s with mem := s.mem.enginePut (!nc) pa bs }

/-- A copy's translations as its record holds them. -/
def State.bteLeaves (s : State) (cl id : Nat) : List Leaf := ((tget (s.cluster cl).bte id).map (·.leaves)).getD []
/-- The engine's translation for a copy: the one that the copy's part in that page uses already (R281), else the cluster's TLB, or a
walk (R278). -/
def State.engineLeaf (s : State) (cl id asid va : Nat) : Option Leaf :=
  if !canonical va then none
  else match tlbFind ((s.bteLeaves cl id).map (fun l => ⟨asid, l⟩)) asid (va % 2 ^ 57) with
    | some l => some l
    | none => match tlbFind (s.cluster cl).tlb asid (va % 2 ^ 57) with
      | some l => some l
      | none => s.walk asid (va % 2 ^ 57)
/-- The uncorrectable error that the engine's walk meets (R269). -/
def State.engineBad (s : State) (cl id asid va : Nat) : Option Nat :=
  let v := va % 2 ^ 57
  if !canonical va || (tlbFind ((s.bteLeaves cl id).map (fun l => ⟨asid, l⟩)) asid v).isSome || (tlbFind (s.cluster cl).tlb asid v).isSome then
    none
  else s.walkError asid v
/-- The copy keeps the translation it takes, and the cluster's TLB what a walk found. -/
def State.engineFill (s : State) (cl id asid va : Nat) (l : Leaf) : State :=
  if (s.bteLeaves cl id).contains l then s
  else (if (tlbFind (s.cluster cl).tlb asid (va % 2 ^ 57)).isSome then s else s.walkMeet asid (va % 2 ^ 57)).modCluster cl (fun c =>
    { c with tlb := if (tlbFind c.tlb asid (va % 2 ^ 57)).isSome then c.tlb else tlbAdd Config.clusterTlb c.tlb ⟨asid, l⟩
             bte := match tget c.bte id with
               | some q => tset c.bte id { q with leaves := q.leaves ++ [l] }
               | none => c.bte })

/-- The tensor side of element `i` (rows 6 to 8). -/
def State.bteElem (s : State) (cl id : Nat) (q : BteCopy) (c : Cut) (i : Nat) : Run CopyElem :=
  let a2 := c.ta2 c.base i
  let va := a2 / 2
  match s.engineBad cl id q.asid va, s.engineLeaf cl id q.asid va with
  | some at_, _ => .error (.elem cEcc at_ (stackOf at_) i)
  | none, none => .error (.elem cTranslation va 0 i)
  | none, some l =>
    let use : Use := if c.dir = 0 then .read else if c.red ≠ 0 ∨ c.scaled l then .both else .write
    let pa := l.phys va
    if !l.allows use q.user then .error (.elem cTranslation va 0 i)
    else if isSram pa then .error (.elem cShape va 7 i)
    else if c.pageBad l then .error (.elem cShapeFormat va 8 i)
    else if c.red ≠ 0 ∧ c.dir = 1 ∧ !atomicTarget pa (redOp c.red) then .error (.elem cAtomic va 0 i)
    else .ok ⟨i, va, pa, a2 % 2, l⟩

/-- In-bounds elements of the run that holds element `i`. -/
def Cut.runOf (c : Cut) (i : Nat) : List Nat :=
  let b0 := (c.dims.head?.map (·.box)).getD 1
  ((List.range b0).map (fun j => i / b0 * b0 + j)).filter c.inBounds
/-- The same with the rule of R308, tested where its run begins. -/
def State.bteChecked (s : State) (cl id : Nat) (q : BteCopy) (c : Cut) (i : Nat) : Run CopyElem := do
  let e ← s.bteElem cl id q c i
  if c.mode = 0 ∨ i ≠ c.runStart i ∨ runKept c ((c.runOf i).filterMap (fun j => (s.bteElem cl id q c j).toOption)) e then pure e
  else .error (.elem cShapeAlign e.va 8 i)

/-- The dense side of element `i`: a virtual address, which is no tensor SRAM, or local memory (R132), in which no reduction can be
performed (R297, R309). -/
def State.bteDense (s : State) (cl id : Nat) (q : BteCopy) (c : Cut) (i : Nat) : Run (Spot × State) :=
  let da := c.da i
  if c.dsp = 2 then
    (if c.red ≠ 0 ∧ c.dir = 0 then .error (.elem cAtomic da 0 i)
     else .ok (.loc (localIndex cl c.lmode (coreOf q.ctx % 8) da), s))
  else match s.engineBad cl id q.asid da, s.engineLeaf cl id q.asid da with
    | some at_, _ => .error (.elem cEcc at_ (stackOf at_) i)
    | none, none => .error (.elem cTranslation da 0 i)
    | none, some l =>
      let use : Use := if c.dir = 1 then .read else if c.red ≠ 0 then .both else .write
      let pa := l.phys da
      if !l.allows use q.user then .error (.elem cTranslation da 0 i)
      else if isSram pa then .error (.elem cShape da 7 i)
      else if c.red ≠ 0 ∧ c.dir = 0 ∧ !atomicTarget pa (redOp c.red) then .error (.elem cAtomic da 0 i)
      else .ok (.mem pa l.nc, s.engineFill cl id q.asid da l)

/-- A value goes into a spot, in the place of half a byte for I4. -/
def State.putSpot (s : State) (p : Spot) (half odd v : Nat) : State :=
  s.writeSpot p (putCode half odd v (s.readSpot p (spanOf half)))

/-- A read at a spot meets its errors: an uncorrectable one is the element's fault, a correctable one is corrected and counted
(R269, R385). -/
def State.eccSpot (s : State) (p : Spot) (n i : Nat) : Run State :=
  match p with
  | .mem pa _ => if s.eccBad pa n then .error (.elem cEcc pa (stackOf pa) i) else .ok (s.eccCorrect pa n)
  | .loc _ => .ok s

/-- One element of a copy: the state after it, with its flags. -/
def State.bteStep (s : State) (cl id : Nat) (q : BteCopy) (c : Cut) (i : Nat) : Run (State × Nat) :=
  if !c.inBounds i then
    (if c.dir = 1 ∨ c.red ≠ 0 then .ok (s, 0)
     else do
       let (d, t) ← s.bteDense cl id q c i
       pure (t.putSpot d c.dHalf (c.da2 i % 2) c.fillValue, 0))
  else do
    let e ← s.bteChecked cl id q c i
    let s1 := s.engineFill cl id q.asid (c.ta c.base i) e.leaf
    let (d, t) ← s1.bteDense cl id q c i
    let tp := Spot.mem e.pa e.leaf.nc
    let sp := Spot.mem (scalePa e.leaf e.pa) e.leaf.nc
    let t ← if c.scaled e.leaf then t.eccSpot sp 1 i else pure t
    let scale := if c.scaled e.leaf then leNat (t.readSpot sp 1) else 127
    let t ← t.eccSpot (if c.dir = 0 then tp else d) (spanOf (if c.dir = 0 then c.tHalf else c.dHalf)) i
    let t ← if c.red ≠ 0 then t.eccSpot (if c.dir = 0 then d else tp) 4 i else pure t
    if c.dir = 0 then
      let code := codeOf c.tHalf e.odd (t.readSpot tp (spanOf c.tHalf))
      if c.red = 0 then
        let v := c.loadValue t e.leaf code scale
        pure (t.putSpot d c.dHalf (c.da2 i % 2) v.1, v.2)
      else
        let r := redStep c.red (leNat (t.readSpot d 4)) (redSource c.red code)
        pure (t.writeSpot d (leBytes 4 r.1), r.2)
    else
      let code := codeOf c.dHalf (c.da2 i % 2) (t.readSpot d (spanOf c.dHalf))
      if c.red = 0 then
        let v := c.storeValue t e.leaf code scale (drawOf q.seed q.draw i)
        pure (t.putSpot tp c.tHalf e.odd v.1, v.2)
      else
        let r := redStep c.red (leNat (t.readSpot tp 4)) (redSource c.red code)
        pure (t.writeSpot tp (leBytes 4 r.1), r.2)

/-- The element that a copy performs `p`-th: a linear one in ascending address order (R318). -/
def BteCopy.elemAt (q : BteCopy) (p : Nat) : Nat := if q.linear.isSome then q.clr.cut.linAt p else p
/-- The place, in that order, of the first element that shares a word with the `p`-th: each word is written whole (R313). -/
def BteCopy.firstAt (q : BteCopy) (c : Cut) (p : Nat) : Nat :=
  if c.narrow then ((List.range p).find? (fun r => c.wordOf (q.elemAt r) == c.wordOf (q.elemAt p))).getD p else p
/-- The elements performed with the places from `a` up to `z`: those of each word with its first. -/
def BteCopy.elemsOf (q : BteCopy) (c : Cut) (a z : Nat) : List Nat :=
  (((List.range (if c.narrow then c.count - a else z - a)).map (· + a)).filter (fun p =>
    decide (a ≤ q.firstAt c p) && decide (q.firstAt c p < z))).map q.elemAt
/-- Of the elements `l` that a copy has still to perform, some of which fault, the fault of the lowest logical index (R57). -/
def State.bteLowest (s : State) (cl id : Nat) (q : BteCopy) (c : Cut) (l : List Nat) (e : Stop) : Stop :=
  if q.linear.isSome || c.narrow then
    (((List.range c.count).filter l.contains).findSome? (fun j => match s.bteStep cl id q c j with
      | .error e => some e
      | .ok _ => none)).getD e
  else e
/-- The elements `l` are performed, until one faults, with `later` ones still to come: the state after those performed, the flags, and
the fault. -/
def State.bteRun (s : State) (cl id : Nat) (q : BteCopy) (c : Cut) (later : List Nat) : List Nat → Nat → State × Nat × Option Stop
  | [], fl => (s, fl, none)
  | i :: l, fl =>
    match s.bteStep cl id q c i with
    | .ok (t, f) => t.bteRun cl id q c later l (fl ||| f)
    | .error e => (s, fl, some (s.bteLowest cl id q c (i :: l ++ later) e))

/-- Elements whose counted bytes make up one part of at most 4 KiB (R316). -/
def Cut.partSize (c : Cut) : Nat := 8192 / c.wHalf
/-- Counted bytes of `n` elements. -/
def Cut.countedOf (c : Cut) (n : Nat) : Nat := n * c.wHalf / 2
/-- The bytes of the parts from element `a` on all of whose elements are written once `done` are performed, in ascending logical index
(R316). -/
def BteCopy.partsDone (q : BteCopy) (c : Cut) (done : Nat) : Nat → Nat → List Nat
  | 0, _ => []
  | n + 1, a =>
    let k := min c.partSize (c.count - a)
    let all := if q.linear.isNone ∨ c.skew = 0 then decide (a + k ≤ done)
      else (List.range k).all (fun j => ((List.range done).map q.elemAt).contains (a + j))
    if k = 0 ∨ !all then [] else c.countedOf k :: q.partsDone c done n (a + k)
/-- The parts that a copy subtracts once `done` of its elements are performed. -/
def BteCopy.subtracts (q : BteCopy) (c : Cut) (done : Nat) : List Nat :=
  q.partsDone c done (c.count / c.partSize + 1) (2 * q.counted / c.wHalf)

def State.setBte (s : State) (cl id : Nat) (q : BteCopy) : State :=
  s.modCluster cl (fun c => { c with bte := tset c.bte id q })
def State.dropBte (s : State) (cl id : Nat) : State := s.modCluster cl (fun c => { c with bte := terase c.bte id })

/-- What follows the `n` elements after those done: the barrier's subtractions and the watermark's advance. -/
def State.bteNotice (s : State) (cl : Nat) (q : BteCopy) (c : Cut) (n : Nat) : State :=
  let s1 := if c.bv then s.setLocalBar cl c.bar ((q.subtracts c (q.done + n)).foldl BarObj.land (s.localBar cl c.bar)) else s
  match q.linear with
  | some (k, ep) => s1.modCluster cl (fun r =>
      { r with wm := tmod r.wm k Watermark.zero (fun w => (c.written q.done n (q.elemsOf c q.done (q.done + n))).foldl (fun v r => v.advance ep r.1 r.2) w) })
  | none => s1

/-- BTE_COPY_PART: the next elements are performed, as many as a part counts (R316); a fault ends its launch and discards the copy
(R311). -/
def execBteCopyPart (cl id : Nat) (s : State) : Host.Outcome State Fault Refusal :=
  match tget (s.cluster cl).bte id with
  | none => .fault .noSubject
  | some q =>
    let c := q.clr.cut
    let n := min c.partSize (c.count - q.done)
    if n = 0 then .fault .noSubject
    else
      let r := s.bteRun cl id q c (q.elemsOf c (q.done + n) c.count) (q.elemsOf c q.done (q.done + n)) 0
      match r.2.2 with
      | some (.elem code faddr info i) =>
        .next ((r.1.dropBte cl id).faultLaunch q.launch ⟨code, info, faddr, q.epc, 0, q.ctx, firstErr i⟩)
      | some _ => .next (r.1.dropBte cl id)
      | none =>
        .next ((r.1.setBte cl id { q with done := q.done + n, flags := q.flags ||| BitVec.ofNat 64 r.2.1
                                          counted := q.counted + (q.subtracts c (q.done + n)).sum
                                          leaves := r.1.bteLeaves cl id }).bteNotice cl q c n)

/-- Whether the context that issued a copy still exists. -/
def State.issuer (s : State) (q : BteCopy) : Bool :=
  match s.ctx? q.ctx with
  | some x => x.gang == q.gang && x.gen == q.gen
  | none => false

/-- BTE_COPY_COMPLETE (R306, R335). -/
def execBteCopyComplete (cl id : Nat) (s : State) : Host.Outcome State Fault Refusal :=
  match tget (s.cluster cl).bte id with
  | none => .fault .noSubject
  | some q =>
    if q.done < q.clr.cut.count then .fault .noSubject
    else
      let t := s.dropBte cl id
      .next (if s.issuer q then t.modCtx q.ctx (fun x => (x.orFlags q.flags.toNat).xfr) else t)

end Sys2Proof.Machine
end

