-- ==== Sys2Proof/Machine/Fabric.lean ====
section
/-! DEFINITION. The fabric's events: remote access (R347 to R350, R404), Spline switches and groups (R343, R344, R402), shoot-down
and eviction (R261, R278 to R280). What leaves the package stands in the outbox; what arrives is the operand of an event. -/

namespace Sys2Proof.Machine

/-! ### Remote access -/

/-- The context that a request belongs to, 0 where it is off the cores. -/
def State.reqCtx (s : State) (r : RmaReq) : Nat :=
  ((s.weave.ctxs.find? (fun e => s.ownsReq e.1 r)).map (·.1)).getD 0
/-- An engine's translation or mortise failure at a request is launch-wide (R348). -/
def State.rmaFault (s : State) (r : RmaReq) : Stop → State
  | .cause code faddr info => s.faultLaunch r.launch ⟨code, info, faddr, r.epc, 0, s.reqCtx r, 0⟩
  | .wide code faddr info => s.faultLaunch r.launch ⟨code, info, faddr, r.epc, 0, s.reqCtx r, 0⟩
  | .elem code faddr info _ => s.faultLaunch r.launch ⟨code, info, faddr, r.epc, 0, s.reqCtx r, 0⟩
  | .wait _ => s
/-- Checked parts of a range that an endpoint writes or reads (R106, R257). -/
def State.reach (s : State) (asid : Nat) (user : Bool) (use : Use) (va n : Nat) : Run (List Part) := do
  let ps ← s.span asid user use va n
  s.spanReach asid va ps
  pure ps
def bytesOf (data : List Nat) : List Byte := data.map (BitVec.ofNat 8)

/-- Data arrive for a request and are placed at its LADDR; then it completes. -/
def State.placeReq (s : State) (id : Nat) (r : RmaReq) (data : List Nat) (status : Nat) : State :=
  match s.reach r.asid r.user .write r.laddr data.length with
  | .ok ps => ((s.spanWalks r.asid r.laddr ps).spanPut ps (bytesOf data)).completeReq id status
  | .error e => s.rmaFault r e

/-- A packet that meets no cached context is turned away with retry-later, and the context is fetched (R404). -/
def State.turnAway (s : State) (conn : Nat) : State :=
  (match tget s.eng.conns conn with
    | some k => s.fetchConn conn k
    | none => s).send (.retryLater conn)
/-- A request that a SEND starts goes as though issued at that moment: PUT, AMO and SEND wait for the earlier stores of its context,
which become visible (R348, R349). -/
def State.fireReq (s : State) (id : Nat) (r : RmaReq) : Run State :=
  let core := (s.weave.gangs.find? (fun g => g.2.launch == r.launch && g.2.idx == r.gidx)).bind (fun g => g.2.cores[r.role]?)
  (match core with
    | some k => if r.op = 1 then s else s.drainAll k
    | none => s).startReq id
/-- Whether the endpoint has a connection's context at hand (R404). -/
def State.connCached (s : State) (conn : Nat) : Bool := ((tget s.eng.conns conn).map (·.cached)).getD false
/-- Requests of one context on one connection, issued before `id`, that a FLUSH waits for. -/
def State.flushWaits (s : State) (id : Nat) (r : RmaReq) : Bool :=
  s.eng.reqs.any (fun e => decide (e.1 < id) && e.2.conn == r.conn && (e.2.op == 0 || e.2.op == 3) && e.2.launch == r.launch &&
    e.2.gidx == r.gidx && e.2.role == r.role && e.2.slot == r.slot && e.2.gen == r.gen && e.2.armed.isNone && e.2.status.isNone)

/-- RMA_COMPLETION (R347, R348): data that left, an answer, or the word that earlier requests are placed. An answer that
meets no cached context is turned away (R404). -/
def execRmaCompletion (id status : Nat) (data : List Nat) (s : State) : Host.Outcome State Fault Refusal :=
  match tget s.eng.reqs id with
  | none => .fault .noSubject
  | some r =>
    if r.status.isSome ∨ r.armed.isSome ∨ r.op = 4 then .fault .noSubject
    else if (r.op = 1 ∨ r.op = 2 ∨ r.op = 5) ∧ !s.connCached r.conn then .next (s.turnAway r.conn)
    else
      let t := s.useConn r.conn
      if status ≠ 0 then .next (t.completeReq id status)
      else if r.op = 1 ∨ r.op = 2 then
        (if data.length = r.len then .next (t.placeReq id r data 0) else .fault .noSubject)
      else if r.op = 5 ∧ s.flushWaits id r then .fault .noSubject
      else .next (t.completeReq id 0)

/-- A remote AMO at its target (R297, R348): the old value, or a failure. -/
def State.remoteAmo (s : State) (asid : Nat) (rq : RemoteRequest) : Run (W64 × State) := do
  need (rq.addr % 8 == 0) cAtomic rq.addr 0
  let ps ← s.reach asid true .both rq.addr 8
  need (ps.all (fun p => atomicTarget p.pa rq.aop)) cAtomic rq.addr 0
  s.spanGood ps
  let s := s.spanMeet asid rq.addr ps
  let old := BitVec.ofNat 64 (leNat (s.spanRead ps))
  match atomicNew rq.aop old (BitVec.ofNat 64 rq.opnd1) (BitVec.ofNat 64 rq.opnd2), ps with
  | some v, p :: _ => pure (old, { s with mem := s.mem.putBytes (!p.leaf.nc) p.pa (leBytes 8 v.toNat) })
  | _, _ => pure (old, s)

/-- A remote AMO is performed and answered. -/
def State.answerAmo (s : State) (asid : Nat) (rq : RemoteRequest) : State :=
  match s.remoteAmo asid rq with
  | .ok r => r.2.send (.answer rq.conn 0 ((leBytes 8 r.1.toNat).map (·.toNat)))
  | .error _ => s.send (.answer rq.conn 1 [])
/-- The bench whose weave port performs a remote AMO, if one does (R297). -/
def State.amoBench (s : State) (asid : Nat) (rq : RemoteRequest) : Option Nat :=
  if rq.addr % 8 ≠ 0 then none
  else match s.span asid true .both rq.addr 8 with
    | .ok (p :: _) => (match regionOf p.pa with
      | .sram b _ => some b
      | _ => none)
    | _ => none
/-- WEAVE_PORT_ACCESS: the port performs the access that arrived first (R260, R297). -/
def execWeavePortAccess (b : Nat) (s : State) : Host.Outcome State Fault Refusal :=
  match (s.bench b).port with
  | [] => .fault .noSubject
  | a :: rest =>
    let t := s.modBench b (fun k => { k with port := rest })
    match a with
    | .amo asid rq => .next (t.answerAmo asid rq)
    | .ctx c => match t.ctx? c with
      | none => .next t
      | some x =>
        .next (if x.wait = some (.port b) then (t.setCtx c { x with wait := none, granted := true }).push [.finish c] else t)

/-- RMA_INCOMING_REQUEST: a PUT, GET or AMO of another package (R293, R348). It reaches pages with U (DEDUCED, log 39); one that meets an
uncorrectable error fails, there being no launch here to end (DESIGN CHOICE, log 25). -/
def execRmaIncomingRequest (rq : RemoteRequest) (s : State) : Host.Outcome State Fault Refusal :=
  match tget s.eng.conns rq.conn with
  | none => .fault .noSubject
  | some k =>
    if !k.cached then .next (s.turnAway rq.conn)
    else
      let t := s.useConn rq.conn
      let fail := t.send (.answer rq.conn 1 [])
      match rq.op with
      | 0 => match t.reach k.asid true .write rq.addr rq.data.length with
        | .ok ps => .next (((t.spanWalks k.asid rq.addr ps).spanPut ps (bytesOf rq.data)).send (.answer rq.conn 0 []))
        | .error _ => .next fail
      | 1 => match t.reach k.asid true .read rq.addr rq.len with
        | .ok ps => match t.spanGood ps with
          | .ok _ => .next ((t.spanMeet k.asid rq.addr ps).send (.answer rq.conn 0 ((t.spanRead ps).map (·.toNat))))
          | .error _ => .next fail
        | .error _ => .next fail
      | 2 => .next (match t.amoBench k.asid rq with
        | some b => t.modBench b (fun n => { n with port := n.port ++ [.amo k.asid rq] })
        | none => t.answerAmo k.asid rq)
      | _ => .fault .noSubject

/-- RMA_SEND_MATCH: a SEND arrives; the oldest armed request with its tag takes it (R349). -/
def execRmaSendMatch (conn tag : Nat) (data : List Nat) (s : State) : Host.Outcome State Fault Refusal :=
  match tget s.eng.conns conn with
  | none => .fault .noSubject
  | some k =>
    if !k.cached then .next (s.turnAway conn)
    else
      let t := s.useConn conn
      match t.eng.reqs.find? (fun e => e.2.conn == conn && e.2.armed == some tag) with
      | none => .next (t.send (.sendAnswer conn tag false))
      | some (id, r) =>
        let u := t.send (.sendAnswer conn tag true)
        if r.op = 4 then
          .next (u.placeReq id r (data.take r.len) (if r.len < data.length then 3 else 0))
        else match u.fireReq id r with
          | .ok v => .next v
          | .error e => .next (u.rmaFault r e)

/-- Retry budget of a connection (R418). -/
def Conn.retry (k : Conn) : Nat := leNat ((k.desc.drop 0x18).take 4)
/-- RMA_SEND_RETRY: a SEND of this package was turned away (R349). -/
def execRmaSendRetry (id : Nat) (s : State) : Host.Outcome State Fault Refusal :=
  match tget s.eng.reqs id with
  | none => .fault .noSubject
  | some r =>
    if r.op ≠ 3 ∨ r.status.isSome ∨ r.armed.isSome then .fault .noSubject
    else if ((tget s.eng.conns r.conn).map Conn.retry).getD 0 ≤ r.retries then .next (s.completeReq id 2)
    else
      let t := s.setReq id { r with retries := r.retries + 1 }
      match t.startReq id with
      | .ok v => .next v
      | .error e => .next (t.rmaFault r e)

/-! ### Connection contexts (R404, R418) -/

def State.setConn (s : State) (conn : Nat) (k : Conn) : State :=
  { s with eng := { s.eng with conns := tset s.eng.conns conn k } }
/-- Every ticket pending on a connection completes with LINK, and the connection ends. -/
def State.endConn (s : State) (conn : Nat) : State :=
  let t := (keysWhere s.eng.reqs (fun _ r => r.conn == conn && r.status.isNone)).foldl (fun u i => u.completeReq i 5) s
  { t with eng := { t.eng with conns := terase t.eng.conns conn } }

/-- Where a context spills: HOST places the area in host memory or in HBM, and BASE within it (R418; where BASE names the other of the
two, DESIGN CHOICE, log 77). -/
def State.spillAddr (s : State) (conn : Nat) : Nat :=
  let w := s.host.ccspill.toNat
  (if bitOf w 63 then 0xF000000000000 else 0) + fld w 12 36 * 4096 + 256 * conn
/-- The least recently used of the cached contexts. -/
def oldestConn (cs : Tbl Conn) : Option (Nat × Conn) :=
  cs.foldl (fun a e =>
    if !e.2.cached then a
    else match a with
      | none => some e
      | some b => if e.2.used < b.2.used then some e else some b) none
/-- Room for one more context: the least recently used goes to the spill area, with its transport state. -/
def State.makeRoom (s : State) : State :=
  if s.eng.conns.countP (fun e => e.2.cached) < Config.connectionCache then s
  else match oldestConn s.eng.conns with
    | none => s
    | some (c, k) =>
      let image := k.desc.take 0x80 ++ (List.range 0x80).map (Config.transportState s.ctl.free)
      let t := s.drew.setConn c { k with cached := false }
      { t with mem := t.mem.putBytes true (t.spillAddr c) image }

/-- CONNECTION_CONTEXT_FETCH (R404). A fetch from HBM has correctable errors corrected and counted, and fails on an uncorrectable one
(R269; DESIGN CHOICE, log 25). -/
def execConnectionContextFetch (conn : Nat) (ok : Bool) (s : State) : Host.Outcome State Fault Refusal :=
  match tget s.eng.conns conn with
  | none => .fault .noSubject
  | some k =>
    if k.cached then .fault .noSubject
    else if !ok then .next (s.endConn conn)
    else if s.eccBad (s.spillAddr conn) 256 then
      .next ((s.endConn conn).life (0x10C + stackOf (s.spillAddr conn)) 1)
    else
      let t := (s.eccCorrect (s.spillAddr conn) 256).makeRoom
      .next ((t.setConn conn { k with cached := true, fetchAt := none, desc := t.mem.bytes (t.spillAddr conn) 256 }).useConn conn)

/-- LINK: the connection fails (R347). -/
def execLink (conn : Nat) (s : State) : Host.Outcome State Fault Refusal :=
  if (tget s.eng.conns conn).isSome then .next (s.endConn conn) else .fault .noSubject

/-- RES of CCSTAT for the end of a command. -/
def State.ccResult (s : State) (res : Nat) : State :=
  { s with host := { s.host with ccstat := BitVec.ofNat 64 res } }
/-- Whether a descriptor is well formed (R418). -/
def descLegal (bs : List Byte) : Bool :=
  let w := leNat ((bs.drop 0x18).take 8)
  let mtu := fld w 32 16
  fld w 48 8 != 0 && decide (1024 ≤ mtu) && decide (mtu ≤ 9216) && (bs.drop 0x20).all (· == 0)
/-- A connection opens with the staged descriptor, its transport state zero. Of several conditions RES names 5 before 1 before 4 (R418;
DESIGN CHOICE, log 81). -/
def State.openConn (s : State) (asid conn : Nat) (desc : List Byte) : State :=
  if s.host.ccspill = 0 then s.ccResult 5
  else if (tget s.eng.conns conn).isSome then s.ccResult 1
  else if !descLegal desc then s.ccResult 4
  else (s.makeRoom.setConn conn ⟨asid, desc, true, 0, none⟩).useConn conn |>.ccResult 0
/-- A connection closes. -/
def State.closeConn (s : State) (asid conn : Nat) : State :=
  match tget s.eng.conns conn with
  | none => s.ccResult 2
  | some k => if k.asid = asid then (s.endConn conn).ccResult 0 else s.ccResult 3
/-- A command begins: BUSY is 1 until it ends, and a command that finds it so is ignored (R418). RES keeps its value meanwhile
(DESIGN CHOICE, log 77). -/
def State.ccBegin (s : State) (opens : Bool) (asid conn : Nat) : State :=
  if s.bootHold || s.host.ccCmd.isSome then s
  else { s with host := { s.host with
    ccstat := setFld s.host.ccstat 63 1 1
    ccCmd := some ⟨opens, asid, conn, s.host.ccdesc.readBytes 0 256, s.ctl.now + Config.connectionDelay s.ctl.now conn⟩ } }
/-- The command in progress ends, once its time has passed. -/
def State.ccFinish (s : State) : State :=
  match s.host.ccCmd with
  | none => s
  | some c =>
    if s.ctl.now < c.due then s
    else
      let t := { s with host := { s.host with ccCmd := none } }
      if c.opens then t.openConn c.asid c.conn c.desc else t.closeConn c.asid c.conn
/-- CONNECTION_OPEN (R418). -/
def execConnectionOpen (asid conn : Nat) (s : State) : Host.Outcome State Fault Refusal := .next (s.ccBegin true asid conn)
/-- CONNECTION_CLOSE (R418). -/
def execConnectionClose (asid conn : Nat) (s : State) : Host.Outcome State Fault Refusal := .next (s.ccBegin false asid conn)

/-! ### Spline switches (R402) -/

def switchKey (gid sq : Nat) : Nat := gid * 2 ^ 32 + sq
def State.setSwitch (s : State) (gid sq : Nat) (e : SwitchEntry) : State :=
  { s with eng := { s.eng with switch := tset s.eng.switch (switchKey gid sq) e } }
def State.dropSwitch (s : State) (gid sq : Nat) : State :=
  { s with eng := { s.eng with switch := terase s.eng.switch (switchKey gid sq) } }
/-- Room for an entry: 4,096 entries and 512 MiB of sums of 4 bytes. -/
def State.switchRoom (s : State) (count : Nat) : Bool :=
  let live := s.eng.switch.filter (fun e => !e.2.spoiled)
  decide (live.length < 4096) && decide ((live.map (fun e => e.2.count)).foldl (· + ·) count ≤ 2 ^ 27)
/-- Members in the order of their addition: ascending MIDX under ORD, else as they arrived. -/
def SwitchEntry.order (e : SwitchEntry) : List (List W32) :=
  if e.ord then (List.range e.nmem).filterMap (tget e.parts) else e.parts.map (·.2)
/-- The sums, each addition rounded to nearest even; no flag is kept. -/
def SwitchEntry.sum (e : SwitchEntry) : List Nat :=
  (List.range e.count).map (fun j =>
    match (e.order).map (fun v => (v.getD j 0).toNat) with
    | [] => 0
    | c :: cs => cs.foldl (fun a v => (fadd f32 .rne 0 a v).1) c)
/-- Whether a contribution agrees with its entry. -/
def SwitchEntry.agrees (e : SwitchEntry) (c : Contribution) : Bool :=
  e.nmem == c.nmem && e.ty == c.ty && e.ord == c.ord && e.count == c.count && !e.parts.any (fun p => p.1 == c.midx)
def partOf (c : Contribution) : Nat × List W32 := (c.midx, c.vals.map (BitVec.ofNat 32))
/-- An entry takes a contribution; the last one makes the sum. -/
def State.joinEntry (s : State) (e : SwitchEntry) (c : Contribution) : State :=
  let e1 := { e with parts := e.parts ++ [partOf c] }
  if e1.parts.length = e1.nmem then
    (s.dropSwitch c.gid c.seq).send (.collective c.gid c.seq 0 (e1.parts.map (·.1)) e1.sum)
  else s.setSwitch c.gid c.seq e1
/-- SWITCH_CONTRIBUTION (R402). -/
def execSwitchContribution (c : Contribution) (s : State) : Host.Outcome State Fault Refusal :=
  .next (match tget s.eng.switch (switchKey c.gid c.seq) with
    | none =>
      if s.switchRoom c.count then
        s.joinEntry ⟨c.gid, c.seq, c.nmem, c.ty, c.ord, c.count, s.ctl.now + 1024 * c.tmo, [], false⟩ c
      else s.send (.collective c.gid c.seq 3 [c.midx] [])
    | some e =>
      if e.spoiled then s.send (.collective c.gid c.seq 2 [c.midx] [])
      else if e.agrees c then s.joinEntry e c
      else (s.setSwitch c.gid c.seq { e with parts := [], spoiled := true }).send
        (.collective c.gid c.seq 2 (e.parts.map (·.1) ++ [c.midx]) []))

/-- Whether an entry's timer has run out. -/
def State.switchLate (s : State) (e : SwitchEntry) : Bool := !e.spoiled && decide (e.deadline ≤ s.ctl.now)
/-- SWITCH_GROUP_TIMEOUT (R402). -/
def execSwitchGroupTimeout (gid sq : Nat) (s : State) : Host.Outcome State Fault Refusal :=
  match tget s.eng.switch (switchKey gid sq) with
  | none => .fault .noSubject
  | some e =>
    if s.switchLate e then .next ((s.dropSwitch gid sq).send (.collective gid sq 1 (List.range e.nmem) []))
    else .fault .noSubject

/-! ### Spline groups: the member's side (R343, R344) -/

/-- The entry, if it still waits for this collective. -/
def State.awaiting (s : State) (gr gid sq : Nat) : Option Group :=
  let g := s.group gr
  if g.asid.isSome ∧ g.state = 1 ∧ g.gid = gid ∧ g.sent = sq then some g else none
/-- The words of a result, each set full. -/
def State.putSum (s : State) : List (Nat × Bool) → List Nat → State
  | p :: ps, v :: vs => ({ s with mem := s.mem.enginePut (!p.2) p.1 (leBytes 4 v) }).putSum ps vs
  | _, _ => s
/-- SPL_RESULT_ARRIVAL; a reset entry's result is discarded (R343, R344). -/
def execSplResultArrival (gr gid sq : Nat) (data : List Nat) (s : State) : Host.Outcome State Fault Refusal :=
  match s.awaiting gr gid sq with
  | none => .next s
  | some g => .next ((s.putSum g.pas data).setGroup gr { g with state := 2, vals := [], pas := [] })
/-- GROUP_INCOMPLETE (R343). -/
def execGroupIncomplete (gr gid sq : Nat) (s : State) : Host.Outcome State Fault Refusal :=
  match s.awaiting gr gid sq with
  | none => .next s
  | some g => .next (s.setGroup gr { g with state := 3, vals := [], pas := [] })
/-- COLLECTIVE_ORDER: launch-wide in the member's own launch (R343, R375). -/
def execCollectiveOrder (gr gid sq : Nat) (s : State) : Host.Outcome State Fault Refusal :=
  match s.awaiting gr gid sq with
  | none => .next s
  | some g => .next (s.faultLaunch g.launch ⟨cOrder, sq, gr, 0, 2, 0, 0⟩)
/-- CONTRIBUTION_RESEND (R402). -/
def execContributionResend (gr : Nat) (s : State) : Host.Outcome State Fault Refusal :=
  let g := s.group gr
  if g.asid.isSome ∧ g.state = 1 then .next (s.send (.contribute g.contribution)) else .fault .noSubject

/-! ### Shoot-down (R279, R280) -/

/-- Whether a request covers a translation. -/
def Shootdown.covers (r : Shootdown) (e : TlbEntry) : Bool :=
  match r.kind with
  | 0 => e.asid == r.asid && overlaps e.leaf.va e.leaf.size (r.va % 2 ^ 57) (4096 * r.npages)
  | 1 => e.asid == r.asid
  | _ => true
def Shootdown.coversAsid (r : Shootdown) (asid : Nat) : Bool := r.kind == 2 || r.asid == asid
/-- Every TLB and pinned store of the package drops what a request covers. -/
def State.purge (s : State) (r : Shootdown) : State :=
  let keep (l : List TlbEntry) : List TlbEntry := l.filter (fun e => !r.covers e)
  { s with
    weave := { s.weave with
      cores := s.weave.cores.map (fun (k : Nat × Core) => (k.1, { k.2 with tlb := keep k.2.tlb }))
      clusters := s.weave.clusters.map (fun (k : Nat × Cluster) => (k.1, { k.2 with tlb := keep k.2.tlb })) }
    frame := { s.frame with pinned := keep s.frame.pinned }
    host := { s.host with parked := s.host.parked.map (fun (p : Nat × Frame) => (p.1, { p.2 with pinned := keep p.2.pinned })) } }
/-- Whether an access that used a covered translation has still to perform: a bench copy, a block-transfer copy, a buffered store, a
staged word of a mortise, a Spline result, the scale byte of a LDYF (R280). -/
def State.usesOpen (s : State) (r : Shootdown) : Bool :=
  (r.coversAsid ((s.frame.launch.map (·.asid)).getD 0) && s.frame.copies.any (fun c =>
      c.2.inFlight && c.2.elems.any (fun e => r.covers ⟨(s.frame.launch.map (·.asid)).getD 0, e.leaf⟩))) ||
    s.weave.cores.any (fun k => k.2.sb.any (fun e => !e.isLocal && r.coversAsid e.asid)) ||
    s.weave.clusters.any (fun c => c.2.bte.any (fun q => q.2.leaves.any (fun l => r.covers ⟨q.2.asid, l⟩))) ||
    (s.frame.staged.map (·.1) ++ (s.frame.latches.filter (fun h => !h.words.isEmpty)).map (·.mort)).any (fun m =>
      ((s.mortise? m).map (fun q => r.coversAsid q.asid)).getD false) ||
    s.eng.groups.any (fun g => g.2.state == 1 && (g.2.asid.map r.coversAsid).getD false) ||
    s.weave.ctxs.any (fun c => (c.2.elems.map (fun e => r.covers ⟨c.2.asid.toNat, e.1⟩)).getD false)
def State.setSdq (s : State) (die : Nat) (l : List Shootdown) : State :=
  { s with eng := { s.eng with sdq := tset s.eng.sdq die l } }
def State.sdFlag (s : State) (die bit : Nat) : State :=
  { s with eng := { s.eng with sdstat := tmod s.eng.sdstat die 0 (fun w => setFld w bit 1 1) } }
/-- An SDCTL write queues a request; the head of the queue reaches every store at once. -/
def State.askShootdown (s : State) (die : Nat) (r : Shootdown) : State :=
  let q := tgetD s.eng.sdq die []
  if s.bootHold then s
  else if Config.shootdownQueue ≤ q.length then s.sdFlag die 63
  else
    let t := s.setSdq die (q ++ [r])
    if q.isEmpty then t.purge r else t

/-- SHOOTDOWN_RANGE: from SDVA; NPAGES = 0 is dropped as BAD (R279). -/
def execShootdownRange (die asid ectr npages : Nat) (s : State) : Host.Outcome State Fault Refusal :=
  .next (if s.bootHold then s else if npages = 0 then s.sdFlag die 62
    else s.askShootdown die ⟨0, asid, ectr, (tgetD s.eng.sdva die 0).toNat / 4096 * 4096, npages⟩)
/-- SHOOTDOWN_ASID (R279). -/
def execShootdownAsid (die asid ectr : Nat) (s : State) : Host.Outcome State Fault Refusal :=
  .next (s.askShootdown die ⟨1, asid, ectr, 0, 0⟩)
/-- SHOOTDOWN_ALL: the request's ASID is not looked at (R279). -/
def execShootdownAll (die ectr : Nat) (s : State) : Host.Outcome State Fault Refusal :=
  .next (s.askShootdown die ⟨2, 0, ectr, 0, 0⟩)

/-- Whether the head of a die's queue may complete. -/
def State.shootdownDone (s : State) (die : Nat) : Bool :=
  match tgetD s.eng.sdq die [] with
  | [] => false
  | r :: _ => !s.usesOpen r
/-- SHOOTDOWN_COMPLETE (R280); the next request of the die is taken. -/
def execShootdownComplete (die : Nat) (s : State) : Host.Outcome State Fault Refusal :=
  match tgetD s.eng.sdq die [] with
  | [] => .fault .noSubject
  | r :: rest =>
    if s.usesOpen r then .fault .noSubject
    else
      let t := ((s.purge r).setSdq die rest).signal r.ectr 1
      .next (match rest with
        | [] => t
        | n :: _ => t.purge n)

/-! ### Evictions (R261, R279) -/

/-- TRANSLATION_EVICTION: entry `idx` of a core's TLB (0 to 1,023), a cluster's (1,024 to 1,151) or the pinned stores. -/
def execTranslationEviction (where_ idx : Nat) (s : State) : Host.Outcome State Fault Refusal :=
  .next (if where_ < 1024 then s.modCore where_ (fun k => { k with tlb := k.tlb.eraseIdx idx })
    else if where_ < 1152 then s.modCluster (where_ - 1024) (fun k => { k with tlb := k.tlb.eraseIdx idx })
    else s.modFrame (fun f => { f with pinned := f.pinned.eraseIdx idx }))

/-- CACHE_LINE_EVICTION: a core's L1 (0 to 1,023) drops its copies of a line; an L2 writes its line back. -/
def execCacheLineEviction (where_ line : Nat) (s : State) : Host.Outcome State Fault Refusal :=
  let pa := lineOf line
  .next (if where_ < 1024 then
      s.modCore where_ (fun k => { k with remote := terase k.remote pa, fetched := terase k.fetched pa })
    else if homeDie pa = where_ - 1024 then { s with mem := s.mem.writeBack pa 64 } else s)

end Sys2Proof.Machine
end

