-- ==== Sys2Proof/Machine/HostSide.lean ====
section
/-! DEFINITION. Device registers (R44, R270, R279, R393, R395, R408, R416 to R418), host accesses (R407), boot and power (R385, R414,
R415, R417), the frame clock (R401), and the alignment domain (R392 to R400). -/

namespace Sys2Proof.Machine

def State.modHost (s : State) (f : Hst → Hst) : State := { s with host := f s.host }

/-! ### Register writes -/

/-- Whether a frame launch runs, or stands set up to run. -/
def State.frameRuns (s : State) : Bool := s.frame.running || s.frame.pending
/-- Whether a launch of either plane runs (R270). -/
def State.launchRuns (s : State) : Bool :=
  s.frameRuns || s.weave.launches.any (fun l => l.2.state == .running || l.2.state == .preempting)
/-- Bits `lo` to `lo + n - 1` of a value, in place; every other bit reads 0 (R7). -/
def keepBits (v lo n : Nat) : W64 := BitVec.ofNat 64 (fld v lo n * 2 ^ lo)

/-- A write to a register of a launch queue, other than those with a row of their own (R408): BUSY while the queue is enabled, also at
QHEAD and QCTAIL, which keep their value in any case. -/
def State.queueWrite (s : State) (q reg v : Nat) : State :=
  let k := s.queue q
  if reg ≠ 0x08 ∧ reg ≠ 0x10 ∧ reg ≠ 0x18 ∧ reg ≠ 0x38 ∧ reg ≠ 0x48 then s
  else if k.enabled then s.busy
  else
    let w := BitVec.ofNat 64 v
    match reg with
    | 0x08 => s.setQueue q { k with base := w }
    | 0x10 => s.setQueue q { k with cbase := w }
    | 0x18 => if q < 128 then s.setQueue q { k with tvec := w } else s
    | _ => s
/-- The queue that an offset lies in, with the register's place in its block (R416). -/
def queueAt (off : Nat) : Option (Nat × Nat) :=
  if 0x8000 ≤ off ∧ off < 0xA000 then some ((off - 0x8000) / 0x80, off % 0x80)
  else if 0xA000 ≤ off ∧ off < 0xC000 then some (64 + (off - 0xA000) / 0x80, off % 0x80)
  else if 0xC000 ≤ off ∧ off < 0xC200 then some (128 + (off - 0xC000) / 0x80, off % 0x80)
  else none
/-- A memory-configuration register is written, unless a launch runs (R270). -/
def State.configWrite (s : State) (f : Hst → Hst) : State := if s.launchRuns then s.busy else s.modHost f

/-- REGISTER_WRITE (R270, R279, R395, R408, R416, R418): a write without a row of its own; read-only registers, reserved fields and
offsets that no register has ignore it. ALIGNCTL.MEMBERS has eight bits and the values 0 to 127: the register keeps the low seven
(DESIGN CHOICE, log 75). -/
def execRegisterWrite (off v : Nat) (s : State) : Host.Outcome State Fault Refusal :=
  .next (if s.bootHold then s
    else if off = 0x100 then s.configWrite (fun h => { h with asidtb := keepBits v 15 37 })
    else if off = 0x108 then s.configWrite (fun h => { h with cmplo := keepBits v 16 36 })
    else if off = 0x110 then s.configWrite (fun h => { h with cmphi := keepBits v 16 36 })
    else if off = 0x118 then s.configWrite (fun h => { h with mdbase := keepBits v 12 40 })
    else if off = 0x200 ∨ off = 0x240 then
      { s with eng := { s.eng with sdva := tset s.eng.sdva ((off - 0x200) / 0x40) (BitVec.ofNat 64 v) } }
    else if off = 0x208 ∨ off = 0x248 then s.sdFlag ((off - 0x208) / 0x40) 62
    else if off = 0x210 ∨ off = 0x250 then
      let u := tmod s.eng.sdstat ((off - 0x210) / 0x40) 0 (fun w => w &&& ~~~(keepBits v 62 2))
      { s with eng := { s.eng with sdstat := u } }
    else if off = 0x400 then
      (if s.frameRuns then s.busy else s.modHost (fun h => { h with alignctl := keepBits v 40 7 ||| keepBits v 0 32 }))
    else if off = 0x408 then s.modHost (fun h => { h with alignstat := h.alignstat &&& ~~~(keepBits v 62 1) })
    else if off = 0x4008 then s.modHost (fun h => { h with ccspill := keepBits v 63 1 ||| keepBits v 12 40 })
    else if 0x4100 ≤ off ∧ off < 0x4120 then
      s.modHost (fun h => { h with ccdesc := h.ccdesc.writeBytes (off - 0x4100) (leBytes 8 v) })
    else match queueAt off with
      | some (q, reg) => s.queueWrite q reg v
      | none => s)

/-- EVENT_COUNTER_WRITE (R122, R416). -/
def execEventCounterWrite (n v : Nat) (s : State) : Host.Outcome State Fault Refusal :=
  .next (if s.bootHold then s else s.signal n (BitVec.ofNat 64 v))

/-- Whether a page table, from a table at level `lvl - 1` down, names a compander table (R44, R273). -/
def State.tableNames (s : State) (t : Nat) : Nat → Nat → Bool
  | 0, _ => false
  | lvl + 1, table => (List.range 512).any (fun i =>
      let e := s.phys8 (table + 8 * i)
      bitOf e 63 && (if bitOf e 62 then bitOf e 60 && fld e 46 4 == t else s.tableNames t lvl (fld e 6 40 * 4096)))
def State.asidNames (s : State) (t asid : Nat) : Bool :=
  let e := s.phys8 (s.host.asidtb.toNat + 8 * asid)
  bitOf e 63 && s.tableNames t 5 (fld e 12 40 * 4096)
/-- Whether a running launch holds a compander table (R44). -/
def State.tableHeld (s : State) (t : Nat) : Bool :=
  (s.frameRuns && (s.frame.pinned.any (fun e => e.leaf.typed && e.leaf.tbl == t) ||
      ((s.frame.launch.map (fun l => s.asidNames t l.asid)).getD false))) ||
    s.weave.launches.any (fun l => (l.2.state == .running || l.2.state == .preempting) && s.asidNames t l.2.asid)
/-- The implemented bits of a table's word. -/
def companderBits (w v : Nat) : W32 := if w = 0 then BitVec.ofNat 32 (fld v 31 1 * 2 ^ 31 + fld v 0 8) else BitVec.ofNat 32 v
def State.setKnot (s : State) (t w v : Nat) : State :=
  { s with eng := { s.eng with companders := tmod s.eng.companders t [] (fun k => tset k w (companderBits w v)) } }
/-- COMPANDER_TABLE_WRITE (R44). -/
def execCompanderTableWrite (t w v : Nat) (s : State) : Host.Outcome State Fault Refusal :=
  .next (if s.bootHold || t == 0 || decide (15 < t) || decide (33 < w) then s
    else if s.tableHeld t then s.busy else s.setKnot t w v)

/-! ### Host accesses (R407) -/

/-- Whether a port may reach a device register. -/
def portOwns (port off : Nat) : Bool :=
  match queueAt off with
  | some (q, _) => queuePort q == port
  | none => true
/-- A read's value goes back to the host. -/
def State.answer (s : State) (v : Nat) : State := s.modHost (fun h => { h with reply := BitVec.ofNat 64 v })
/-- A 64-bit AtomicOp of the host at HBM, performed at its home. -/
def State.hostAtomic (s : State) (op pa v cmp : Nat) : State :=
  let old := BitVec.ofNat 64 (leNat (s.mem.bytes pa 8))
  let t := (s.eccCorrect pa 8).answer old.toNat
  match atomicNew op old (BitVec.ofNat 64 v) (BitVec.ofNat 64 cmp) with
  | some w => { t with mem := t.mem.putBytes true pa (leBytes 8 w.toNat) }
  | none => t
/-- AOP of a host access's kind: FetchAdd, Swap, CAS. -/
def hostOp (kind : Nat) : Nat := if kind = 2 then 0 else if kind = 3 then 4 else 5
/-- HOST_ACCESS: the device registers, and HBM through L2 (R257). An access to a queue of the other port returns an
unsupported-request completion. In boot hold no queue has a port's answer and HBM reads zero, as an offset that R416 does not name
does (R417). Another place answers nothing and stays as it is. -/
def execHostAccess (a : HostAccess) (s : State) : Host.Outcome State Fault Refusal :=
  let t := s.modHost (fun h => { h with busyReply := false, unsupported := false })
  .next (match regionOf a.addr with
    | .device off =>
      if !t.bootHold && !portOwns a.port off then t.modHost (fun h => { h with unsupported := true })
      else match a.kind with
        | 0 => t.answer (t.devRead off a.size)
        | 1 => t.deviceStore off a.size a.value
        | _ => t
    | .hbm =>
      if decide (hbmEnd < a.addr + a.size) then t
      else if t.bootHold then (if a.kind = 0 then t.answer 0 else t)
      else match a.kind with
        | 0 => (t.eccCorrect a.addr a.size).answer (leNat (t.mem.bytes a.addr a.size))
        | 1 => { t with mem := t.mem.putBytes true a.addr (leBytes a.size a.value) }
        | _ => if a.size = 8 ∧ a.addr % 8 = 0 then t.hostAtomic (hostOp a.kind) a.addr a.value a.compare else t
    | _ => t)

/-! ### Power (R385, R414, R417) -/

/-- PCAP_WRITE: a value outside 500 to 2,800 W is clamped (R417). -/
def execPcapWrite (v : Nat) (s : State) : Host.Outcome State Fault Refusal :=
  .next (if s.bootHold then s else s.modHost (fun h => { h with pcap := BitVec.ofNat 64 (max 500 (min (v % 4096) 2800)) }))

/-- Arithmetic ticks of a frame, and its energy in µJ, of the running timetable; 1 and 0 where none runs. -/
def State.frameEnergy (s : State) : Nat × Nat :=
  match s.frame.launch with
  | some l =>
    if s.frame.running then (if l.tsq then 4 * l.flen else l.flen, (l.entries.map (·.energy)).foldl (· + ·) 0) else (1, 0)
  | none => (1, 0)
/-- EBUDGET from the headroom H, given as H × `d` watts: each die has half (R414). -/
def budgetOf (h : Int) (d : Nat) : Nat :=
  if 400 * (d : Int) ≤ h then 3 else if 200 * (d : Int) ≤ h then 2 else if 50 * (d : Int) ≤ h then 1 else 0
/-- H times the ticks of a frame, in watts: PCAP less the measured weave power and the frame plane's. At a clock of
(10 + k) × 100 MHz, E µJ in D ticks are 100 × (10 + k) × E / D watts. -/
def State.headroom (s : State) (weaveWatts : Nat) : Int × Nat :=
  let e := s.frameEnergy
  (((s.host.pcap.toNat : Int) - (weaveWatts : Int)) * (e.1 : Int) - ((100 * (10 + s.host.fclk) * e.2 : Nat) : Int), e.1)
/-- EBUDGET_UPDATE (R128, R414). A gang that it defers loses its reservation at once. -/
def execEbudgetUpdate (die : Nat) (s : State) : Host.Outcome State Fault Refusal :=
  if 1 < die then .fault .noSubject
  else
    let h := s.headroom (Config.weavePower s.ctl.free)
    let d := s.dispatcher die
    .next ((s.drew.setDispatcher die { d with ebudget := budgetOf h.1 h.2 }).endDeferrals die d.ebudget |>.dropDeferred die)

/-- The counts since the last update go into the records. -/
def Hst.flushLife (h : Hst) : Hst :=
  { h with life := h.lifeNow.foldl (fun m e => tmod m e.1 0 (fun v => v + e.2)) h.life, lifeNow := [] }
/-- The histograms' share of an update, and the powered seconds (R417). -/
def State.sample (s : State) (seconds : Nat) : State :=
  let t := (List.range 256).foldl (fun u i => u.life i (Config.histogramCount s.ctl.free i)) s.drew
  t.life 0x300 seconds
/-- LIFETIME_RECORD_UPDATE: every 3,600 seconds of powered time (R385). -/
def execLifetimeRecordUpdate (s : State) : Host.Outcome State Fault Refusal := .next ((s.sample 3600).modHost Hst.flushLife)

/-- The package without power: only the records in boot flash stay. -/
def State.powerOff (s : State) : State :=
  { State.reset with
    ctl := { Ctl.reset with inbox := s.ctl.inbox, free := s.ctl.free }
    host := { Hst.reset with life := s.host.life } }
/-- ORDERLY_POWER_DOWN (R385). -/
def execOrderlyPowerDown (s : State) : Host.Outcome State Fault Refusal :=
  .next ((s.sample (Config.poweredSeconds s.ctl.free)).modHost Hst.flushLife).powerOff
/-- POWER_LOSS: counts since the last update are lost (R385). -/
def execPowerLoss (s : State) : Host.Outcome State Fault Refusal := .next s.powerOff

/-! ### Boot (R415) -/

/-- The reason to stay in boot hold (R417). -/
def bootWhy (b : BootImage) : Nat :=
  if !b.present then 1 else if !b.verifies then 2 else if !b.wellFormed then 3 else if 131071 < b.pkg then 4 else 0
/-- BOOT: at power-on the image is verified; it configures the package, or the package stays in boot hold. -/
def execBoot (b : BootImage) (s : State) : Host.Outcome State Fault Refusal :=
  if !s.bootHold then .fault .noSubject
  else
    let vfy := if b.present && b.verifies then 2 ^ 62 else 0
    if bootWhy b ≠ 0 then .next (s.modHost (fun h => { h with bootstat := BitVec.ofNat 64 (2 ^ 63 + vfy + bootWhy b * 2 ^ 56) }))
    else
      let t := s.modHost (fun h => { h with
        bootstat := BitVec.ofNat 64 (vfy + b.pkg), asidtb := keepBits b.asidtb 15 37, cmplo := keepBits b.cmplo 16 36
        cmphi := keepBits b.cmphi 16 36, mdbase := keepBits b.mdbase 12 40, ports := b.ports })
      let u := b.tables.foldl (fun v e => if 1 ≤ e.1 / 64 ∧ e.1 / 64 ≤ 15 ∧ e.1 % 64 ≤ 33 then v.setKnot (e.1 / 64) (e.1 % 64) e.2
        else v) t
      .next ([0, 1].foldl (fun v d => v.setDispatcher d { v.dispatcher d with ebudget := budgetOf (v.headroom 0).1 1 }) u)

/-! ### The frame clock (R401, R417) -/

/-- A member has received a request, which replaces the one it had; a receipt with no launch running counts as before the next one's
first tick (DEDUCED, log 78). -/
def State.clockHeard (s : State) (member : Option Nat) (v : Nat) : State :=
  let at_ := if s.frame.running then some s.frame.fcnt.toNat else none
  s.modHost (fun h => { h with fclkGot := h.fclkGot.filter (fun e => e.1 != member) ++ [(member, v % 2 ^ 60, at_)] })
/-- FRAME_CLOCK_REQUEST: a write of FCLKREQ here, or word that another member of the domain has received one (R401). -/
def execFrameClockRequest (r : Nat × Option Nat) (s : State) : Host.Outcome State Fault Refusal :=
  .next (if s.bootHold || decide (6 < fld r.1 56 4) then s
    else
      let t := s.clockHeard r.2 r.1
      if r.2.isSome then t else t.modHost (fun h => { h with fclkreq := BitVec.ofNat 64 (2 ^ 63) ||| keepBits r.1 0 60 }))
/-- The members that received this package's request at least HZ frame ticks before the present FCNT. -/
def State.clockAgreed (s : State) : List (Option Nat) :=
  (s.host.fclkGot.filter (fun e => e.2.1 == s.host.fclkreq.toNat % 2 ^ 60 && e.2.2.all (fun u => decide (u + s.horizon ≤
    s.frame.fcnt.toNat)))).map (·.1)
/-- Whether a pending change takes effect at the present frame boundary: in a domain, once every member has received it in time. -/
def State.clockDue (s : State) : Bool :=
  let t := s.frame.fcnt.toNat
  let n := s.frame.flen.toNat
  bitOf s.host.fclkreq.toNat 63 && s.frame.running && t % n == 0 && decide (fld s.host.fclkreq.toNat 0 56 * n ≤ t) &&
    (!s.aligned || (s.clockAgreed.contains none && decide (s.members ≤ s.clockAgreed.length)))
/-- FRAME_CLOCK_CHANGE (R401). -/
def execFrameClockChange (s : State) : Host.Outcome State Fault Refusal :=
  if s.clockDue then
    .next (s.modHost (fun h => { h with fclk := fld h.fclkreq.toNat 56 4, fclkreq := setFld h.fclkreq 63 1 0, fclkGot := [] }))
  else .fault .noSubject

/-! ### Alignment (R394, R395) -/

/-- The ports of a package that is in no domain. -/
def unaligned (p : W64) : W64 := setFld (setFld p 62 1 0) 16 24 0
/-- The package is in no domain. -/
def State.leaveDomain (s : State) : State :=
  s.modHost (fun h => { h with
    alignstat := keepBits h.alignstat.toNat 62 1, splport := h.splport.map (fun (p : Nat × W64) => (p.1, unaligned p.2))
    ready := [], startIn := none, asked := none, notices := [], aligning := false })
/-- ALIGN_GO: the members exchange timing flits (R394). -/
def execAlignGo (members dtag : Nat) (s : State) : Host.Outcome State Fault Refusal :=
  if s.bootHold then .next s
  else if s.frameRuns then .next s.busy
  else .next ((s.leaveDomain.modHost (fun h => { h with
    alignctl := BitVec.ofNat 64 (members % 128 * 2 ^ 40 + dtag % 2 ^ 32), aligning := true })).send (.align members dtag))
/-- ALIGN_DISSOLVE (R395). -/
def execAlignDissolve (members : Nat) (s : State) : Host.Outcome State Fault Refusal :=
  if s.bootHold then .next s
  else if s.frameRuns then .next s.busy
  else .next (s.leaveDomain.modHost (fun h => { h with alignctl := BitVec.ofNat 64 (members % 128 * 2 ^ 40) }))
/-- The alignment has failed, and the package does not join (R394). -/
def State.alignFails (s : State) : State :=
  s.modHost (fun h => { h with aligning := false, alignstat := h.alignstat ||| BitVec.ofNat 64 (2 ^ 62) })
/-- ALIGNMENT_TIMEOUT: a member has not answered within 10 ms (R394). -/
def execAlignmentTimeout (s : State) : Host.Outcome State Fault Refusal :=
  if s.host.aligning then .next s.alignFails else .fault .noSubject
/-- FLAT of a port: half its largest round trip, rounded up (R394, step 2). -/
def flatOf (p : AlignedPort) : Nat := (p.trip + 1) / 2
/-- The largest sum of FLATs along a route between members. -/
def longestRoute (routes : List (List Nat)) : Nat := (routes.map (fun r => r.foldl (· + ·) 0)).foldl max 0
/-- HZ (R394, step 3). -/
def horizonOf (routes : List (List Nat)) : Nat := max 256 ((longestRoute routes + 32 + 63) / 64 * 64)
/-- A port bound by alignment (R393), with its PLAT (R394, step 4). -/
def boundPort (hz : Nat) (p : AlignedPort) (old : W64) : W64 :=
  setFld (setFld (setFld (setFld old 63 1 1) 62 1 1) 45 17 p.peer) 16 24 (flatOf p + hz + 96)
/-- Whether the answers are those of an alignment in progress: one of each other member, through ports that the boot image enables. Each
port bound lies on some route (DEDUCED, log 56). -/
def State.answered (s : State) (answers : List (Nat × Nat × Nat)) (routes : List (List Nat)) (ports : List AlignedPort) : Bool :=
  s.host.aligning && decide (answers.length + 1 = s.members) && everyPair (fun a b => a.1 != b.1) answers &&
    answers.all (fun a => a.1 != s.package) && ports.all (fun p => s.host.ports.contains p.port && decide (flatOf p ≤ longestRoute routes))
/-- Whether every member gives this package's MEMBERS and DTAG. -/
def State.agreed (s : State) (answers : List (Nat × Nat × Nat)) : Bool :=
  answers.all (fun a => a.2.1 + 1 == s.members && a.2.2 == fld s.host.alignctl.toNat 0 32)
/-- ALIGNMENT_DONE (R394): the answers of the other members (package, MEMBERS, DTAG), the FLATs along the route of each member's notice
to each other member, and what the ports here have measured. -/
def execAlignmentDone (answers : List (Nat × Nat × Nat)) (routes : List (List Nat)) (ports : List AlignedPort) (s : State) :
    Host.Outcome State Fault Refusal :=
  let hz := horizonOf routes
  if !s.answered answers routes ports then .fault .noSubject
  else if !s.agreed answers ∨ 65536 < hz then .next s.alignFails
  else
    let leader := (answers.map (·.1)).foldl min s.package
    .next (s.modHost (fun h => { h with
      aligning := false
      alignstat := BitVec.ofNat 64 (2 ^ 63) ||| keepBits h.alignstat.toNat 62 1 ||| BitVec.ofNat 64 (leader % 2 ^ 17 * 2 ^ 32 + hz)
      splport := ports.foldl (fun m p => tmod m p.port 0 (boundPort hz p)) h.splport }))

/-! ### Aligned launches and lockstep (R396, R397, R400) -/

/-- ALIGN_READY_NOTICE: a member's notice reaches the leader (R396). -/
def execAlignReadyNotice (pkg dtag flen nframes : Nat) (s : State) : Host.Outcome State Fault Refusal :=
  if s.isLeader then .next (s.hearReady (pkg, dtag, flen, nframes)) else .fault .noSubject
/-- Whether an aligned launch stands ready here. -/
def State.alignedPending (s : State) : Bool := s.frame.pending && (s.frame.launch.map (·.align)).getD false
/-- START_INSTANT_NOTICE: the start instant, or word that the members' launches differ (R396). -/
def execStartInstantNotice (after : Option Nat) (s : State) : Host.Outcome State Fault Refusal :=
  if !s.alignedPending then .fault .noSubject
  else match after with
    | some n => .next (s.modHost (fun h => { h with startIn := some n }))
    | none => .next (s.refusePending ((s.frame.launch.map (·.dtag)).getD 0))
/-- ALIGNED_START: the instant has come (R396). -/
def execAlignedStart (s : State) : Host.Outcome State Fault Refusal :=
  if s.alignedPending ∧ s.host.startIn = some 0 then .next ((s.startFrame.modHost (fun h => { h with startIn := none })).pauseEarly)
  else .fault .noSubject

/-- Whether an aligned frame launch runs. -/
def State.alignedRuns (s : State) : Bool := s.frame.running && s.frameAligned
/-- HELD of the remote hold's slip-log entry is the demand D(m), which grows with each notice (R397). -/
def State.noteDemand (s : State) : State :=
  match s.frame.remoteSlot with
  | none => s
  | some i => s.modFrame (fun f => { f with
      slip := tmod f.slip i (0, 0) (fun e => (e.1, setFld e.2 0 32 (min s.demand (2 ^ 32 - 1)))) })
/-- HOLD_NOTICE: a notice for FCNT m demands its excess at m + HZ (R397); one that comes when that FCNT has passed, which R394 rules
out, at the present FCNT (DEDUCED, log 79). -/
def execHoldNotice (m e port : Nat) (s : State) : Host.Outcome State Fault Refusal :=
  if !s.alignedRuns then .next s
  else .next (s.modHost (fun h => { h with
    notices := tmod h.notices (max (m + s.horizon) s.frame.fcnt.toNat) (0, port) (fun n => (n.1 + e, n.2)) })).noteDemand
/-- Whether remote demand for the present FCNT stands that is not a cause. -/
def State.remoteDue (s : State) : Bool :=
  s.alignedRuns && decide (s.frame.heldHere < s.demand) && !s.frame.causes.any (fun c => c.code == 6)
/-- REMOTE_HOLD (R397): one entry for each FCNT. -/
def execRemoteHold (s : State) : Host.Outcome State Fault Refusal :=
  if s.remoteDue then
    let port := ((tget s.host.notices s.frame.fcnt.toNat).map (·.2)).getD 0
    .next (match s.frame.remoteSlot with
      | none => (s.addCause 6 256 port port s.demand).modFrame (fun f => { f with remoteSlot := some s.frame.next })
      | some i => s.modFrame (fun f => { f with causes := f.causes ++ [⟨6, 256, i, port⟩] }))
  else .fault .noSubject
/-- The earlier of a remote end that stands and one that arrives. -/
def Frame.endsBy (k : Frame) (f port : Nat) : Frame :=
  { k with endAt := match k.endAt with
    | some (g, p) => if f < g then some (f, port) else some (g, p)
    | none => some (f, port) }
/-- FAULT_NOTICE: the launch ends at F here too, also one that has ended by a later fault of its own (R373, R400). A paused one takes the
end with it, and has it when it is resumed (DEDUCED, log 49). -/
def execFaultNotice (f port : Nat) (s : State) : Host.Outcome State Fault Refusal :=
  .next (if s.alignedRuns then s.modFrame (·.endsBy f port)
    else match s.frame.settling with
      | some e => if f < e.at_ then s.endEarlier e.code f port else s
      | none => { s with host := { s.host with parked := s.host.parked.map (fun p =>
          (p.1, if s.aligned && (p.2.launch.map (·.align)).getD false then p.2.endsBy f port else p.2)) } })

/-! ### Links (R392, R393, R417) -/

/-- LINK_REPLAY: lost flits are replayed, and the entry of this channel with this due tick comes later; past that tick, where it has not
come, the frame plane holds (R392, R399). -/
def execLinkReplay (e : Nat × Nat) (s : State) : Host.Outcome State Fault Refusal :=
  .next (s.modFrame (fun f => { f with lateLinks := if f.lateLinks.contains e then f.lateLinks else f.lateLinks ++ [e] }))
/-- PORT_RETRAIN (R393). -/
def execPortRetrain (k : Nat) (s : State) : Host.Outcome State Fault Refusal :=
  .next ((s.modHost (fun h => { h with
    splport := tmod h.splport k 0 (fun w => setFld w 0 16 (min (fld w.toNat 0 16 + 1) 0xFFFF)) })).life (0x140 + k) 1)
/-- UE_LINK_RETRAIN (R417). -/
def execUeLinkRetrain (p : Nat) (s : State) : Host.Outcome State Fault Refusal := .next (s.life (0x1D0 + p) 1)

end Sys2Proof.Machine
end

