-- ==== Sys2Proof/Machine/System.lean ====
section
/-! DEFINITION. Major 0x7E (R364 to R368): TRAP, SYSRD, SYSWR, ERET, and the special registers of a context. -/

namespace Sys2Proof.Machine

/-- What a number of R364 names. -/
inductive SysReg where
  | status | flags | firsterr | seed | epc | cause | faddr | asid | drawc | tvec
  | sscr (i : Nat)
  | fcnt | flen | pausebnd | sliplog | holdmax
  | slipent (i : Nat) (second : Bool)
  deriving DecidableEq, Repr

def sysReg (n : Nat) : Option SysReg :=
  match n with
  | 0 => some .status
  | 1 => some .flags
  | 2 => some .firsterr
  | 3 => some .seed
  | 4 => some .epc
  | 5 => some .cause
  | 6 => some .faddr
  | 7 => some .asid
  | 8 => some .drawc
  | 9 => some .tvec
  | 10 => some (.sscr 0)
  | 11 => some (.sscr 1)
  | 12 => some (.sscr 2)
  | 13 => some (.sscr 3)
  | 14 => some .fcnt
  | 15 => some .flen
  | 16 => some .pausebnd
  | 17 => some .sliplog
  | 18 => some .holdmax
  | _ => if 64 ≤ n ∧ n < 192 then some (.slipent ((n - 64) / 2) (n % 2 == 1)) else none

/-- User read rights (R16, R51, R162, R364); every register is readable at system level. -/
def SysReg.userRead : SysReg → Bool
  | .status => true
  | .flags => true
  | .firsterr => true
  | .seed => true
  | .drawc => true
  | .fcnt => true
  | .flen => true
  | .pausebnd => true
  | _ => false

/-- Write rights at user and system level. -/
def SysReg.userWrite : SysReg → Bool
  | .status => true
  | .flags => true
  | _ => false
def SysReg.systemWrite : SysReg → Bool
  | .status => true
  | .flags => true
  | .firsterr => true
  | .epc => true
  | .cause => true
  | .faddr => true
  | .drawc => true
  | .sscr _ => true
  | _ => false

/-- The value of a special register. -/
def State.sysValue (s : State) (c : Nat) : SysReg → W64
  | .status => (s.ctx c).status
  | .flags => (s.ctx c).flags
  | .firsterr => (s.ctx c).firsterr
  | .seed => (s.ctx c).seed
  | .epc => (s.ctx c).epc
  | .cause => (s.ctx c).cause
  | .faddr => (s.ctx c).faddr
  | .asid => (s.ctx c).asid
  | .drawc => (s.ctx c).drawc
  | .tvec => BitVec.ofNat 64 (s.tvec (s.ctx c))
  | .sscr i => tgetD (s.ctx c).sscr i 0
  | .fcnt => s.frame.fcnt
  | .flen => s.frame.flen
  | .pausebnd => s.frame.pausebnd
  | .sliplog => s.frame.slipLog
  | .holdmax => s.frame.holdmax
  | .slipent i second =>
    let e := tgetD s.frame.slip i (0, 0)
    if second then e.2 else e.1

/-- A write to a special register; reserved fields stay 0 (R18 to R20, R51, R360). -/
def Ctx.sysWrite (x : Ctx) (r : SysReg) (v : W64) : Ctx :=
  match r with
  | .status => { x with status := writeStatus x.status v }
  | .flags => { x with flags := w1c 6 x.flags v }
  | .firsterr => { x with firsterr := v &&& 0x800000000000FFFF }
  | .epc => { x with epc := v }
  | .cause => { x with cause := v &&& 0xFFFFFFFF00FF }
  | .faddr => { x with faddr := v }
  | .drawc => { x with drawc := v &&& 0x7FFFFFFFFFFFFFFF }
  | .sscr i => { x with sscr := tset x.sscr i v }
  | _ => x

/-- What TRAP does once it executes (R362, R363, R366): a trap with EPC after TRAP; at system level the end of the launch
with the cause registers as they stand. -/
def State.trapNow (s : State) (c n : Nat) : State :=
  let x := s.ctx c
  if x.priv then
    ((s.setCtx c { x with pc := BitVec.ofNat 64 s.ctl.group }).faultLaunch (s.launchOf x)
      ⟨fld x.cause.toNat 0 8, fld x.cause.toNat 16 32, x.faddr.toNat, x.epc.toNat, 0, c, x.firsterr⟩).verdict .faulted
  else s.raise c (if s.tvec x = 0 then s.ctl.group else (s.ctl.syl + 4) % 2 ^ 64) cTrap 0 n

/-- TRAP (R366). -/
def execTrap (t : TrapImm) (s : State) : Host.Outcome State Fault Refusal :=
  match weave 0x7E 0 t.g 0 0 t.i noPre (fun _ u => .ok u) s with
  | .next u => match s.ctl.cur with
    | .ctx c =>
      if (s.ctx? c).isSome ∧ u.ctl.verdict = .retired ∧ (s.ctx c).guard t.g then .next (s.trapNow c (s.immU 6 t.i)) else .next u
    | _ => .next u
  | r => r

/-- SYSRD (R364, R367). -/
def execSysrd (t : DImm) : State → Host.Outcome State Fault Refusal :=
  weave 0x7E 1 t.g t.d 0 t.i noPre (fun c s =>
    match sysReg (s.immU 6 t.i) with
    | none => illegal
    | some r => do
      need ((s.ctx c).priv || r.userRead) cCap (s.immU 6 t.i) 0
      pure (s.modCtx c (fun x => x.setX t.d (s.sysValue c r))))

/-- SYSWR (R364, R367). -/
def execSyswr (t : AImm) : State → Host.Outcome State Fault Refusal :=
  weave 0x7E 2 t.g 0 t.a t.i noPre (fun c s =>
    match sysReg (s.immU 6 t.i) with
    | none => illegal
    | some r => do
      need (if (s.ctx c).priv then r.systemWrite else r.userWrite) cCap (s.immU 6 t.i) 0
      pure (s.modCtx c (fun x => x.sysWrite r (x.x t.a))))

/-- ERET (R368). -/
def execEret (t : Nul) : State → Host.Outcome State Fault Refusal :=
  weave 0x7E 3 t.g 0 0 0 noPre (fun c s => do
    need (decide (s.immU 6 0 = 0)) cIllegal 0 0
    need (s.ctx c).priv cCap 0 0
    pure (s.modCtx c Ctx.returnTrap))

/-- EXT holds the high bits of the immediate of the syllable that follows it (R62). -/
def execExt (t : ExtImm) (s : State) : Host.Outcome State Fault Refusal :=
  match s.ctl.cur with
  | .none => .next s
  | _ => .next { s with ctl := { s.ctl with ext := some t.i, verdict := .retired } }

/-- ILLEGAL_ENCODING: what a reserved or illegal encoding does when a context reaches it (R69, R359). -/
def execIllegalEncoding (c : Nat) (s : State) : Host.Outcome State Fault Refusal :=
  match s.ctx? c with
  | some x => finishW { s with ctl := { s.ctl with group := x.pc.toNat } } c illegal
  | none => .fault .noSubject

/-- FETCH_NONEXEC: what the fetch of a syllable that is not executable does (R27, R359). -/
def execFetchNonexec (c : Nat) (s : State) : Host.Outcome State Fault Refusal :=
  match s.ctx? c with
  | some x => finishW { s with ctl := { s.ctl with group := x.pc.toNat } } c (stop cFetch x.pc.toNat 0)
  | none => .fault .noSubject

end Sys2Proof.Machine
end

