-- ==== Sys2Proof/Machine/Dispatch.lean ====
section
/-! DEFINITION. One arm per row of the opcode table: the meaning of each instruction and event. -/

namespace Sys2Proof.Machine

def exec (i : Instr) (s : State) : Host.Outcome State Fault Refusal :=
  match i with
  | .segmentReady b => Sys2Proof.Machine.execSegmentReady b s
  | .blockRelease e => Sys2Proof.Machine.execBlockRelease e s
  | .anchorLate b => Sys2Proof.Machine.execAnchorLate b s
  | .holdEnd => Sys2Proof.Machine.execHoldEnd s
  | .holdTimeout => Sys2Proof.Machine.execHoldTimeout s
  | .resultLanding b => Sys2Proof.Machine.execResultLanding b s
  | .matrixResultLanding b => Sys2Proof.Machine.execMatrixResultLanding b s
  | .latchLanding b => Sys2Proof.Machine.execLatchLanding b s
  | .copyGranuleRequest b id => Sys2Proof.Machine.execCopyGranuleRequest b id s
  | .frameSlotStart k => Sys2Proof.Machine.execFrameSlotStart k s
  | .copyLanding b id => Sys2Proof.Machine.execCopyLanding b id s
  | .eccRereadComplete b id n => Sys2Proof.Machine.execEccRereadComplete b id n s
  | .channelEntryLanding ch arriving => Sys2Proof.Machine.execChannelEntryLanding ch arriving s
  | .lpassLanding b => Sys2Proof.Machine.execLpassLanding b s
  | .winnowCopyLanding b => Sys2Proof.Machine.execWinnowCopyLanding b s
  | .jigIteration b => Sys2Proof.Machine.execJigIteration b s
  | .mortiseOpen m => Sys2Proof.Machine.execMortiseOpen m s
  | .mortiseClose m => Sys2Proof.Machine.execMortiseClose m s
  | .holdLatch m => Sys2Proof.Machine.execHoldLatch m s
  | .frameLaunchSetup q => Sys2Proof.Machine.execFrameLaunchSetup q s
  | .frameLaunchComplete => Sys2Proof.Machine.execFrameLaunchComplete s
  | .framePause => Sys2Proof.Machine.execFramePause s
  | .nopause => Sys2Proof.Machine.execNopause s
  | .launchRecordReady l => Sys2Proof.Machine.execLaunchRecordReady l s
  | .dispatchStep die => Sys2Proof.Machine.execDispatchStep die s
  | .priorityAgeing l => Sys2Proof.Machine.execPriorityAgeing l s
  | .deferralExpiry l => Sys2Proof.Machine.execDeferralExpiry l s
  | .weaveLaunchComplete l => Sys2Proof.Machine.execWeaveLaunchComplete l s
  | .storeBufferDrain core => Sys2Proof.Machine.execStoreBufferDrain core s
  | .weavePortAccess b => Sys2Proof.Machine.execWeavePortAccess b s
  | .wfeWake c => Sys2Proof.Machine.execWfeWake c s
  | .wfeTimeout c => Sys2Proof.Machine.execWfeTimeout c s
  | .yieldResume c => Sys2Proof.Machine.execYieldResume c s
  | .pipeStallResume c => Sys2Proof.Machine.execPipeStallResume c s
  | .hjoinWake c => Sys2Proof.Machine.execHjoinWake c s
  | .gwaitWake c => Sys2Proof.Machine.execGwaitWake c s
  | .waitevWake c => Sys2Proof.Machine.execWaitevWake c s
  | .barWaitWake c => Sys2Proof.Machine.execBarWaitWake c s
  | .ldsFillWake c => Sys2Proof.Machine.execLdsFillWake c s
  | .watermarkStallResume c => Sys2Proof.Machine.execWatermarkStallResume c s
  | .engineSlotFree c => Sys2Proof.Machine.execEngineSlotFree c s
  | .splPendingWake c => Sys2Proof.Machine.execSplPendingWake c s
  | .rmaWaitWake c => Sys2Proof.Machine.execRmaWaitWake c s
  | .replayExecution c => Sys2Proof.Machine.execReplayExecution c s
  | .bteCopyPart cl id => Sys2Proof.Machine.execBteCopyPart cl id s
  | .bteCopyComplete cl id => Sys2Proof.Machine.execBteCopyComplete cl id s
  | .rmaCompletion id status data => Sys2Proof.Machine.execRmaCompletion id status data s
  | .rmaIncomingRequest rq => Sys2Proof.Machine.execRmaIncomingRequest rq s
  | .rmaSendMatch conn tag data => Sys2Proof.Machine.execRmaSendMatch conn tag data s
  | .rmaSendRetry id => Sys2Proof.Machine.execRmaSendRetry id s
  | .connectionContextFetch conn ok => Sys2Proof.Machine.execConnectionContextFetch conn ok s
  | .switchContribution cb => Sys2Proof.Machine.execSwitchContribution cb s
  | .switchGroupTimeout gid sq => Sys2Proof.Machine.execSwitchGroupTimeout gid sq s
  | .splResultArrival gr gid sq data => Sys2Proof.Machine.execSplResultArrival gr gid sq data s
  | .collectiveOrder gr gid sq => Sys2Proof.Machine.execCollectiveOrder gr gid sq s
  | .shootdownRange die asid ectr npages => Sys2Proof.Machine.execShootdownRange die asid ectr npages s
  | .shootdownAsid die asid ectr => Sys2Proof.Machine.execShootdownAsid die asid ectr s
  | .shootdownAll die ectr => Sys2Proof.Machine.execShootdownAll die ectr s
  | .shootdownComplete die => Sys2Proof.Machine.execShootdownComplete die s
  | .eventCounterWrite n v => Sys2Proof.Machine.execEventCounterWrite n v s
  | .queueDoorbell q v => Sys2Proof.Machine.execQueueDoorbell q v s
  | .queueEnable q v => Sys2Proof.Machine.execQueueEnable q v s
  | .queueArm q v => Sys2Proof.Machine.execQueueArm q v s
  | .completionHeadWrite q v => Sys2Proof.Machine.execCompletionHeadWrite q v s
  | .preempt q save => Sys2Proof.Machine.execPreempt q save s
  | .resume q save => Sys2Proof.Machine.execResume q save s
  | .destroy q => Sys2Proof.Machine.execDestroy q s
  | .destroyForce q => Sys2Proof.Machine.execDestroyForce q s
  | .roleHalt gang role => Sys2Proof.Machine.execRoleHalt gang role s
  | .gangSave gang => Sys2Proof.Machine.execGangSave gang s
  | .completionEntryWrite q => Sys2Proof.Machine.execCompletionEntryWrite q s
  | .interruptWindowClose q => Sys2Proof.Machine.execInterruptWindowClose q s
  | .connectionOpen asid conn => Sys2Proof.Machine.execConnectionOpen asid conn s
  | .connectionClose asid conn => Sys2Proof.Machine.execConnectionClose asid conn s
  | .companderTableWrite t w v => Sys2Proof.Machine.execCompanderTableWrite t w v s
  | .pcapWrite v => Sys2Proof.Machine.execPcapWrite v s
  | .frameClockRequest r => Sys2Proof.Machine.execFrameClockRequest r s
  | .frameClockChange => Sys2Proof.Machine.execFrameClockChange s
  | .registerWrite off v => Sys2Proof.Machine.execRegisterWrite off v s
  | .ebudgetUpdate die => Sys2Proof.Machine.execEbudgetUpdate die s
  | .lifetimeRecordUpdate => Sys2Proof.Machine.execLifetimeRecordUpdate s
  | .orderlyPowerDown => Sys2Proof.Machine.execOrderlyPowerDown s
  | .boot img => Sys2Proof.Machine.execBoot img s
  | .alignGo members dtag => Sys2Proof.Machine.execAlignGo members dtag s
  | .alignDissolve members => Sys2Proof.Machine.execAlignDissolve members s
  | .alignmentTimeout => Sys2Proof.Machine.execAlignmentTimeout s
  | .alignReadyNotice pkg dtag flen nframes => Sys2Proof.Machine.execAlignReadyNotice pkg dtag flen nframes s
  | .startInstantNotice after => Sys2Proof.Machine.execStartInstantNotice after s
  | .alignedStart => Sys2Proof.Machine.execAlignedStart s
  | .holdNotice m e port => Sys2Proof.Machine.execHoldNotice m e port s
  | .remoteHold => Sys2Proof.Machine.execRemoteHold s
  | .faultNotice f port => Sys2Proof.Machine.execFaultNotice f port s
  | .preemptForward q save chosen => Sys2Proof.Machine.execPreemptForward q save chosen s
  | .linkReplay e => Sys2Proof.Machine.execLinkReplay e s
  | .portRetrain k => Sys2Proof.Machine.execPortRetrain k s
  | .illegalEncoding c => Sys2Proof.Machine.execIllegalEncoding c s
  | .fetchNonexec c => Sys2Proof.Machine.execFetchNonexec c s
  | .link conn => Sys2Proof.Machine.execLink conn s
  | .powerLoss => Sys2Proof.Machine.execPowerLoss s
  | .hostAccess acc => Sys2Proof.Machine.execHostAccess acc s
  | .contributionResend gr => Sys2Proof.Machine.execContributionResend gr s
  | .groupIncomplete gr gid sq => Sys2Proof.Machine.execGroupIncomplete gr gid sq s
  | .translationEviction where_ idx => Sys2Proof.Machine.execTranslationEviction where_ idx s
  | .cacheLineEviction where_ line => Sys2Proof.Machine.execCacheLineEviction where_ line s
  | .alignmentDone answers routes ports => Sys2Proof.Machine.execAlignmentDone answers routes ports s
  | .ueLinkRetrain p => Sys2Proof.Machine.execUeLinkRetrain p s
  | .frameStart => Sys2Proof.Machine.execFrameStart s
  | .add f => Sys2Proof.Machine.execAdd f s
  | .sub f => Sys2Proof.Machine.execSub f s
  | .addw f => Sys2Proof.Machine.execAddw f s
  | .subw f => Sys2Proof.Machine.execSubw f s
  | .and_ f => Sys2Proof.Machine.execAnd f s
  | .or_ f => Sys2Proof.Machine.execOr f s
  | .xor_ f => Sys2Proof.Machine.execXor f s
  | .andn f => Sys2Proof.Machine.execAndn f s
  | .shl f => Sys2Proof.Machine.execShl f s
  | .shr f => Sys2Proof.Machine.execShr f s
  | .sar f => Sys2Proof.Machine.execSar f s
  | .rot f => Sys2Proof.Machine.execRot f s
  | .mul f => Sys2Proof.Machine.execMul f s
  | .mulh f => Sys2Proof.Machine.execMulh f s
  | .mulhu f => Sys2Proof.Machine.execMulhu f s
  | .mulw f => Sys2Proof.Machine.execMulw f s
  | .div f => Sys2Proof.Machine.execDiv f s
  | .divu f => Sys2Proof.Machine.execDivu f s
  | .rem f => Sys2Proof.Machine.execRem f s
  | .remu f => Sys2Proof.Machine.execRemu f s
  | .min_ f => Sys2Proof.Machine.execMin f s
  | .max_ f => Sys2Proof.Machine.execMax f s
  | .minu f => Sys2Proof.Machine.execMinu f s
  | .maxu f => Sys2Proof.Machine.execMaxu f s
  | .seq f => Sys2Proof.Machine.execSeq f s
  | .slt f => Sys2Proof.Machine.execSlt f s
  | .sltu f => Sys2Proof.Machine.execSltu f s
  | .sne f => Sys2Proof.Machine.execSne f s
  | .clz f => Sys2Proof.Machine.execClz f s
  | .ctz f => Sys2Proof.Machine.execCtz f s
  | .popc f => Sys2Proof.Machine.execPopc f s
  | .brev f => Sys2Proof.Machine.execBrev f s
  | .addi f => Sys2Proof.Machine.execAddi f s
  | .andi f => Sys2Proof.Machine.execAndi f s
  | .ori f => Sys2Proof.Machine.execOri f s
  | .xori f => Sys2Proof.Machine.execXori f s
  | .shli f => Sys2Proof.Machine.execShli f s
  | .shri f => Sys2Proof.Machine.execShri f s
  | .sari f => Sys2Proof.Machine.execSari f s
  | .slti f => Sys2Proof.Machine.execSlti f s
  | .sltiu f => Sys2Proof.Machine.execSltiu f s
  | .li f => Sys2Proof.Machine.execLi f s
  | .lih f => Sys2Proof.Machine.execLih f s
  | .cmpEq f => Sys2Proof.Machine.execCmpEq f s
  | .cmpLt f => Sys2Proof.Machine.execCmpLt f s
  | .cmpLtu f => Sys2Proof.Machine.execCmpLtu f s
  | .cmpNe f => Sys2Proof.Machine.execCmpNe f s
  | .cmpiEq f => Sys2Proof.Machine.execCmpiEq f s
  | .cmpiLt f => Sys2Proof.Machine.execCmpiLt f s
  | .cmpiLtu f => Sys2Proof.Machine.execCmpiLtu f s
  | .cmpiNe f => Sys2Proof.Machine.execCmpiNe f s
  | .pand f => Sys2Proof.Machine.execPand f s
  | .por f => Sys2Proof.Machine.execPor f s
  | .pxor f => Sys2Proof.Machine.execPxor f s
  | .pnot f => Sys2Proof.Machine.execPnot f s
  | .sel f => Sys2Proof.Machine.execSel f s
  | .lea f => Sys2Proof.Machine.execLea f s
  | .extr f => Sys2Proof.Machine.execExtr f s
  | .ins f => Sys2Proof.Machine.execIns f s
  | .br f => Sys2Proof.Machine.execBr f s
  | .call f => Sys2Proof.Machine.execCall f s
  | .jr f => Sys2Proof.Machine.execJr f s
  | .jalr f => Sys2Proof.Machine.execJalr f s
  | .ret f => Sys2Proof.Machine.execRet f s
  | .loopk f => Sys2Proof.Machine.execLoopk f s
  | .loope f => Sys2Proof.Machine.execLoope f s
  | .wfe f => Sys2Proof.Machine.execWfe f s
  | .ldB f => Sys2Proof.Machine.execLdB f s
  | .ldH f => Sys2Proof.Machine.execLdH f s
  | .ldW f => Sys2Proof.Machine.execLdW f s
  | .ldD f => Sys2Proof.Machine.execLdD f s
  | .lduB f => Sys2Proof.Machine.execLduB f s
  | .lduH f => Sys2Proof.Machine.execLduH f s
  | .lduW f => Sys2Proof.Machine.execLduW f s
  | .stB f => Sys2Proof.Machine.execStB f s
  | .stH f => Sys2Proof.Machine.execStH f s
  | .stW f => Sys2Proof.Machine.execStW f s
  | .stD f => Sys2Proof.Machine.execStD f s
  | .ldy f => Sys2Proof.Machine.execLdy f s
  | .sty f => Sys2Proof.Machine.execSty f s
  | .ldyb f => Sys2Proof.Machine.execLdyb f s
  | .ldyf f => Sys2Proof.Machine.execLdyf f s
  | .ldsW f => Sys2Proof.Machine.execLdsW f s
  | .ldsD f => Sys2Proof.Machine.execLdsD f s
  | .ldseW f => Sys2Proof.Machine.execLdseW f s
  | .ldseD f => Sys2Proof.Machine.execLdseD f s
  | .stfW f => Sys2Proof.Machine.execStfW f s
  | .stfD f => Sys2Proof.Machine.execStfD f s
  | .sete f => Sys2Proof.Machine.execSete f s
  | .aadd f => Sys2Proof.Machine.execAadd f s
  | .aand f => Sys2Proof.Machine.execAand f s
  | .aor f => Sys2Proof.Machine.execAor f s
  | .axor f => Sys2Proof.Machine.execAxor f s
  | .aswp f => Sys2Proof.Machine.execAswp f s
  | .acas f => Sys2Proof.Machine.execAcas f s
  | .amax f => Sys2Proof.Machine.execAmax f s
  | .amin f => Sys2Proof.Machine.execAmin f s
  | .fenceAcq f => Sys2Proof.Machine.execFenceAcq f s
  | .fenceRel f => Sys2Proof.Machine.execFenceRel f s
  | .fenceSc f => Sys2Proof.Machine.execFenceSc f s
  | .tfence f => Sys2Proof.Machine.execTfence f s
  | .cflush f => Sys2Proof.Machine.execCflush f s
  | .cinv f => Sys2Proof.Machine.execCinv f s
  | .cpref f => Sys2Proof.Machine.execCpref f s
  | .ldl f => Sys2Proof.Machine.execLdl f s
  | .stl f => Sys2Proof.Machine.execStl f s
  | .ldld f => Sys2Proof.Machine.execLdld f s
  | .stld f => Sys2Proof.Machine.execStld f s
  | .hstart f => Sys2Proof.Machine.execHstart f s
  | .hjoin f => Sys2Proof.Machine.execHjoin f s
  | .hkill f => Sys2Proof.Machine.execHkill f s
  | .hself f => Sys2Proof.Machine.execHself f s
  | .qpeek f => Sys2Proof.Machine.execQpeek f s
  | .qdepth f => Sys2Proof.Machine.execQdepth f s
  | .qclose f => Sys2Proof.Machine.execQclose f s
  | .qdrop f => Sys2Proof.Machine.execQdrop f s
  | .gbar f => Sys2Proof.Machine.execGbar f s
  | .garrive f => Sys2Proof.Machine.execGarrive f s
  | .gwait f => Sys2Proof.Machine.execGwait f s
  | .grank f => Sys2Proof.Machine.execGrank f s
  | .repf f => Sys2Proof.Machine.execRepf f s
  | .done f => Sys2Proof.Machine.execDone f s
  | .signal f => Sys2Proof.Machine.execSignal f s
  | .yield f => Sys2Proof.Machine.execYield f s
  | .waitev f => Sys2Proof.Machine.execWaitev f s
  | .tenonV f => Sys2Proof.Machine.execTenonV f s
  | .tenonW f => Sys2Proof.Machine.execTenonW f s
  | .tenonQ f => Sys2Proof.Machine.execTenonQ f s
  | .rmaPut f => Sys2Proof.Machine.execRmaPut f s
  | .rmaGet f => Sys2Proof.Machine.execRmaGet f s
  | .rmaFlush f => Sys2Proof.Machine.execRmaFlush f s
  | .rmaArm f => Sys2Proof.Machine.execRmaArm f s
  | .rmaAmo f => Sys2Proof.Machine.execRmaAmo f s
  | .rmaWait f => Sys2Proof.Machine.execRmaWait f s
  | .rmaSend f => Sys2Proof.Machine.execRmaSend f s
  | .yaddF32 f => Sys2Proof.Machine.execYaddF32 f s
  | .ysubF32 f => Sys2Proof.Machine.execYsubF32 f s
  | .ymulF32 f => Sys2Proof.Machine.execYmulF32 f s
  | .yfmaF32 f => Sys2Proof.Machine.execYfmaF32 f s
  | .yaddBf16 f => Sys2Proof.Machine.execYaddBf16 f s
  | .ysubBf16 f => Sys2Proof.Machine.execYsubBf16 f s
  | .ymulBf16 f => Sys2Proof.Machine.execYmulBf16 f s
  | .yfmaBf16 f => Sys2Proof.Machine.execYfmaBf16 f s
  | .yaddI32 f => Sys2Proof.Machine.execYaddI32 f s
  | .ysubI32 f => Sys2Proof.Machine.execYsubI32 f s
  | .ymulI32 f => Sys2Proof.Machine.execYmulI32 f s
  | .ymacI32 f => Sys2Proof.Machine.execYmacI32 f s
  | .yminF32 f => Sys2Proof.Machine.execYminF32 f s
  | .ymaxF32 f => Sys2Proof.Machine.execYmaxF32 f s
  | .yminI32 f => Sys2Proof.Machine.execYminI32 f s
  | .ymaxI32 f => Sys2Proof.Machine.execYmaxI32 f s
  | .ycvtBf16F32 f => Sys2Proof.Machine.execYcvtBf16F32 f s
  | .ycvtF32Bf16 f => Sys2Proof.Machine.execYcvtF32Bf16 f s
  | .ycvtI32F32 f => Sys2Proof.Machine.execYcvtI32F32 f s
  | .ycvtF32I32 f => Sys2Proof.Machine.execYcvtF32I32 f s
  | .yand f => Sys2Proof.Machine.execYand f s
  | .yor f => Sys2Proof.Machine.execYor f s
  | .yxor f => Sys2Proof.Machine.execYxor f s
  | .yshf f => Sys2Proof.Machine.execYshf f s
  | .yrsumF32 f => Sys2Proof.Machine.execYrsumF32 f s
  | .yrmaxF32 f => Sys2Proof.Machine.execYrmaxF32 f s
  | .yrsumI32 f => Sys2Proof.Machine.execYrsumI32 f s
  | .yrmaxI32 f => Sys2Proof.Machine.execYrmaxI32 f s
  | .ybcast f => Sys2Proof.Machine.execYbcast f s
  | .yext f => Sys2Proof.Machine.execYext f s
  | .yins f => Sys2Proof.Machine.execYins f s
  | .ysel f => Sys2Proof.Machine.execYsel f s
  | .vaddF32 f => Sys2Proof.Machine.execVaddF32 f s
  | .vsubF32 f => Sys2Proof.Machine.execVsubF32 f s
  | .vmulF32 f => Sys2Proof.Machine.execVmulF32 f s
  | .vfmaF32 f => Sys2Proof.Machine.execVfmaF32 f s
  | .vminF32 f => Sys2Proof.Machine.execVminF32 f s
  | .vmaxF32 f => Sys2Proof.Machine.execVmaxF32 f s
  | .vabsF32 f => Sys2Proof.Machine.execVabsF32 f s
  | .vnegF32 f => Sys2Proof.Machine.execVnegF32 f s
  | .vaddBf16 f => Sys2Proof.Machine.execVaddBf16 f s
  | .vsubBf16 f => Sys2Proof.Machine.execVsubBf16 f s
  | .vmulBf16 f => Sys2Proof.Machine.execVmulBf16 f s
  | .vfmaBf16 f => Sys2Proof.Machine.execVfmaBf16 f s
  | .vminBf16 f => Sys2Proof.Machine.execVminBf16 f s
  | .vmaxBf16 f => Sys2Proof.Machine.execVmaxBf16 f s
  | .vabsBf16 f => Sys2Proof.Machine.execVabsBf16 f s
  | .vnegBf16 f => Sys2Proof.Machine.execVnegBf16 f s
  | .vaddF16 f => Sys2Proof.Machine.execVaddF16 f s
  | .vsubF16 f => Sys2Proof.Machine.execVsubF16 f s
  | .vmulF16 f => Sys2Proof.Machine.execVmulF16 f s
  | .vfmaF16 f => Sys2Proof.Machine.execVfmaF16 f s
  | .vminF16 f => Sys2Proof.Machine.execVminF16 f s
  | .vmaxF16 f => Sys2Proof.Machine.execVmaxF16 f s
  | .vabsF16 f => Sys2Proof.Machine.execVabsF16 f s
  | .vnegF16 f => Sys2Proof.Machine.execVnegF16 f s
  | .vaddI32 f => Sys2Proof.Machine.execVaddI32 f s
  | .vsubI32 f => Sys2Proof.Machine.execVsubI32 f s
  | .vmulI32 f => Sys2Proof.Machine.execVmulI32 f s
  | .vmacI32 f => Sys2Proof.Machine.execVmacI32 f s
  | .vminI32 f => Sys2Proof.Machine.execVminI32 f s
  | .vmaxI32 f => Sys2Proof.Machine.execVmaxI32 f s
  | .vabsI32 f => Sys2Proof.Machine.execVabsI32 f s
  | .vnegI32 f => Sys2Proof.Machine.execVnegI32 f s
  | .vaddI16 f => Sys2Proof.Machine.execVaddI16 f s
  | .vsubI16 f => Sys2Proof.Machine.execVsubI16 f s
  | .vmulI16 f => Sys2Proof.Machine.execVmulI16 f s
  | .vmacI16 f => Sys2Proof.Machine.execVmacI16 f s
  | .vminI16 f => Sys2Proof.Machine.execVminI16 f s
  | .vmaxI16 f => Sys2Proof.Machine.execVmaxI16 f s
  | .vabsI16 f => Sys2Proof.Machine.execVabsI16 f s
  | .vnegI16 f => Sys2Proof.Machine.execVnegI16 f s
  | .vaddI8 f => Sys2Proof.Machine.execVaddI8 f s
  | .vsubI8 f => Sys2Proof.Machine.execVsubI8 f s
  | .vmulI8 f => Sys2Proof.Machine.execVmulI8 f s
  | .vmacI8 f => Sys2Proof.Machine.execVmacI8 f s
  | .vminI8 f => Sys2Proof.Machine.execVminI8 f s
  | .vmaxI8 f => Sys2Proof.Machine.execVmaxI8 f s
  | .vabsI8 f => Sys2Proof.Machine.execVabsI8 f s
  | .vnegI8 f => Sys2Proof.Machine.execVnegI8 f s
  | .vcvtF32Bf16 f => Sys2Proof.Machine.execVcvtF32Bf16 f s
  | .vcvtF32F16 f => Sys2Proof.Machine.execVcvtF32F16 f s
  | .vcvtBf16F32 f => Sys2Proof.Machine.execVcvtBf16F32 f s
  | .vcvtF16F32 f => Sys2Proof.Machine.execVcvtF16F32 f s
  | .vcvtF32I32 f => Sys2Proof.Machine.execVcvtF32I32 f s
  | .vcvtI32F32 f => Sys2Proof.Machine.execVcvtI32F32 f s
  | .vcvtI16I32 f => Sys2Proof.Machine.execVcvtI16I32 f s
  | .vcvtI8I16 f => Sys2Proof.Machine.execVcvtI8I16 f s
  | .vqnt f => Sys2Proof.Machine.execVqnt f s
  | .vdq f => Sys2Proof.Machine.execVdq f s
  | .vscl f => Sys2Proof.Machine.execVscl f s
  | .vcomp f => Sys2Proof.Machine.execVcomp f s
  | .vexp2 f => Sys2Proof.Machine.execVexp2 f s
  | .vrcp f => Sys2Proof.Machine.execVrcp f s
  | .vrsq f => Sys2Proof.Machine.execVrsq f s
  | .vlog2 f => Sys2Proof.Machine.execVlog2 f s
  | .vcmpEqF32 f => Sys2Proof.Machine.execVcmpEqF32 f s
  | .vcmpLtF32 f => Sys2Proof.Machine.execVcmpLtF32 f s
  | .vcmpLeF32 f => Sys2Proof.Machine.execVcmpLeF32 f s
  | .vcmpNeF32 f => Sys2Proof.Machine.execVcmpNeF32 f s
  | .vcmpEqI32 f => Sys2Proof.Machine.execVcmpEqI32 f s
  | .vcmpLtI32 f => Sys2Proof.Machine.execVcmpLtI32 f s
  | .vcmpLeI32 f => Sys2Proof.Machine.execVcmpLeI32 f s
  | .vcmpNeI32 f => Sys2Proof.Machine.execVcmpNeI32 f s
  | .vand f => Sys2Proof.Machine.execVand f s
  | .vor f => Sys2Proof.Machine.execVor f s
  | .vxor f => Sys2Proof.Machine.execVxor f s
  | .vnot f => Sys2Proof.Machine.execVnot f s
  | .vshuf f => Sys2Proof.Machine.execVshuf f s
  | .vrot f => Sys2Proof.Machine.execVrot f s
  | .vbcst f => Sys2Proof.Machine.execVbcst f s
  | .vtrn f => Sys2Proof.Machine.execVtrn f s
  | .vsel f => Sys2Proof.Machine.execVsel f s
  | .vfill f => Sys2Proof.Machine.execVfill f s
  | .vmerge f => Sys2Proof.Machine.execVmerge f s
  | .vmask f => Sys2Proof.Machine.execVmask f s
  | .vrsumF32 f => Sys2Proof.Machine.execVrsumF32 f s
  | .vrmaxF32 f => Sys2Proof.Machine.execVrmaxF32 f s
  | .vrsumI32 f => Sys2Proof.Machine.execVrsumI32 f s
  | .vrmaxI32 f => Sys2Proof.Machine.execVrmaxI32 f s
  | .vld f => Sys2Proof.Machine.execVld f s
  | .vst f => Sys2Proof.Machine.execVst f s
  | .vldb f => Sys2Proof.Machine.execVldb f s
  | .vstm f => Sys2Proof.Machine.execVstm f s
  | .vmova f => Sys2Proof.Machine.execVmova f s
  | .vmovv f => Sys2Proof.Machine.execVmovv f s
  | .vsplat f => Sys2Proof.Machine.execVsplat f s
  | .viota f => Sys2Proof.Machine.execViota f s
  | .mmB8 f => Sys2Proof.Machine.execMmB8 f s
  | .mmI8 f => Sys2Proof.Machine.execMmI8 f s
  | .mmI4 f => Sys2Proof.Machine.execMmI4 f s
  | .mmBf16 f => Sys2Proof.Machine.execMmBf16 f s
  | .mmsB8 f => Sys2Proof.Machine.execMmsB8 f s
  | .mmsI8 f => Sys2Proof.Machine.execMmsI8 f s
  | .mmsBf16 f => Sys2Proof.Machine.execMmsBf16 f s
  | .spsel f => Sys2Proof.Machine.execSpsel f s
  | .arel f => Sys2Proof.Machine.execArel f s
  | .ard f => Sys2Proof.Machine.execArd f s
  | .awr f => Sys2Proof.Machine.execAwr f s
  | .azero f => Sys2Proof.Machine.execAzero f s
  | .osmUpd f => Sys2Proof.Machine.execOsmUpd f s
  | .osmMrg f => Sys2Proof.Machine.execOsmMrg f s
  | .osmFin f => Sys2Proof.Machine.execOsmFin f s
  | .osmRst f => Sys2Proof.Machine.execOsmRst f s
  | .lload f => Sys2Proof.Machine.execLload f s
  | .lpass f => Sys2Proof.Machine.execLpass f s
  | .lswap f => Sys2Proof.Machine.execLswap f s
  | .lstat f => Sys2Proof.Machine.execLstat f s
  | .vdot4I8 f => Sys2Proof.Machine.execVdot4I8 f s
  | .vdot4sI8 f => Sys2Proof.Machine.execVdot4sI8 f s
  | .vdot2I16 f => Sys2Proof.Machine.execVdot2I16 f s
  | .vdot2sI16 f => Sys2Proof.Machine.execVdot2sI16 f s
  | .winSig f => Sys2Proof.Machine.execWinSig f s
  | .winCmp f => Sys2Proof.Machine.execWinCmp f s
  | .winSkip f => Sys2Proof.Machine.execWinSkip f s
  | .winKeep f => Sys2Proof.Machine.execWinKeep f s
  | .winStep f => Sys2Proof.Machine.execWinStep f s
  | .winMap f => Sys2Proof.Machine.execWinMap f s
  | .winSet f => Sys2Proof.Machine.execWinSet f s
  | .winClr f => Sys2Proof.Machine.execWinClr f s
  | .cpyBox f => Sys2Proof.Machine.execCpyBox f s
  | .cpyMcast f => Sys2Proof.Machine.execCpyMcast f s
  | .cpyRed f => Sys2Proof.Machine.execCpyRed f s
  | .cpyLin f => Sys2Proof.Machine.execCpyLin f s
  | .barInit f => Sys2Proof.Machine.execBarInit f s
  | .barArrive f => Sys2Proof.Machine.execBarArrive f s
  | .barWait f => Sys2Proof.Machine.execBarWait f s
  | .barTest f => Sys2Proof.Machine.execBarTest f s
  | .jigLoad f => Sys2Proof.Machine.execJigLoad f s
  | .jigGo f => Sys2Proof.Machine.execJigGo f s
  | .jigStop f => Sys2Proof.Machine.execJigStop f s
  | .jigStat f => Sys2Proof.Machine.execJigStat f s
  | .wmSet f => Sys2Proof.Machine.execWmSet f s
  | .wmRd f => Sys2Proof.Machine.execWmRd f s
  | .clSend f => Sys2Proof.Machine.execClSend f s
  | .clChk f => Sys2Proof.Machine.execClChk f s
  | .chPut f => Sys2Proof.Machine.execChPut f s
  | .chGet f => Sys2Proof.Machine.execChGet f s
  | .chRed f => Sys2Proof.Machine.execChRed f s
  | .chStat f => Sys2Proof.Machine.execChStat f s
  | .splGrp f => Sys2Proof.Machine.execSplGrp f s
  | .splRst f => Sys2Proof.Machine.execSplRst f s
  | .splLdr f => Sys2Proof.Machine.execSplLdr f s
  | .splStat f => Sys2Proof.Machine.execSplStat f s
  | .ringSet f => Sys2Proof.Machine.execRingSet f s
  | .ringNext f => Sys2Proof.Machine.execRingNext f s
  | .ringSkip f => Sys2Proof.Machine.execRingSkip f s
  | .ringRd f => Sys2Proof.Machine.execRingRd f s
  | .anchor f => Sys2Proof.Machine.execAnchor f s
  | .mlatch f => Sys2Proof.Machine.execMlatch f s
  | .slipchk f => Sys2Proof.Machine.execSlipchk f s
  | .fcnt f => Sys2Proof.Machine.execFcnt f s
  | .seql f => Sys2Proof.Machine.execSeql f s
  | .seqlRead f => Sys2Proof.Machine.execSeqlRead f s
  | .bhalt f => Sys2Proof.Machine.execBhalt f s
  | .pause f => Sys2Proof.Machine.execPause f s
  | .bhdr f => Sys2Proof.Machine.execBhdr f s
  | .trap f => Sys2Proof.Machine.execTrap f s
  | .sysrd f => Sys2Proof.Machine.execSysrd f s
  | .syswr f => Sys2Proof.Machine.execSyswr f s
  | .eret f => Sys2Proof.Machine.execEret f s
  | .ext f => Sys2Proof.Machine.execExt f s

end Sys2Proof.Machine
end

