-- ==== Sys2Proof/Machine/WeaveIssue.lean ====
section
/-! DEFINITION. Issue of a weave group: fetch, legality, the syllables together (R23 to R27), and the replay unit
(R144). -/

namespace Sys2Proof.Machine

/-- What a syllable's word decodes to. -/
noncomputable def wordInstr (w : Nat) : Option Instr :=
  match decode w with
  | .ok i => some i
  | .error _ => none

/-- Run one syllable of a context; a reserved encoding is illegal (R69). -/
noncomputable def State.runSyl (s : State) (c addr w : Nat) : Host.Outcome State Fault Refusal :=
  let t := { s with ctl := { s.ctl with cur := .ctx c, syl := addr } }
  match wordInstr w with
  | some i => exec i t
  | none => finishW t c illegal

/-- Where a syllable's effect stands among those of its group, all of whose sources are read first (R25): what reads a pipe goes
before whatever pops or pushes, a drop before a push, a form that reads what no register holds before one that may change it, and a
change to a shared table, a close, or the end of a context after whatever else the group does (R134). -/
def performRank (w : Nat) : Nat :=
  match majOf w, xOf w with
  | 0x25, _ => 2
  | 0x38, 1 => 2
  | 0x38, 2 => 4
  | 0x38, 3 => 2
  | 0x39, 2 => 4
  | 0x39, 3 => 1
  | 0x39, _ => 0
  | 0x3A, 2 => 2
  | 0x3A, 3 => 2
  | 0x3C, 0 => 5
  | 0x3C, 2 => 2
  | 0x3C, 3 => 2
  | 0x3D, 2 => 2
  | 0x77, 0 => 4
  | 0x77, 2 => 4
  | 0x77, _ => 2
  | 0x79, 3 => 2
  | 0x7A, 0 => 4
  | 0x7A, 2 => 4
  | 0x7A, _ => 2
  | _, _ => 3

/-- The pipes of a context's gang with nothing in them, so that no pop can be performed. -/
def State.starved (s : State) (c : Nat) : State :=
  match s.gangOf c with
  | some g => s.setGang (s.ctx c).gang { g with pipes := g.pipes.map (fun p => { p with entries := [], pclosed := false, cclosed := false }) }
  | none => s

/-- Whether a QPEEK's port has an entry for it; where it cannot be one's own to read, nothing holds it up (R139). -/
def State.peekFlows (s : State) (c q : Nat) : Bool :=
  match s.conPipe c q with
  | some (_, p) => p.popFate 1 == .ok
  | none => true
/-- Whether a syllable's pops and push can all be performed, and what a QPEEK reads is there (R117, R139). -/
def State.flows (s : State) (c w : Nat) : Bool :=
  match sigW (majOf w) (xOf w) with
  | none => true
  | some g =>
    if majOf w != 0x16 && !(s.ctx c).guard (grdOf w) then true
    else match s.gate c (srcFields g (dOf w) (aOf w) (bOf w)) (dstFields g (dOf w)) with
      | .ok _ => majOf w != 0x39 || xOf w != 0 || s.peekFlows c (aOf w)
      | .error _ => false

/-- Whether a syllable pops. -/
def popsAny (w : Nat) : Bool :=
  match sigW (majOf w) (xOf w) with
  | none => false
  | some g => (srcFields g (dOf w) (aOf w) (bOf w)).any isQ

/-- Whether a syllable's trap depends on a value still to be popped while the group's other syllable `v` cannot flow: it is
not tested yet (R117). One that pops nothing has no such trap. -/
noncomputable def State.undecided (s : State) (c a w v : Nat) : Bool :=
  popsAny w && !s.flows c v && s.flows c w && (match (s.starved c).runSyl c a w with
    | .next t => t.ctl.verdict == .waiting
    | _ => false)

/-- The arrivals of the GBARs of a group of two that no pipe holds up. -/
noncomputable def State.barArrivals (s : State) (c a w : Nat) : State :=
  match wordInstr w with
  | some (.gbar t) => if (s.ctx c).guard t.g then s.gbarArrive c a t else s
  | _ => s

/-- The syllable performed second, in the state `u` that the first leaves: a WFE reads, as all sources are read first, none of the
events that its own group posts (R25, R102). -/
noncomputable def State.runSecond (s u : State) (c a w : Nat) : Host.Outcome State Fault Refusal :=
  if majOf w = 0x25 ∧ (u.ctx? c).isSome then
    match (u.modCtx c (fun x => { x with evnew := (s.ctx c).evnew })).runSyl c a w with
    | .next v => .next (v.modCtx c (fun x => { x with evnew := x.evnew ||| ((u.ctx c).evnew &&& ~~~(s.ctx c).evnew) }))
    | r => r
  else u.runSyl c a w
/-- Both effects, in the order of their ranks; should the second then no longer find what it found, in the other order. -/
noncomputable def State.runBoth (s : State) (c a0 w0 a1 w1 : Nat) : Host.Outcome State Fault Refusal :=
  let go (a w b v : Nat) : Host.Outcome State Fault Refusal := match s.runSyl c a w with
    | .next u => s.runSecond u c b v
    | r => r
  let swap := decide (performRank w1 < performRank w0)
  let r := if swap then go a1 w1 a0 w0 else go a0 w0 a1 w1
  match r with
  | .next u => if u.ctl.verdict == .retired then .next u else if swap then go a0 w0 a1 w1 else go a1 w1 a0 w0
  | o => o

/-- Whether a syllable waits for tensor SRAM, at which its access may still trap (R106, R107, R260, R318). -/
def State.accessWaits (s : State) (c : Nat) : Bool :=
  s.ctl.verdict == .waiting && (match (s.ctx c).wait with
    | some (.port _) => true
    | some .watermark => true
    | _ => false)
/-- Two syllables as one step (R25, R26, R117, R134): a trap that can be decided, of the first before the second, which waits while the
first's access may still trap; then a stall, then any other wait, in which the arrivals of GBARs stand, else both effects. -/
noncomputable def State.runPair (s : State) (c a0 w0 a1 w1 : Nat) : Host.Outcome State Fault Refusal :=
  match s.runSyl c a0 w0, s.runSyl c a1 w1 with
  | .next u, .next v =>
    let ends (t : State) : Bool := t.ctl.verdict == .trapped || t.ctl.verdict == .faulted
    if ends u && !s.undecided c a0 w0 w1 then .next u
    else if ends v && !s.undecided c a1 w1 w0 then .next (if u.accessWaits c then u else v)
    else if !s.flows c w0 then .next u
    else if !s.flows c w1 then .next v
    else
      let t := (s.barArrivals c a0 w0).barArrivals c a1 w1
      match t.runSyl c a0 w0, t.runSyl c a1 w1 with
      | .next u1, .next v1 =>
        if u1.ctl.verdict == .waiting && ((u1.ctx c).wait != some .gwait || v1.ctl.verdict != .waiting) then .next u1
        else if v1.ctl.verdict == .waiting then .next v1
        else t.runBoth c a0 w0 a1 w1
      | .next _, r => r
      | r, _ => r
  | .next _, r => r
  | r, _ => r

/-- An EXT and the syllable it extends (R62). -/
noncomputable def State.runExt (s : State) (c a0 w0 a1 w1 : Nat) : Host.Outcome State Fault Refusal :=
  match s.runSyl c a0 w0 with
  | .next u => u.runSyl c a1 w1
  | r => r

/-- A group that its pipes hold up performs no access, and meets the conditions of one at once (R117): among them the window of a
mortise, which a group that flows meets when the port performs its access (R260). It stands so as a group that waits. -/
def State.testing (s : State) (c : Nat) (ws : List (Nat × Nat)) : State :=
  if ws.all (fun p => s.flows c p.2) then s else s.modCtx c (fun x => { x with granted := true, wait := some (.pipe false) })

/-- The syllables of a legal group. -/
noncomputable def State.runGroup (s0 : State) (c : Nat) (ws : List (Nat × Nat)) : Host.Outcome State Fault Refusal :=
  let s := s0.testing c ws
  match ws with
  | [p] => s.runSyl c p.1 p.2
  | [p, q] => if isExt p.2 then s.runExt c p.1 p.2 q.1 q.2 else s.runPair c p.1 p.2 q.1 q.2
  | _ => .next s

/-- The context as it begins a group: not waiting, the PC past the group (R92). -/
def State.beginGroup (s : State) (c pc after : Nat) : State :=
  { s.modCtx c (fun x => { x with wait := none, pc := BitVec.ofNat 64 after, jumped := x.jumped && after == pc }) with
      ctl := { s.ctl with cur := .ctx c, group := pc, link := after, ext := none } }

/-- A context that a yield waits for has issued (R147). -/
def Wait.issued (c : Nat) : Wait → Wait
  | .yield others => .yield (others.filter (fun i => i != c))
  | w => w
/-- Yields on a core no longer wait for a context. -/
def State.tellYields (s : State) (c : Nat) : State :=
  { s with weave := { s.weave with ctxs := s.weave.ctxs.map (fun (e : Nat × Ctx) =>
    (e.1, if coreOf e.1 = coreOf c ∧ e.1 ≠ c then { e.2 with wait := e.2.wait.map (Wait.issued c) } else e.2)) } }

/-- A core has issued a context's group: its slot issued last (R129), and no yield waits for it any more (R147). -/
def State.tookSlot (s : State) (c : Nat) : State := (s.tellYields c).modCore (coreOf c) (fun k => { k with last := slotOf c })
/-- What the end of a group's issue leaves: the slot that issued last (R129), and no trace of a wait; a group that traps takes its
GBARs' arrivals back. A group that has issued and waits takes the cycle's issue as well (DEDUCED, log 69); one that stalls does not. -/
def State.endGroup (s : State) (c : Nat) : State :=
  match s.ctl.verdict with
  | .waiting => if ((s.ctx c).wait.map Wait.hasIssued).getD false then (s.tookSlot c).verdict .issued else s
  | _ =>
    let s0 := if s.ctl.verdict == .retired then s else s.withdrawAll c
    let t := s0.tookSlot c
    match t.ctx? c with
    | some x =>
      let y := match x.wait with
        | some (.yield _) => some s.ctl.now
        | _ => none
      t.setCtx c { x with since := y, arrived := [], granted := false, elems := none }
    | none => t

/-- A group whose second syllable cannot be fetched: what its first raises by itself, which is the one reported (R26), or the wait of its
access, which may still trap. -/
noncomputable def State.firstEnds (s : State) (c pc : Nat) : Option State :=
  match s.segOf c pc with
  | .error _ => none
  | .ok g => match s.fetchSyl c g pc with
    | .error _ => none
    | .ok (w, t) =>
      if sOf w || isExt w then none
      else match (t.testing c [(pc, w)]).runSyl c pc w with
        | .next u => if u.ctl.verdict == .trapped || u.ctl.verdict == .faulted || u.accessWaits c then some u else none
        | _ => none

/-- A context issues the group at its PC. -/
noncomputable def State.issueGroup (s : State) (c : Nat) : Host.Outcome State Fault Refusal :=
  match s.ctx? c with
  | none => .next s
  | some x =>
    let pc := x.pc.toNat
    let s0 := s.beginGroup c pc pc
    let r : Host.Outcome State Fault Refusal := match s0.fetchGroup c pc with
      | .error e =>
        let r := finishW s0 c (.error e)
        (match e with
          | .cause code _ _ => if code = cIllegal then r else ((s0.firstEnds c pc).map .next).getD r
          | _ => ((s0.firstEnds c pc).map .next).getD r)
      | .ok (ws, g, s1) =>
        let after := pc + 4 * ws.length
        let s2 := (s1.beginGroup c pc (s1.afterSeg c g after))
        if groupLegal (ws.map (·.2)) then s2.runGroup c ws else finishW s2 c illegal
    match r with
    | .next t => .next ((if t.ctl.verdict = .waiting then t.modCtx c (fun y => { y with jumped := x.jumped }) else t).endGroup c)
    | o => o

/-- The state in which a core has taken no issue slot since `s`. -/
def State.sameTurn (s t : State) (core : Nat) : State := t.modCore core (fun k => { k with last := (s.core core).last })
/-- A context's group that has issued and waits tries to end: the slot that issued last is as it was (R129; DEDUCED, log 69). In a
launch that a fault ends at this tick, only a further cause is seen to (R369, R371). -/
noncomputable def State.finishGroup (s : State) (c : Nat) : Host.Outcome State Fault Refusal :=
  match s.issueGroup c with
  | .next t =>
    if s.launchFaults (s.ctx c) ≠ 0 ∧ t.launchFaults (s.ctx c) ≤ s.launchFaults (s.ctx c) then .next s
    else .next (s.sameTurn t (coreOf c))
  | r => r

/-- A group that stalls on its pipes meets its trapping conditions in each cycle, also in one in which its core issues before its turn
comes (R117); it takes no issue slot so (DEDUCED, log 69). -/
noncomputable def State.testGroup (s : State) (c : Nat) : Host.Outcome State Fault Refusal :=
  match s.finishGroup c with
  | .next t => .next (if t.ctl.verdict = .trapped ∨ t.ctl.verdict = .faulted then t else s)
  | r => r

/-- The replay unit runs the next group of a context's block (R144): the PC and the group in progress are not touched. -/
noncomputable def State.runReplay (s : State) (c : Nat) : Host.Outcome State Fault Refusal :=
  match (s.ctx c).replay with
  | none => .next s
  | some r =>
    let strided := r.words.map (strideWord r.fm (r.k * r.stride))
    let rest := (List.range r.words.length).zip strided |>.drop r.pos
    let len := ((rest.findIdx? (fun w => sOf w.2)).getD 0) + 1
    let ws := (rest.take len).map (fun p => (r.addr + 4 * p.1, p.2))
    let s1 := { s with ctl := { s.ctl with group := r.addr + 4 * r.pos, ext := none } }
    match s1.runGroup c ws with
    | .next t =>
      let r1 := { r with pos := r.pos + len }
      let r2 := if r1.words.length ≤ r1.pos then { r1 with pos := 0, k := r.k + 1 } else r1
      .next (t.modCtx c (fun x => { x with replay := if r.count < r2.k then none else some r2 }))
    | o => o

end Sys2Proof.Machine
end

