-- ==== Sys2Proof/Machine/FrameIssue.lean ====
section
/-! DEFINITION. Issue of a bundle: the nullifier, anchors, and the slots together (R66, R67, R99, R159, R167, R168, R322). -/

namespace Sys2Proof.Machine

/-! ### The slots of a bundle -/

/-- Run one slot's syllable; a reserved encoding is illegal (R69). -/
noncomputable def State.runSlot (s : State) (b : Nat) (x : SlotSyl) : Host.Outcome State Fault Refusal :=
  let t := { s with ctl := { s.ctl with cur := .slot b x.name, syl := x.addr, ext := x.ext } }
  match wordInstr x.word with
  | some i => exec i t
  | none => finishF' t b illegal

/-- Whether a slot raised a class-P cause: no slot of its bundle then has any effect (R67). -/
def State.trappedSince (s u : State) : Bool := (u.frame.faults.drop s.frame.faults.length).any (fun f => decide (f.code < 0x20))
/-- What the earliest slot that would trap does (R67). -/
noncomputable def State.trapIn (s : State) (b : Nat) : List SlotSyl → Option (Host.Outcome State Fault Refusal)
  | [] => none
  | x :: xs =>
    match s.runSlot b x with
    | .next u => if s.trappedSince u then some (.next u) else s.trapIn b xs
    | r => some r
/-- The slots' effects. Every source is a register, which no slot writes before its result lands, so their order tells
only between draws of one counter (R51). -/
noncomputable def State.runSlots (s : State) (b : Nat) : List SlotSyl → Host.Outcome State Fault Refusal
  | [] => .next s
  | x :: xs =>
    match s.runSlot b x with
    | .next u => u.runSlots b xs
    | r => r

def isHaltSyl (w : Nat) : Bool := majOf w == 0x7D && xOf w == 1
/-- The slots in the order in which their effects are made: an anchor first, so that the bundle's other slots count from
its tick (R169); LOOPK or LOOPE after the slots that read the guards and the renaming as they stood (R99). -/
def effectOrder (ss : List SlotSyl) : List SlotSyl :=
  let isA (x : SlotSyl) : Bool := x.name == .c && isAnchorSyl x.word
  ss.filter isA ++ ss.filter (fun x => !isA x && !isKernelForm x.word && !isHaltSyl x.word) ++
    ss.filter (fun x => isKernelForm x.word)
/-- BHALT ends the block after the bundle's other effects; its guard is read as it stood before them. -/
noncomputable def State.runHalt (s : State) (b : Nat) (before : BitVec 16) : List SlotSyl → Host.Outcome State Fault Refusal
  | [] => .next s
  | x :: _ =>
    let g := (s.bench b).g
    match (s.modBench b (fun k => { k with g := before })).runSlot b x with
    | .next u => .next (u.modBench b (fun k => { k with g := g }))
    | r => r

/-- A legal bundle takes effect (R67). -/
noncomputable def State.runBundle (s : State) (b addr link : Nat) (ws : List Nat) (ss : List SlotSyl) :
    Host.Outcome State Fault Refusal :=
  let s0 := { s with ctl := { s.ctl with cur := .header b, group := addr, syl := addr, link := link, ext := none } }
  match wordInstr (ws.getD 0 0) with
  | none => finishF' s0 b illegal
  | some i =>
    match exec i s0 with
    | .next t =>
      match t.trapIn b ss with
      | some r => r
      | none =>
        match t.runSlots b (effectOrder ss) with
        | .next u => u.runHalt b (t.bench b).g (ss.filter (fun x => isHaltSyl x.word))
        | r => r
    | r => r

/-! ### Issue -/

/-- After a BHALT in a segment whose NEXT is not 0, which gave the prefetch engine NEXT to expand, it begins the first segment of the
bench's next entry, as it does at the first issue from a segment whose NEXT is 0 (R159 names no tick here: DESIGN CHOICE, log 74). -/
def State.feedNext (s : State) (b : Nat) : State :=
  let k := s.bench b
  match s.frame.launch with
  | none => s
  | some l => match nextEntry l.entries b k.entry with
    | none => s
    | some i =>
      if k.busy || (k.halfNow.map (fun h => h.next == 0)).getD true then s
      else s.beginPrefetch b (s.entrySeg i)

/-- What an anchor says of a bundle at the present FCNT. -/
inductive Anchoring where
  | go | wait | past
  deriving DecidableEq, Repr

/-- An elastic bundle goes; an anchored one waits for its tick, goes at it outside a hold, and is too late after it (R167,
R170). -/
def State.anchoring (s : State) (k : Bench) (ss : List SlotSyl) : Anchoring :=
  match anchorTick k.release k.lastAnchor ss with
  | none => .go
  | some t =>
    if t < s.frame.fcnt.toNat then .past
    else if t = s.frame.fcnt.toNat ∧ s.frame.causes = [] then .go
    else .wait

/-- The address of the next bundle's BHDR: past the end of a segment, the first of NEXT (R74, R92, R97). -/
def State.linkOf (s : State) (b : Nat) (h : Half) (after : Nat) : Nat :=
  if after = h.body + 4 * h.nsyl ∧ h.next ≠ 0 then ((s.chained b (s.bench b) h.next).map (·.body)).getD after else after
/-- How a legal bundle is run: bench, address of the BHDR, next address, words and slots. -/
abbrev RunsBundle := State → Nat → Nat → Nat → List Nat → List SlotSyl → Host.Outcome State Fault Refusal
/-- The bundle at the place that the nullifier reached. -/
noncomputable def State.issueAt (s : State) (run : RunsBundle) (b : Nat) (p : Place) : Host.Outcome State Fault Refusal :=
  let k := s.bench b
  let t := s.setBench b (k.stand p.half p.addr)
  match tget k.halves p.half with
  | none => .next (t.benchFault b p.addr cFetch p.addr 0)
  | some h => match h.bundle p.addr with
    | .error (.cause code faddr info) => .next (t.benchFault b p.addr code faddr info)
    | .error _ => .next t
    | .ok ws => match bundleSlots p.addr ws with
      | none => .next (t.benchFault b p.addr cIllegal 0 0)
      | some ss => match t.anchoring (t.bench b) ss with
        | .wait => .next t
        | .past => .next (t.benchFault b p.addr cTimed 0 0)
        | .go =>
          let after := p.addr + 4 * ws.length
          let u := (t.feed b).modBench b (fun q => { q with pc := after })
          match run u b p.addr (u.linkOf b h after) ws ss with
          | .next u => .next (u.feedNext b)
          | r => r

/-- A bench's turn to issue at a tick: the nullifier removes what it may, then at most one bundle issues (R167, R168). -/
noncomputable def State.issueBy (s : State) (run : RunsBundle) (b : Nat) : Host.Outcome State Fault Refusal :=
  let k := s.bench b
  if !k.busy || decide (k.tick < k.bubble) then .next s
  else
    let r := k.examine 4 ⟨k.half, k.pc⟩
    if r.2 then s.issueAt run b r.1 else .next (s.setBench b (k.stand r.1.half r.1.addr))

noncomputable def State.issueBundle (s : State) (b : Nat) : Host.Outcome State Fault Refusal := s.issueBy State.runBundle b

/-- The template bundle of a running jig (R322). Its slots' addresses count from 0, as no segment holds them. -/
noncomputable def State.templateBy (s : State) (run : RunsBundle) (b : Nat) : Host.Outcome State Fault Refusal :=
  let ws := (s.bench b).jig.bundle
  match bundleSlots 0 ws with
  | none => .next (s.benchFault b 0 cIllegal 0 0)
  | some ss => run s b 0 0 ws ss
noncomputable def State.issueTemplate (s : State) (b : Nat) : Host.Outcome State Fault Refusal := s.templateBy State.runBundle b

/-! ### Ownership windows that open at the tick (R384) -/

/-- The causes that `u` has beyond `s`, of the ownership windows alone. -/
def State.ownedSince (s u : State) : List FaultCause := (u.frame.faults.drop s.frame.faults.length).filter (fun f => f.code == cOwner)
/-- What a bundle's slots meet when each is the last of them, so that it sees the windows that the others open at this tick; nothing else
takes effect. -/
noncomputable def State.runOwned : RunsBundle := fun s b addr link ws ss =>
  let s0 := { s with ctl := { s.ctl with cur := .header b, group := addr, syl := addr, link := link, ext := none } }
  match wordInstr (ws.getD 0 0) with
  | none => .next s
  | some i => match exec i s0 with
    | .next t =>
      let xs := (effectOrder ss).filter (fun x => !isKernelForm x.word)
      let met (x : SlotSyl) : List FaultCause := match t.runSlots b (xs.filter (fun y => y.name != x.name)) with
        | .next u => (match u.runSlot b x with
          | .next v => u.ownedSince v
          | _ => [])
        | _ => []
      .next (if (t.trapIn b ss).isSome then s else { s with frame := { s.frame with faults := s.frame.faults ++ xs.flatMap met } })
    | _ => .next s

end Sys2Proof.Machine
end

