-- ==== Sys2Proof/Machine/Tick.lean ====
section
/-! DEFINITION. What happens at a tick of the arithmetic clock, and in which order (R5, R31, R129, R161, R166 to R172, R179 to R183,
R207): events that came from outside, the frame plane's tick, the weave plane's cycle, the end of both. Each phase puts its events and
issues on the agenda; `State.act` takes the next of them. -/

namespace Sys2Proof.Machine

/-! ### Agenda -/

def insertBy {α : Type} (before : α → α → Bool) (a : α) : List α → List α
  | [] => [a]
  | b :: l => if before a b then a :: b :: l else b :: insertBy before a l
def sortBy {α : Type} (before : α → α → Bool) (l : List α) : List α := l.foldl (fun m a => insertBy before a m) []

/-- Whether an event may take place now. -/
def State.may (s : State) (i : Instr) : Bool :=
  match exec i s with
  | .next _ => true
  | _ => false
/-- Those of a list of events that may take place now. -/
def State.offer (s : State) (l : List Instr) : List Act := (l.filter s.may).map .event
def events (l : List Instr) : List Act := l.map .event

/-- Numbers of the phases; from `phIssue` on, 16 × core + turns taken. -/
def phAdmin : Nat := 1
def phFrame : Nat := 2
def phCauses : Nat := 3
def phHold : Nat := 4
def phLand : Nat := 5
def phSwap : Nat := 6
def phPause : Nat := 7
def phEvents : Nat := 8
def phBundles : Nat := 9
def phRequests : Nat := 10
def phSlots : Nat := 11
def phStores : Nat := 12
def phWeave : Nat := 13
def phEnds : Nat := 14
def phReady : Nat := 15
def phPlace : Nat := 16
def phFrameDone : Nat := 17
def phAdvance : Nat := 18
def phEnd : Nat := 19
def phClock : Nat := 20
def phTurns : Nat := 16384
def State.plans (s : State) (as : List Act) (n : Nat) : State := s.push (as ++ [.phase n])
/-- The rest of a tick in which the frame plane takes no part, or takes part no more. -/
def noFrame : List Act := [.phase phWeave, .phase phEnd]

/-! ### Before the planes -/

/-- What came from outside comes about first. -/
def State.planStart (s : State) : State :=
  ({ s with ctl := { s.ctl with inbox := [] } }).plans (events s.ctl.inbox) phAdmin

/-- Commands on connections and fetched contexts; segments that are ready, the aligned start, and the frame plane's next launch. -/
def State.planAdmin (s0 : State) : State :=
  let s := s0.ccFinish
  let fetched := (keysWhere s.eng.conns (fun _ k => k.fetchAt.any (fun t => decide (t ≤ s.ctl.now)))).map
    (fun c => Instr.connectionContextFetch c (Config.contextFetched s.ctl.now c))
  let segs := (keysWhere s.frame.benches (fun _ k => k.halves.any (fun h => !h.2.ready && decide (h.2.readyAt ≤ s.ctl.now)))).map
    Instr.segmentReady
  let go := !s.frameRuns && !s.planeWaits
  let next := if !go then []
    else match s.host.resuming with
      | (q, save) :: _ => [Instr.resume q save]
      | [] => (s.nextFrame.map Instr.frameLaunchSetup).toList
  (if go then s.modHost (fun h => { h with resuming := h.resuming.drop 1 }) else s).plans
    (events fetched ++ events segs ++ s.offer [.alignedStart] ++ events next) phFrame

/-! ### The frame plane's tick -/

def State.tsqFrame (s : State) : Bool := (s.frame.launch.map (·.tsq)).getD false
/-- Whether this arithmetic tick is one of the three between two frame ticks of a try-square launch: nothing issues, and FCNT does not
advance (R183). -/
def State.betweenTicks (s : State) : Bool := s.tsqFrame && decide (s.frame.sub ≠ 0)
/-- The launch ends at the F of a notice from its domain; what it wrote from F on is discarded (R373, R400). -/
def State.remoteEnd (s : State) : Option (Nat × Nat) := s.frame.endAt.filter (fun e => decide (e.1 ≤ s.frame.fcnt.toNat))

/-- Whether FCNT stands at the first tick of a frame (R161). -/
def State.newFrame (s : State) : Bool := (s.frame.launch.map (fun l => s.frame.fcnt.toNat % l.flen == 0)).getD false
/-- A frame tick begins, or in try-square mode one of the three arithmetic ticks between two of them passes (R183). The causes of
holds are tested once at each FCNT (R170). -/
def State.planFrame (s : State) : State :=
  if !s.frame.running then s.settle.push noFrame
  else if s.betweenTicks then (s.modFrame (fun f => { f with sub := (f.sub + 1) % 4 })).push noFrame
  else
    let t := s.modFrame (fun f => { f with sub := 1 })
    match s.remoteEnd with
    | some (f, port) => ((t.unwrite f).faultEnd (remoteFault port) 1 f).push noFrame
    | none =>
      if s.frame.tested then t.plans (t.offer [.remoteHold]) phHold
      else t.plans ((if s.newFrame then [.event .frameStart] else []) ++
        events (((s.frame.benches.map (·.1)).filter s.anchorDue).map Instr.anchorLate)) phCauses

/-- Open mortises that close at the present FCNT (R179). -/
def State.closing (s : State) : List Nat :=
  sortBy (fun a b => decide (a < b)) (s.frame.openM.filter (fun m => match s.frame.launch, s.mortise? m with
    | some l, some r => s.frame.fcnt.toNat % l.flen == r.close % l.flen
    | _, _ => false))
/-- Timetable entries released at the present FCNT. -/
def State.releases (s : State) : List Nat :=
  (List.range ((s.frame.launch.map (fun l => l.entries.length)).getD 0)).filter s.releaseNow
/-- Copies in the order of their acceptance (R313). -/
def byAcceptance (l : List (Nat × Copy)) : List (Nat × Copy) :=
  sortBy (fun (a b : Nat × Copy) => decide (a.2.accepted < b.2.accepted) || (a.2.accepted == b.2.accepted &&
      (decide (a.2.bench < b.2.bench) || (a.2.bench == b.2.bench && decide (a.1 < b.1))))) l
/-- Copies due and not landed. -/
def State.dueCopies (s : State) : List (Nat × Copy) :=
  byAcceptance (s.frame.copies.filter (fun (c : Nat × Copy) => decide (c.2.due ≤ s.frame.fcnt.toNat) && !c.2.counted))

/-- Copies whose data are due and absent (R171). -/
def State.lateCopies (s : State) : List (Nat × Copy) :=
  byAcceptance (s.frame.copies.filter (fun (c : Nat × Copy) => c.2.absent s.frame.fcnt.toNat))
/-- Releases of the present FCNT, by bench and entry, ascending. -/
def State.releasing (s : State) : List (Nat × Nat) :=
  sortBy (fun (a b : Nat × Nat) => decide (a.1 < b.1))
    (s.releases.flatMap (fun e => (benchesOf (s.entryMask e)).map (fun b => (b, e))))
/-- FETCH_LATE for each release whose first segment is not ready (R171). -/
def State.testFetch (s : State) : State :=
  (s.releasing.filter (fun p => ((s.bench p.1).firstHalf (s.entrySeg p.2)).isNone)).foldl
    (fun t p => t.addCause 5 256 p.2 (256 * p.2 + p.1) 0) s
/-- The causes that the present FCNT finds, after ANCHOR_LATE, in ascending code and bench (R170 to R172). The index of a RELEASE_OVERRUN
is that of the entry released (DESIGN CHOICE, log 81). -/
def State.testCauses (s : State) : State :=
  let s1 := (s.releasing.filter (fun p => (s.bench p.1).busy)).foldl (fun t p => t.addCause 2 p.1 p.2 p.1 0) s
  let s2 := (s.lateCopies).foldl (fun t c => t.addCause 3 256 0 (aboutCopy c.1) 0) s1
  let links := (s.frame.lateLinks.filter (fun e => decide (e.2 ≤ s.frame.fcnt.toNat))).map (·.1)
  let s3 := links.eraseDups.foldl (fun t ch => t.addCause 3 256 0 (aboutChannel ch) 0) s2
  let s4 := (s.closing.filter s.lacksTenon).foldl State.holdTenon s3
  s4.testFetch.modFrame (fun f => { f with tested := true })
def State.planCauses (s : State) : State :=
  let t := s.testCauses
  t.plans (t.offer [.remoteHold]) phHold

/-- While a cause remains the tick is a hold tick; else it ends the hold, if there was one (R170, R173). A block whose first segment is no
longer there when an overrun ends falls to FETCH_LATE then (DEDUCED, log 82). -/
def State.planHold (s : State) : State :=
  let t0 := s.modFrame (fun f => { f with causes := f.causes.filter s.remains })
  let t := if t0.frame.causes.isEmpty then t0.testFetch else t0
  if t.frame.causes.isEmpty then t.plans (t.offer [.holdEnd]) phLand
  else
    let u := t.holdTick
    u.plans (u.offer [.holdTimeout]) phLand

def State.running (s : State) : List Nat := (s.frame.benches.map (·.1)).filter s.runs

/-- Landings: what is due, then each bench's results, tiles and winnow copies. -/
def State.planLand (s : State) : State :=
  let bs := s.running
  let timed := if s.frame.causes.isEmpty then
      ((keysWhere s.frame.channels (fun _ c => c.flying.any (fun e => decide (e.1 ≤ s.frame.fcnt.toNat)) ||
          c.inbound.any (fun e => decide (e.1 ≤ s.frame.fcnt.toNat)))).map
        (fun ch => Instr.channelEntryLanding ch none)) ++ s.dueCopies.map (fun c => Instr.copyLanding c.2.bench c.1)
    else []
  let passed := if s.frame.causes.isEmpty then (s.offer ((List.range Config.benches).map Instr.lpassLanding)) else []
  s.plans (events timed ++ s.offer (bs.map Instr.resultLanding) ++ s.offer (bs.map Instr.matrixResultLanding) ++
    s.offer (bs.map Instr.latchLanding) ++ passed ++ s.offer (bs.map Instr.winnowCopyLanding)) phSwap
/-- Exchanges of latches land after the tiles of their tick (R221). -/
def State.planSwap (s : State) : State :=
  (s.running.foldl (fun t b => t.modBench b (fun k => k.land Effect.isSwap)) s).push
    [.phase (if s.frame.causes.isEmpty then phPause else phBundles)]

/-- A pause falls before what the schedule places at its tick (R378). -/
def State.planPause (s : State) : State :=
  if s.pauseNow then s.push (.event .framePause :: noFrame) else s.plans (s.offer [.nopause]) phEvents

/-- The events that the schedule places at a tick. -/
def State.planEvents (s : State) : State :=
  match s.frame.launch with
  | none => s.push noFrame
  | some l =>
    let phi := s.frame.fcnt.toNat % l.flen
    let inFrame := decide (s.frame.fcnt.toNat / l.flen < l.nframes)
    let opens := (List.range l.morts.length).filter (fun m =>
      inFrame && ((s.mortise? m).map (fun r => r.open_ == phi)).getD false)
    s.plans (s.offer [.frameClockChange] ++
      events (s.closing.map (fun m => if s.frame.tenonHeld.contains m then .holdLatch m else .mortiseClose m)) ++
      events (opens.map Instr.mortiseOpen) ++ events (s.releases.map Instr.blockRelease)) phBundles

/-- The engines' requests of a tick, bench by bench (R268, R312). -/
def State.requests (s : State) : List Instr :=
  let t := s.frame.fcnt.toNat
  let cs := s.frame.copies.filter (fun (c : Nat × Copy) => s.runs c.2.bench &&
    !((c.2.arm t (s.bench c.2.bench).tick).dueRequests (s.bench c.2.bench).tick).isEmpty)
  let sorted := sortBy (fun (a b : Nat × Copy) => decide (a.2.bench < b.2.bench) || (a.2.bench == b.2.bench && decide (a.1 < b.1))) cs
  sorted.map (fun c => Instr.copyGranuleRequest c.2.bench c.1)
/-- Frame slots that start at this tick, none in a hold (R266 to R268). -/
def State.slotStarts (s : State) : List Instr :=
  let hit (k : Nat) : Bool := s.frame.copies.any (fun (c : Nat × Copy) => c.2.grans.any (fun g =>
    stackOf g.pa == k && g.slotAt == some s.frame.fcnt.toNat && !g.taken))
  if s.frame.causes.isEmpty then ((List.range 12).filter hit).map Instr.frameSlotStart else []
/-- Bundles and jig iterations of a tick. -/
def State.issues (s : State) : List Act :=
  let bs := s.running
  (bs.filter (fun b => (s.bench b).busy)).map Act.bundle ++
    (bs.filter (fun b => (s.bench b).jig.falls (s.bench b).tick)).map (fun b => Act.event (.jigIteration b))

/-- The state that an act of a tick's issue leaves, with the template bundle that an iteration calls for. -/
noncomputable def State.tried (s : State) (a : Act) : State :=
  let after (r : Host.Outcome State Fault Refusal) : State := match r with
    | .next t => t
    | _ => s
  match a with
  | .bundle b => after (s.issueBundle b)
  | .event (.jigIteration b) =>
    let t := after (execJigIteration b s)
    if t.ctl.agenda.length = s.ctl.agenda.length then t
    else match t.issueTemplate b with
      | .next u => { u with ctl := { u.ctl with agenda := s.ctl.agenda } }
      | _ => t
  | .event i => after (exec i s)
  | _ => s
/-- The accesses of an act that fall in ownership windows, when every other issue of the tick has opened those that it opens. -/
noncomputable def State.ownedBy (s : State) (a : Act) : List FaultCause :=
  let after (r : Host.Outcome State Fault Refusal) : List FaultCause := match r with
    | .next t => s.ownedSince t
    | _ => []
  match a with
  | .bundle b => after (s.issueBy State.runOwned b)
  | .event (.jigIteration b) =>
    after (match execJigIteration b s with
      | .next t => if t.ctl.agenda.length = s.ctl.agenda.length then .next t else t.templateBy State.runOwned b
      | r => r)
  | _ => []
/-- In try-square mode an access falls in the windows that open at its own tick as well, whatever the order of the tick's issues (R384;
DEDUCED, log 21): `t` is the state that they leave. -/
noncomputable def State.owned (s t : State) : State :=
  if s.trySquare then
    let met := s.issues.flatMap (fun a => ((s.issues.erase a).foldl State.tried s).ownedBy a)
    { t with frame := { t.frame with faults := t.frame.faults.filter (fun f => f.code != cOwner) ++ met } }
  else t
/-- The tick's bundles, iterations, requests and slots, tried for the causes that they raise. -/
noncomputable def State.rehearsal (s : State) : State :=
  let t := s.owned (s.issues.foldl State.tried s)
  let u := (events t.requests).foldl State.tried t
  (events u.slotStarts).foldl State.tried u
/-- Bundles and jig iterations. Where something of the tick raises a launch-wide cause, nothing of the launch begins at its F: the
causes alone are kept, and the launch ends before the weave plane's cycle (R369, R371). -/
noncomputable def State.planBundles (s : State) : State :=
  let r := s.rehearsal
  match reported r.frame.faults with
  | some f =>
    let t := { s with host := { s.host with lifeNow := r.host.lifeNow }, frame := { s.frame with flagEcc := r.frame.flagEcc } }
    (t.finishWrites.faultEnd f r.frame.faults.length s.frame.fcnt.toNat).push noFrame
  | none => s.plans s.issues phRequests
/-- The requests, then the slots. -/
def State.planRequests (s : State) : State := s.plans (events s.requests) phSlots
def State.planSlots (s : State) : State := s.plans (events s.slotStarts) phStores
/-- Stores accepted at this tick and due at once. -/
def State.planStores (s : State) : State :=
  s.push ((if s.frame.causes.isEmpty then events (s.dueCopies.map (fun c => Instr.copyLanding c.2.bench c.1)) else []) ++
    [.phase phWeave, .phase phFrameDone])

/-! ### The weave plane's cycle -/

/-- Granules whose re-reads arrive: after so many hold ticks of the hold that their due tick raises, in which every stack serves
weave time (R267, R269). -/
def State.rereads (s : State) : List Instr :=
  (s.frame.flagEcc.filter (fun e => e.2.1 == 2 && !s.frame.causes.isEmpty && decide (e.2.2 ≤ s.frame.heldHere))).flatMap (fun e =>
    s.frame.copies.flatMap (fun (c : Nat × Copy) => ((List.range c.2.grans.length).filter (fun n => match c.2.grans[n]? with
      | some g => g.pa == e.1 && g.late && decide (c.2.granDue g ≤ s.frame.fcnt.toNat)
      | none => false)).map (fun n => Instr.eccRereadComplete c.2.bench c.1 n)))
/-- The next step of each copy of the block-transfer engines. -/
def State.bteSteps (s : State) : List Instr :=
  s.weave.clusters.flatMap (fun (c : Nat × Cluster) => c.2.bte.map (fun (e : Nat × BteCopy) =>
    if e.2.done < e.2.clr.cut.count then Instr.bteCopyPart c.1 e.1 else Instr.bteCopyComplete c.1 e.1))
/-- The weave ports that have an access to perform this cycle (R260). -/
def State.portTurns (s : State) : List Nat := keysWhere s.frame.benches (fun _ k => !k.port.isEmpty)
/-- The cycle: each port performs one access, and each core issues at most one group; a group that has issued and waits takes no issue
slot as it ends (R102, R129, R260; DEDUCED, log 69). -/
def State.planWeave (s : State) : State :=
  let cores := (s.weave.ctxs.map (fun (e : Nat × Ctx) => coreOf e.1)).eraseDups
  s.push (events s.rereads ++ events ((keysWhere s.weave.ctxs (fun _ x => x.replay.isSome)).map Instr.replayExecution) ++
    events s.bteSteps ++ events ((keysWhere s.weave.cores (fun _ k => !k.sb.isEmpty)).map Instr.storeBufferDrain) ++
    events (s.portTurns.map Instr.weavePortAccess) ++
    cores.map (fun k => Act.phase (phTurns + 16 * k)) ++ [.phase phWaits])

/-- The event that lets a waiting context try its group again. -/
def State.wakeOf (s : State) (c : Nat) : Wait → List Act
  | .pipe _ => [.event (.pipeStallResume c)]
  | .yield o => if s.yieldOver c (.yield o) then [.event (.yieldResume c), .issue c] else []
  | .barrier => [.event (.barWaitWake c)]
  | .fill => [.event (.ldsFillWake c)]
  | .drain => [.event (.ldsFillWake c)]
  | .watermark => [.event (.watermarkStallResume c)]
  | .engine => [.event (.engineSlotFree c)]
  | .spline => [.event (.splPendingWake c)]
  | .ticket => [.event (.rmaWaitWake c)]
  | _ => []
/-- A context's turn: a ready one issues, a waiting one tries again. In a launch that a fault ends at this tick, only a group that
raises a further cause is seen to (R369, R371). -/
noncomputable def State.turn (s : State) (c : Nat) : List Act :=
  match s.ctx? c with
  | none => []
  | some x =>
    if x.halted || s.interlocked c then []
    else if s.launchFaults x ≠ 0 then
      (match x.wait, s.issueGroup c with
        | none, .next t => if s.launchFaults x < t.launchFaults x then [.issue c] else []
        | _, _ => [])
    else match x.wait with
      | none => [.issue c]
      | some w => s.wakeOf c w
/-- The contexts of a core whose groups stall on their pipes. -/
def State.stalled (s : State) (core : Nat) : List Nat :=
  keysWhere s.weave.ctxs (fun c x => coreOf c == core && (x.wait.map Wait.isPipe).getD false && !x.halted && !s.interlocked c)
/-- A core tries its contexts in ascending slot from the one after the slot that issued last, until a group issues (R129); then the
groups that stall are tested (R117). -/
noncomputable def State.planTurn (s : State) (core j : Nat) : State :=
  if (j ≠ 0 ∧ s.ctl.verdict ≠ .waiting) ∨ 11 ≤ j then s.push ((s.stalled core).map Act.test)
  else (s.verdict .waiting).plans (s.turn (16 * core + ((s.core core).last + 1 + j) % 11)) (phTurns + 16 * core + j + 1)

/-- The event by which a group that waits in WFE, WAITEV, GWAIT or HJOIN tries to end, but for a timeout. -/
def waitOf (c : Nat) : Wait → List Instr
  | .wfe _ => [.wfeWake c]
  | .join => [.hjoinWake c]
  | .gwait => [.gwaitWake c]
  | .event => [.waitevWake c]
  | _ => []
/-- Whether a context's wait may end in this cycle. -/
def State.mayEnd (s : State) (e : Nat × Ctx) : Bool := !e.2.halted && !s.interlocked e.1 && s.launchFaults e.2 == 0
/-- These waits end once the cycle's groups have issued. -/
def State.waitEnds (s : State) : List Instr :=
  (s.weave.ctxs.filter s.mayEnd).flatMap (fun (e : Nat × Ctx) => (e.2.wait.map (waitOf e.1)).getD [])
/-- Contexts whose WFE is at its timeout. -/
def State.timingOut (s : State) : List Nat :=
  (s.weave.ctxs.filter (fun (e : Nat × Ctx) => s.mayEnd e && (e.2.wait.map (s.boundPassed e.1)).getD false)).map (·.1)
/-- Whether the end of a context's group posts an event in another context. -/
noncomputable def State.tells (s : State) (c d : Nat) : Bool :=
  match (s.modCtx d (fun x => { x with evnew := 0 })).finishGroup c with
  | .next t => (t.ctx d).evnew != 0
  | _ => false
/-- Contexts in such an order that one whose group posts an event in another goes before it; where two groups post in each other, the
lower goes first (DESIGN CHOICE, log 68). -/
def tellersFirst (tells : Nat → Nat → Bool) : Nat → List Nat → List Nat
  | 0, l => l
  | _, [] => []
  | n + 1, c :: l =>
    let d := ((c :: l).find? (fun d => (c :: l).all (fun e => e == d || !tells e d))).getD c
    d :: tellersFirst tells n ((c :: l).erase d)
/-- Timeouts fall last in the cycle, so that each returns the events that arrive in it (R102). -/
noncomputable def State.timeouts (s : State) : List Instr :=
  let cs := s.timingOut
  (tellersFirst s.tells cs.length cs).map Instr.wfeTimeout
/-- Weave launches that end, and gangs that stop. -/
def State.planEnds (s : State) : State :=
  let t := (s.weave.launches).foldl (fun u (e : Nat × Launch) => u.faultLaunchEnd e.1 e.2) s
  let u := (t.weave.launches.map (·.1)).foldl (fun v id => v.preempted id) t
  let roles := u.weave.gangs.flatMap (fun (g : Nat × Gang) =>
    if g.2.stopping then (List.range g.2.cores.length).map (fun r => Instr.roleHalt g.1 r) else [])
  u.plans (u.offer ((u.weave.launches.map (·.1)).map Instr.weaveLaunchComplete) ++ u.offer roles) phReady
/-- Gangs saved, and records that become ready, age, or outlast their deferral. -/
def State.planReady (s : State) : State :=
  let ids := s.weave.launches.map (·.1)
  s.plans (s.offer ((keysWhere s.weave.gangs (fun _ g => g.stopping)).map Instr.gangSave) ++
    events ((keysWhere s.weave.launches (fun _ l => l.state == .waiting)).map Instr.launchRecordReady) ++
    s.offer (ids.map Instr.priorityAgeing) ++ s.offer (ids.map Instr.deferralExpiry)) phPlace
/-- The dispatchers, and what the package does beside the planes. -/
def State.planPlace (s : State) : State :=
  let late := keysWhere s.eng.switch (fun _ e => s.switchLate e)
  s.push (events (if decide (s.ctl.now % Config.ebudgetTicks = 0) && !s.bootHold then [.ebudgetUpdate 0, .ebudgetUpdate 1] else []) ++
    events ((([0, 1].filter s.dispatchable).take 1).map Instr.dispatchStep) ++
    events (([0, 1].filter s.shootdownDone).map Instr.shootdownComplete) ++
    events (late.map (fun k => Instr.switchGroupTimeout (k / 2 ^ 32) (k % 2 ^ 32))))

/-! ### The end of a tick -/

/-- The frame plane's tick ends: a fault ends the launch at this F; else the kept writes are made, and the latches of mortises
that closed come last (R181, R207). -/
def State.planFrameDone (s : State) : State :=
  let t := s.finishWrites
  if !s.frame.running ∨ s.frame.sub ≠ 1 then s.push [.phase phEnd]
  else match reported s.frame.faults with
    | some f => (t.faultEnd f s.frame.faults.length s.frame.fcnt.toNat).push [.phase phEnd]
    | none =>
      if !s.frame.causes.isEmpty then t.push [.phase phAdvance]
      else
        let u := (s.frame.latches.foldl (fun v h => v.applyLatch h) t).modFrame (fun f => { f with latches := [] })
        let v := (u.frame.copies.map (·.1)).foldl (fun w id => w.retireCopy id) u
        v.plans (v.offer [.frameLaunchComplete]) phAdvance
/-- The benches that ran have run one tick more. -/
def State.benchTicks (s : State) : State :=
  s.running.foldl (fun t b => t.modBench b (fun k => { k with tick := k.tick + 1 })) s
/-- FCNT advances, unless the tick was a hold tick (R161, R170). -/
def State.planAdvance (s : State) : State :=
  if !s.frame.running then s
  else (s.benchTicks).modFrame (fun f =>
    let g := { f with slipsNow := 0, sub := if s.tsqFrame then 1 else 0 }
    if f.causes.isEmpty then { g with fcnt := f.fcnt + 1, tested := false, heldHere := 0, remoteSlot := none, tenonHeld := [] } else g)
/-- The completion entries of the tick, in ascending queue; that of a domain's faulted launch settles first (R400; DEDUCED, log 49). -/
def State.planEntries (s : State) : State :=
  s.plans (events ((keysWhere s.host.queues (fun _ k => k.room && match k.completions with
    | [] => false
    | c :: _ => !c.plane || s.frame.settling.isNone)).map Instr.completionEntryWrite)) phClock
/-- One tick fewer to the start instant; one that found no launch waiting is over. -/
def nearer : Option Nat → Option Nat
  | some (n + 1) => some n
  | _ => none
/-- The cycle's events are pending from now on (R101, R102). -/
def Ctx.settle (x : Ctx) : Ctx := { x with evpend := x.pendingEvents, evnew := 0, granted := false }
/-- The arithmetic clock advances, and the aligned start is one tick nearer (R396). -/
def State.planEnd (s0 : State) : State :=
  let s := s0.keepCaches
  { s with ctl := { s.ctl with now := s.ctl.now + 1, cur := .none }
           weave := { s.weave with ctxs := s.weave.ctxs.map (fun (e : Nat × Ctx) => (e.1, e.2.settle)) }
           host := { s.host with startIn := nearer s.host.startIn } }

/-! ### A step -/

/-- A phase of a tick. -/
noncomputable def State.plan (s : State) (n : Nat) : State :=
  if phTurns ≤ n then s.planTurn ((n - phTurns) / 16) ((n - phTurns) % 16)
  else match n with
    | 0 => s.planStart
    | 1 => s.planAdmin
    | 2 => s.planFrame
    | 3 => s.planCauses
    | 4 => s.planHold
    | 5 => s.planLand
    | 6 => s.planSwap
    | 7 => s.planPause
    | 8 => s.planEvents
    | 9 => s.planBundles
    | 10 => s.planRequests
    | 11 => s.planSlots
    | 12 => s.planStores
    | 13 => s.planWeave
    | 14 => s.planEnds
    | 15 => s.planReady
    | 16 => s.planPlace
    | 17 => s.planFrameDone
    | 18 => s.planAdvance.push [.phase phEnd]
    | 19 => s.planEntries
    | 21 => s.plans (events s.waitEnds) phTimeouts
    | 22 => s.plans (events s.timeouts) phEnds
    | _ => s.planEnd

/-- An event takes place; one whose subject has gone by its turn does not. -/
def State.takeEvent (s : State) (i : Instr) : Host.Outcome State Fault Refusal :=
  match exec i { s with ctl := { s.ctl with cur := .none } } with
  | .fault .noSubject => .next s
  | r => r

/-- One act of the agenda; an empty agenda begins the next tick. -/
noncomputable def State.act (s : State) : Host.Outcome State Fault Refusal :=
  match s.ctl.agenda with
  | [] => .next (s.plan 0)
  | a :: rest =>
    let t := { s with ctl := { s.ctl with agenda := rest } }
    match a with
    | .event i => t.takeEvent i
    | .issue c => t.issueGroup c
    | .finish c => t.finishGroup c
    | .test c => t.testGroup c
    | .replay c => t.runReplay c
    | .bundle b => t.issueBundle b
    | .template b => t.issueTemplate b
    | .phase n => .next (t.plan n)

end Sys2Proof.Machine
end

