-- ==== Sys2Proof/Machine/Place.lean ====
section
/-! DEFINITION. One syllable laid where the machine fetches next (DESIGN CHOICE, log 4): in a context of core 0, or, for a syllable of the frame
plane alone, in a bundle of bench 0. -/

namespace Sys2Proof.Machine

/-- ADDI x0, x0, 0 with S = 1, which does nothing: it ends a group whose syllable has S = 0 (R23). -/
def idleWord : Nat := 0x88000000
/-- SLIPCHK a0, a0 with S = 1, which does nothing: it ends a bundle (R64). -/
def idleSlot : Nat := 0xFC000002

/-- Where the placed segment's header stands. -/
def placeBase : Nat := 0x10000
/-- A header of kind 0 for one word of bitmap (R70, R71). -/
def segBytes (nsyl : Nat) : List Byte :=
  leBytes 8 (nsyl * 2 ^ 32 + 4 * nsyl) ++ List.replicate 24 0 ++ leBytes 8 (2 ^ nsyl - 1)

/-- A page that maps the first 1 GiB to itself with every permission, as a TLB holds it. -/
def identityLeaf : Leaf :=
  { va := 0, pa := 0, size := 0x40000000, typed := false, fmt := 0, geo := 0, tbl := 0, cmp := false, nc := false
    x := true, w := true, rd := true, u := true }

/-- Slot 0 of core 0 stands at the given syllables, and issues next. -/
def State.placeGroup (s : State) (ws : List Nat) : State :=
  let t := (s.modCore 0 (fun k => { k with tlb := [⟨0, identityLeaf⟩] })).setCtx 0
    { s.ctx 0 with pc := BitVec.ofNat 64 (placeBase + 0x28), asid := 0 }
  { t with
    mem := { t.mem with cells := t.mem.cells.writeBytes placeBase (segBytes ws.length ++ ws.flatMap (leBytes 4)) }
    ctl := { t.ctl with agenda := [.issue 0] } }

/-- Bench 0 stands at the given bundle, in a half that holds it, at its anchor tick; it issues next. -/
def State.placeBundle (s : State) (ws : List Nat) : State :=
  let body := placeBase + 0x28
  let h : Half := { hdr := placeBase, body := body, nsyl := ws.length, bitmap := [255], words := ws, next := 0
                    readyAt := 0, ready := true }
  let at_ := ((bundleSlots body ws).bind (anchorTick 0 0)).getD 0
  let t := s.setBench 0 { s.bench 0 with busy := true, pc := BitVec.ofNat 64 body |>.toNat, half := 0, halves := [(0, h)] }
  { t with
    frame := { t.frame with running := true, fcnt := BitVec.ofNat 64 at_ }
    ctl := { t.ctl with agenda := [.bundle 0] } }

/-- The slot that takes a word, with its presence bit. -/
def slotFor (w : Nat) : Option Nat := (slotBits.find? (fun p => slotTakes p.1 (majOf w) (xOf w))).map (·.2)
/-- A bundle around a word of one slot: the header's PAUSE and ANCHOR bits as the word asks, and an idle slot where the
word does not end the bundle. -/
def bundleOf (w bit : Nat) : List Nat :=
  let anchor := if bit = 0 ∧ isAnchorSyl w then 0x400 + (if isPauseSyl w then 0x800 else 0) else 0
  let tail := if sOf w ∨ bit = 0 then 0 else 1
  (0x7D000003 + anchor + (2 ^ bit + tail) * 2 ^ 16) :: w :: (if tail = 1 then [idleSlot] else [])

/-- A word where the machine fetches next. -/
def State.placeWord (s : State) (w : Nat) : State :=
  if isBhdr w then s.placeBundle [w]
  else match sigW (majOf w) (xOf w), slotFor w with
    | none, some bit => s.placeBundle (bundleOf w bit)
    | _, _ => s.placeGroup (if sOf w then [w] else [w, idleWord])

end Sys2Proof.Machine
end

