-- ==== Sys2Proof/Machine/Step.lean ====
section
/-! DEFINITION. One step of the machine, and the placing of an instruction where the next step fetches (DESIGN CHOICE, log 4). -/

namespace Sys2Proof.Machine

/-- One step: the next act of the agenda, or the start of the next tick. -/
noncomputable def step (s : State) : Host.Outcome State Fault Refusal := s.act

/-- A state with one instruction of the opcode table where `step` fetches next. -/
def State.withFetchWord (s : State) (nbits w : Nat) : State := s.placeWord (w % 2 ^ (min nbits 32))

end Sys2Proof.Machine
end

