-- ==== Sys2Proof/Safety.lean ====
section
/-! DEFINITION. The words in which claims are stated: when a syllable of a context, or of a slot of a bundle, runs with its own
effect; what a statement about memory looks at; and the invariants of the state. -/

namespace Sys2Proof.Machine

/-! ### When a syllable runs -/

/-- The pipe ports that a syllable's fields name are ready: no pop or push of it traps or stalls (R117). -/
def State.portsReady (s : State) (c maj x d a b : Nat) : Prop :=
  ∃ sg, sigW maj x = some sg ∧ s.gate c (srcFields sg d a b) (dstFields sg d) = .ok ()

/-- Context `c` executes a syllable of major `maj` and minor `x` with guard field `g` and fields `d`, `a`, `b`, and nothing stops it
before its own effect: the fields name what the form takes, an EXT before it and its immediate are allowed, the guard reads true
and the pipe ports it names are ready. -/
structure State.CtxReady (s : State) (c maj x g d a b : Nat) : Prop where
  here : s.ctl.cur = .ctx c
  live : (s.ctx? c).isSome = true
  form : legalW maj x d a b = true
  guard : (s.ctx c).guard g = true
  ext : s.ctl.ext.isSome = true → takesExt maj x = true
  imm : immOk s.ctl.ext maj x b = true
  ports : s.portsReady c maj x d a b

/-- Slot `sl` of the bundle that bench `b` issues executes a syllable, and nothing stops it before its own effect. -/
structure State.SlotReady (s : State) (b : Nat) (sl : SlotName) (maj x g d a bb : Nat) : Prop where
  here : s.ctl.cur = .slot b sl
  form : legalF maj x d a bb = true
  slot : slotTakes sl maj x = true
  guard : (s.bench b).rg g = true
  ext : s.ctl.ext.isSome = true → takesExt maj x = true
  imm : immOk s.ctl.ext maj x bb = true

/-- A form of bench `b` may touch `n` bytes of its tensor SRAM at `off`: they lie in it, and in try-square mode no one owns them
(R206, R384). -/
def State.rangeFree (s : State) (b off n : Nat) : Prop :=
  n = 0 ∨ (off + n ≤ Config.sramBytes ∧ (s.trySquare = true → ∀ j, j < n → s.owners b (off + j) 1 = []))

/-- An answer of `exec`. -/
abbrev Answer := Host.Outcome State Fault Refusal

/-- A context's syllable retires: its effect stands, and its EXT is used up. -/
def retires (t : State) : Answer := .next t.retire

/-- The same state with the bench's result on its way: it lands `lat` ticks after the tick in progress (R81, R188). -/
def State.sends (s : State) (b lat : Nat) (e : Effect) : State := s.setBench b ((s.bench b).later lat e)

/-! ### Numbers -/

/-- The number that an exact value stands for. -/
def Dy.rat (d : Dy) : Rat := (if d.neg then -1 else 1) * (d.m : Rat) * (2 : Rat) ^ d.e
/-- A code of an IEEE format stands for a number (R36). -/
def Fmt.has (f : Fmt) (c : Nat) (q : Rat) : Prop := ∃ d, f.value c = .fin d ∧ d.rat = q
/-- A code stands for the format's number nearest to `q`, and is even where another lies as near (R48). -/
def Fmt.nearest (f : Fmt) (c : Nat) (q : Rat) : Prop :=
  ∃ w, f.has c w ∧ ∀ c' z, f.has c' z → (w - q).abs ≤ (z - q).abs ∧ ((w - q).abs = (z - q).abs → z = w ∨ c % 2 = 0)
/-- The value of a pairwise tree over `2 ^ n` values: the left half's with the right half's (R55). -/
def pairTree {α : Type} (g : α → α → α) : Nat → (Nat → α) → α
  | 0, v => v 0
  | n + 1, v => g (pairTree g n v) (pairTree g n (fun i => v (i + 2 ^ n)))

/-! ### Invariants -/

/-- Byte memory and the local memories stand in their canonical form. -/
def State.Canonical (s : State) : Prop := s.mem.cells.wf ∧ s.mem.local_.wf

end Sys2Proof.Machine
end

