-- ==== Sys2Proof/Certificates/Slice0/Obligations.lean ====
section
/-! DEFINITION. The statements for the provers. Each says what the manual's rules say of an instruction, of a family, or of the
machine; `CtxReady` and `SlotReady` (Safety) say when a syllable runs with its own effect. -/

open Sys2Proof Sys2Proof.Machine

/-! ### Scalar instructions of both planes -/

/-- R83, R84 on the weave plane: each three-register arithmetic form retires, and D holds the value of A and B that its row gives.
R81, R83, R84 on the frame plane: the same values, and each lands in its a register after the latency of its row. -/
def Obligations.ScalarThreeRegister : Prop :=
  (∀ (s : State) (c : Nat) (f : Tri) (l : Lea),
     let ra := s.src c f.a
     let rb := ra.2.src c f.b
     let A := ra.1
     let B := rb.1
     let n := B.toNat % 64
     let gives (i : Instr) (maj x : Nat) (v : W64) : Prop :=
       s.CtxReady c maj x f.g f.d f.a f.b → exec i s = retires (rb.2.dst c f.d v)
     gives (.add f) 0x00 0 (A + B) ∧ gives (.sub f) 0x00 1 (A - B) ∧
     gives (.addw f) 0x00 2 (((A + B).setWidth 32).signExtend 64) ∧ gives (.subw f) 0x00 3 (((A - B).setWidth 32).signExtend 64) ∧
     gives (.and_ f) 0x01 0 (A &&& B) ∧ gives (.or_ f) 0x01 1 (A ||| B) ∧ gives (.xor_ f) 0x01 2 (A ^^^ B) ∧
     gives (.andn f) 0x01 3 (A &&& ~~~B) ∧ gives (.shl f) 0x02 0 (A <<< n) ∧ gives (.shr f) 0x02 1 (A >>> n) ∧
     gives (.sar f) 0x02 2 (A.sshiftRight n) ∧ gives (.rot f) 0x02 3 (A.rotateRight n) ∧
     gives (.mul f) 0x03 0 (A * B) ∧ gives (.mulh f) 0x03 1 (BitVec.ofInt 64 (A.toInt * B.toInt / 2 ^ 64)) ∧
     gives (.mulhu f) 0x03 2 (BitVec.ofNat 64 (A.toNat * B.toNat / 2 ^ 64)) ∧
     gives (.mulw f) 0x03 3 (((A * B).setWidth 32).signExtend 64) ∧
     gives (.div f) 0x04 0 (if B = 0 then BitVec.allOnes 64 else if A.toInt = -2 ^ 63 ∧ B.toInt = -1 then A
       else BitVec.ofInt 64 (A.toInt.tdiv B.toInt)) ∧
     gives (.divu f) 0x04 1 (if B = 0 then BitVec.allOnes 64 else BitVec.ofNat 64 (A.toNat / B.toNat)) ∧
     gives (.rem f) 0x04 2 (if B = 0 then A else if A.toInt = -2 ^ 63 ∧ B.toInt = -1 then 0
       else BitVec.ofInt 64 (A.toInt - B.toInt * A.toInt.tdiv B.toInt)) ∧
     gives (.remu f) 0x04 3 (if B = 0 then A else BitVec.ofNat 64 (A.toNat % B.toNat)) ∧
     gives (.min_ f) 0x05 0 (if A.toInt ≤ B.toInt then A else B) ∧ gives (.max_ f) 0x05 1 (if A.toInt ≤ B.toInt then B else A) ∧
     gives (.minu f) 0x05 2 (if A.toNat ≤ B.toNat then A else B) ∧ gives (.maxu f) 0x05 3 (if A.toNat ≤ B.toNat then B else A) ∧
     gives (.seq f) 0x06 0 (if A = B then 1 else 0) ∧ gives (.slt f) 0x06 1 (if A.toInt < B.toInt then 1 else 0) ∧
     gives (.sltu f) 0x06 2 (if A.toNat < B.toNat then 1 else 0) ∧ gives (.sne f) 0x06 3 (if A = B then 0 else 1) ∧
     (f = ⟨l.s, l.g, l.d, l.a, l.b⟩ → gives (.lea l) 0x17 l.c (A + (B <<< l.c)))) ∧
  (∀ (s : State) (b : Nat) (sl : SlotName) (f : Tri) (l : Lea),
     let A := (s.bench b).ra f.a
     let B := (s.bench b).ra f.b
     let n := B.toNat % 64
     let gives (i : Instr) (maj x lat : Nat) (v : W64) : Prop :=
       s.SlotReady b sl maj x f.g f.d f.a f.b → exec i s = retires (s.sends b lat (.a f.d v))
     gives (.add f) 0x00 0 1 (A + B) ∧ gives (.sub f) 0x00 1 1 (A - B) ∧
     gives (.addw f) 0x00 2 1 (((A + B).setWidth 32).signExtend 64) ∧
     gives (.subw f) 0x00 3 1 (((A - B).setWidth 32).signExtend 64) ∧
     gives (.and_ f) 0x01 0 1 (A &&& B) ∧ gives (.or_ f) 0x01 1 1 (A ||| B) ∧ gives (.xor_ f) 0x01 2 1 (A ^^^ B) ∧
     gives (.andn f) 0x01 3 1 (A &&& ~~~B) ∧ gives (.shl f) 0x02 0 1 (A <<< n) ∧ gives (.shr f) 0x02 1 1 (A >>> n) ∧
     gives (.sar f) 0x02 2 1 (A.sshiftRight n) ∧ gives (.rot f) 0x02 3 1 (A.rotateRight n) ∧
     gives (.mul f) 0x03 0 3 (A * B) ∧ gives (.mulh f) 0x03 1 3 (BitVec.ofInt 64 (A.toInt * B.toInt / 2 ^ 64)) ∧
     gives (.mulhu f) 0x03 2 3 (BitVec.ofNat 64 (A.toNat * B.toNat / 2 ^ 64)) ∧
     gives (.mulw f) 0x03 3 3 (((A * B).setWidth 32).signExtend 64) ∧
     gives (.div f) 0x04 0 18 (if B = 0 then BitVec.allOnes 64 else if A.toInt = -2 ^ 63 ∧ B.toInt = -1 then A
       else BitVec.ofInt 64 (A.toInt.tdiv B.toInt)) ∧
     gives (.divu f) 0x04 1 18 (if B = 0 then BitVec.allOnes 64 else BitVec.ofNat 64 (A.toNat / B.toNat)) ∧
     gives (.rem f) 0x04 2 18 (if B = 0 then A else if A.toInt = -2 ^ 63 ∧ B.toInt = -1 then 0
       else BitVec.ofInt 64 (A.toInt - B.toInt * A.toInt.tdiv B.toInt)) ∧
     gives (.remu f) 0x04 3 18 (if B = 0 then A else BitVec.ofNat 64 (A.toNat % B.toNat)) ∧
     gives (.min_ f) 0x05 0 1 (if A.toInt ≤ B.toInt then A else B) ∧ gives (.max_ f) 0x05 1 1 (if A.toInt ≤ B.toInt then B else A) ∧
     gives (.minu f) 0x05 2 1 (if A.toNat ≤ B.toNat then A else B) ∧ gives (.maxu f) 0x05 3 1 (if A.toNat ≤ B.toNat then B else A) ∧
     gives (.seq f) 0x06 0 1 (if A = B then 1 else 0) ∧ gives (.slt f) 0x06 1 1 (if A.toInt < B.toInt then 1 else 0) ∧
     gives (.sltu f) 0x06 2 1 (if A.toNat < B.toNat then 1 else 0) ∧ gives (.sne f) 0x06 3 1 (if A = B then 0 else 1) ∧
     (f = ⟨l.s, l.g, l.d, l.a, l.b⟩ → gives (.lea l) 0x17 l.c 1 (A + (B <<< l.c))))

/-- R83, R85, R86, R91 on the weave plane: forms of one source and forms with an immediate retire with the value of their row; an
immediate is what the syllable holds, or what it holds below the bits of the EXT before it.
The same on the frame plane; each result lands one tick later (R81). -/
def Obligations.ScalarImmediate : Prop :=
  (∀ (s : State) (c : Nat) (u : Bin) (f : Imm8) (w : Wide) (e : Imm6),
     (let r := s.src c u.a
      let gives (i : Instr) (x v : Nat) : Prop :=
        s.CtxReady c 0x07 x u.g u.d u.a 0 → exec i s = retires (r.2.dst c u.d (BitVec.ofNat 64 v))
      gives (.clz u) 0 (64 - bitLen 64 r.1.toNat) ∧ gives (.ctz u) 1 (ctz 64 r.1.toNat) ∧ gives (.popc u) 2 (ones 64 r.1.toNat) ∧
      gives (.brev u) 3 (brev 64 r.1.toNat)) ∧
     (let r := s.src c f.a
      let A := r.1
      let I : W64 := match s.ctl.ext with
        | none => BitVec.ofInt 64 ((BitVec.ofNat 8 f.i).toInt)
        | some h => BitVec.ofInt 64 ((BitVec.ofNat 32 (h * 2 ^ 8 + f.i)).toInt)
      let gives (i : Instr) (maj : Nat) (v : W64) : Prop :=
        s.CtxReady c maj 0 f.g f.d f.a f.i → exec i s = retires (r.2.dst c f.d v)
      gives (.addi f) 0x08 (A + I) ∧ gives (.andi f) 0x09 (A &&& I) ∧ gives (.ori f) 0x0A (A ||| I) ∧ gives (.xori f) 0x0B (A ^^^ I) ∧
      gives (.shli f) 0x0C (A <<< s.immU 8 f.i) ∧ gives (.shri f) 0x0D (A >>> s.immU 8 f.i) ∧
      gives (.sari f) 0x0E (A.sshiftRight (s.immU 8 f.i)) ∧ gives (.slti f) 0x0F (if A.toInt < I.toInt then 1 else 0) ∧
      gives (.sltiu f) 0x10 (if A.toNat < I.toNat then 1 else 0)) ∧
     (s.CtxReady c 0x11 0 w.g w.d 0 w.i → exec (.li w) s = retires (s.dst c w.d (s.immS 14 w.i))) ∧
     (s.CtxReady c 0x12 0 w.g w.d 0 w.i → exec (.lih w) s = retires (s.modCtx c (fun k => k.setX w.d
       (BitVec.ofNat 64 (s.immU 14 w.i * 2 ^ 32 + (k.x w.d).toNat % 2 ^ 32))))) ∧
     (let r := s.src c e.a
      let len := s.ctl.ext.getD 0 % 64 + 1
      (s.CtxReady c 0x18 0 e.g e.d e.a e.i →
        exec (.extr e) s = retires (r.2.dst c e.d (BitVec.ofNat 64 (r.1.toNat / 2 ^ e.i % 2 ^ len)))) ∧
      (s.CtxReady c 0x18 1 e.g e.d e.a e.i →
        exec (.ins e) s = retires (r.2.modCtx c (fun k => k.setX e.d (setFld (k.x e.d) e.i len r.1.toNat)))))) ∧
  (∀ (s : State) (b : Nat) (sl : SlotName) (u : Bin) (f : Imm8) (w : Wide) (e : Imm6),
     (let A := (s.bench b).ra u.a
      let gives (i : Instr) (x v : Nat) : Prop :=
        s.SlotReady b sl 0x07 x u.g u.d u.a 0 → exec i s = retires (s.sends b 1 (.a u.d (BitVec.ofNat 64 v)))
      gives (.clz u) 0 (64 - bitLen 64 A.toNat) ∧ gives (.ctz u) 1 (ctz 64 A.toNat) ∧ gives (.popc u) 2 (ones 64 A.toNat) ∧
      gives (.brev u) 3 (brev 64 A.toNat)) ∧
     (let A := (s.bench b).ra f.a
      let I := s.immS 8 f.i
      let gives (i : Instr) (maj : Nat) (v : W64) : Prop :=
        s.SlotReady b sl maj 0 f.g f.d f.a f.i → exec i s = retires (s.sends b 1 (.a f.d v))
      gives (.addi f) 0x08 (A + I) ∧ gives (.andi f) 0x09 (A &&& I) ∧ gives (.ori f) 0x0A (A ||| I) ∧ gives (.xori f) 0x0B (A ^^^ I) ∧
      gives (.shli f) 0x0C (A <<< s.immU 8 f.i) ∧ gives (.shri f) 0x0D (A >>> s.immU 8 f.i) ∧
      gives (.sari f) 0x0E (A.sshiftRight (s.immU 8 f.i)) ∧ gives (.slti f) 0x0F (if A.toInt < I.toInt then 1 else 0) ∧
      gives (.sltiu f) 0x10 (if A.toNat < I.toNat then 1 else 0)) ∧
     (s.SlotReady b sl 0x11 0 w.g w.d 0 w.i → exec (.li w) s = retires (s.sends b 1 (.a w.d (s.immS 14 w.i)))) ∧
     (s.SlotReady b sl 0x12 0 w.g w.d 0 w.i → exec (.lih w) s = retires (s.sends b 1 (.a w.d
       (BitVec.ofNat 64 (s.immU 14 w.i * 2 ^ 32 + ((s.bench b).ra w.d).toNat % 2 ^ 32))))) ∧
     (let A := (s.bench b).ra e.a
      let len := s.ctl.ext.getD 0 % 64 + 1
      (s.SlotReady b sl 0x18 0 e.g e.d e.a e.i →
        exec (.extr e) s = retires (s.sends b 1 (.a e.d (BitVec.ofNat 64 (A.toNat / 2 ^ e.i % 2 ^ len))))) ∧
      (s.SlotReady b sl 0x18 1 e.g e.d e.a e.i →
        exec (.ins e) s = retires (s.sends b 1 (.a e.d (setFld ((s.bench b).ra e.d) e.i len A.toNat))))))

/-- R87, R88, R89 on the weave plane: comparisons and combinations write the predicate D, where a write of p0 is discarded and p0
reads true; SEL takes A or B by its guard, and is never nullified.
R81, R87, R88, R89 on the frame plane: the guard D, where g0 reads true, or the a register D of a SEL, is written one tick later. -/
def Obligations.PredicatesAndGuards : Prop :=
  (∀ (s : State) (c : Nat) (f : Tri) (m : Imm6) (u : Bin),
     (let ra := s.src c f.a
      let rb := ra.2.src c f.b
      let A := ra.1
      let B := rb.1
      let gives (i : Instr) (x : Nat) (v : Bool) : Prop :=
        s.CtxReady c 0x13 x f.g f.d f.a f.b → exec i s = retires (rb.2.modCtx c (fun k => k.setP f.d v))
      gives (.cmpEq f) 0 (decide (A = B)) ∧ gives (.cmpLt f) 1 (decide (A.toInt < B.toInt)) ∧
      gives (.cmpLtu f) 2 (decide (A.toNat < B.toNat)) ∧ gives (.cmpNe f) 3 (decide (A ≠ B))) ∧
     (let ra := s.src c m.a
      let A := ra.1
      let I := s.immS 6 m.i
      let gives (i : Instr) (x : Nat) (v : Bool) : Prop :=
        s.CtxReady c 0x14 x m.g m.d m.a m.i → exec i s = retires (ra.2.modCtx c (fun k => k.setP m.d v))
      gives (.cmpiEq m) 0 (decide (A = I)) ∧ gives (.cmpiLt m) 1 (decide (A.toInt < I.toInt)) ∧
      gives (.cmpiLtu m) 2 (decide (A.toNat < I.toNat)) ∧ gives (.cmpiNe m) 3 (decide (A ≠ I))) ∧
     (let A := (s.ctx c).p f.a
      let B := (s.ctx c).p f.b
      let gives (i : Instr) (x : Nat) (v : Bool) : Prop :=
        s.CtxReady c 0x15 x f.g f.d f.a f.b → exec i s = retires (s.modCtx c (fun k => k.setP f.d v))
      gives (.pand f) 0 (A && B) ∧ gives (.por f) 1 (A || B) ∧ gives (.pxor f) 2 (xor A B)) ∧
     (s.CtxReady c 0x15 3 u.g u.d u.a 0 →
       exec (.pnot u) s = retires (s.modCtx c (fun k => k.setP u.d (!(s.ctx c).p u.a)))) ∧
     (let ra := s.src c f.a
      let rb := ra.2.src c f.b
      s.ctl.cur = .ctx c → (s.ctx? c).isSome = true → legalW 0x16 0 f.d f.a f.b = true → f.g ≠ 8 → s.ctl.ext = none →
        s.portsReady c 0x16 0 f.d f.a f.b →
          exec (.sel f) s = retires (rb.2.dst c f.d (if (s.ctx c).guard f.g then ra.1 else rb.1)))) ∧
  (∀ (s : State) (b : Nat) (sl : SlotName) (f : Tri) (m : Imm6) (u : Bin),
     (let A := (s.bench b).ra f.a
      let B := (s.bench b).ra f.b
      let gives (i : Instr) (x : Nat) (v : Bool) : Prop :=
        s.SlotReady b sl 0x13 x f.g f.d f.a f.b → exec i s = retires (s.sends b 1 (.g f.d v))
      gives (.cmpEq f) 0 (decide (A = B)) ∧ gives (.cmpLt f) 1 (decide (A.toInt < B.toInt)) ∧
      gives (.cmpLtu f) 2 (decide (A.toNat < B.toNat)) ∧ gives (.cmpNe f) 3 (decide (A ≠ B))) ∧
     (let A := (s.bench b).ra m.a
      let I := s.immS 6 m.i
      let gives (i : Instr) (x : Nat) (v : Bool) : Prop :=
        s.SlotReady b sl 0x14 x m.g m.d m.a m.i → exec i s = retires (s.sends b 1 (.g m.d v))
      gives (.cmpiEq m) 0 (decide (A = I)) ∧ gives (.cmpiLt m) 1 (decide (A.toInt < I.toInt)) ∧
      gives (.cmpiLtu m) 2 (decide (A.toNat < I.toNat)) ∧ gives (.cmpiNe m) 3 (decide (A ≠ I))) ∧
     (let A := (s.bench b).rg f.a
      let B := (s.bench b).rg f.b
      let gives (i : Instr) (x : Nat) (v : Bool) : Prop :=
        s.SlotReady b sl 0x15 x f.g f.d f.a f.b → exec i s = retires (s.sends b 1 (.g f.d v))
      gives (.pand f) 0 (A && B) ∧ gives (.por f) 1 (A || B) ∧ gives (.pxor f) 2 (xor A B)) ∧
     (s.SlotReady b sl 0x15 3 u.g u.d u.a 0 → exec (.pnot u) s = retires (s.sends b 1 (.g u.d (!(s.bench b).rg u.a)))) ∧
     (s.ctl.cur = .slot b sl → legalF 0x16 0 f.d f.a f.b = true → slotTakes sl 0x16 0 = true → s.ctl.ext = none →
       exec (.sel f) s = retires (s.sends b 1 (.a f.d
         (if (s.bench b).rg f.g then (s.bench b).ra f.a else (s.bench b).ra f.b)))))

/-- R92, R93, R94 on the weave plane: transfers set the pc, CALL and JALR leave the address after the syllable in x1 or D.
R74, R81, R92 to R94, R100 on the frame plane: a transfer to a BHDR of the segment that the bench runs makes it issue there two
ticks later and closes an open kernel; CALL and JALR send the address after the bundle to a1 or D, where it lands one tick later. -/
def Obligations.ControlTransfers : Prop :=
  (∀ (s : State) (c : Nat) (j : Jump) (u : UnA) (l : Bin),
     let here := BitVec.ofNat 64 s.ctl.syl
     let after := BitVec.ofNat 64 (s.ctl.syl + 4)
     let target := here + 4 * s.immS 20 j.i
     let held (a : Nat) : W64 := ((s.ctx c).x a) >>> 2 <<< 2
     (s.CtxReady c 0x20 0 j.g 0 0 0 → exec (.br j) s = retires (s.modCtx c (fun k => { k with pc := target, jumped := true }))) ∧
     (s.CtxReady c 0x21 0 j.g 0 0 0 → exec (.call j) s = retires (s.modCtx c (fun k => { k.setX 1 after with pc := target, jumped := true }))) ∧
     (s.CtxReady c 0x22 0 u.g 0 u.a 0 →
       exec (.jr u) s = retires (s.modCtx c (fun k => { k with pc := held u.a, jumped := true }))) ∧
     (s.CtxReady c 0x22 2 u.g 0 u.a 0 →
       exec (.ret u) s = retires (s.modCtx c (fun k => { k with pc := held u.a, jumped := true }))) ∧
     (s.CtxReady c 0x22 1 l.g l.d l.a 0 →
       exec (.jalr l) s = retires ((s.dst c l.d after).modCtx c (fun k => { k with pc := held l.a, jumped := true })))) ∧
  (∀ (s : State) (b : Nat) (sl : SlotName) (j : Jump) (u : UnA) (l : Bin),
     let k := s.bench b
     let jt := (BitVec.ofNat 64 s.ctl.syl + 4 * s.immS 20 j.i).toNat
     let held (a : Nat) : Nat := (k.ra a).toNat / 4 * 4
     let goes (q : Bench) (t : Nat) : State := s.setBench b { q with pc := t, bubble := k.tick + 2, kctl := setFld k.kctl 63 1 0 }
     let isTarget (t : Nat) : Prop := ∃ h w, tget k.halves k.half = some h ∧ h.at_ t = some (w, true) ∧ isBhdr w = true
     (s.SlotReady b sl 0x20 0 j.g 0 0 0 → isTarget jt → exec (.br j) s = retires (goes k jt)) ∧
     (s.SlotReady b sl 0x21 0 j.g 0 0 0 → isTarget jt →
       exec (.call j) s = retires (goes (k.later 1 (.a 1 (BitVec.ofNat 64 s.ctl.link))) jt)) ∧
     (s.SlotReady b sl 0x22 0 u.g 0 u.a 0 → isTarget (held u.a) → exec (.jr u) s = retires (goes k (held u.a))) ∧
     (s.SlotReady b sl 0x22 2 u.g 0 u.a 0 → isTarget (held u.a) → exec (.ret u) s = retires (goes k (held u.a))) ∧
     (s.SlotReady b sl 0x22 1 l.g l.d l.a 0 → isTarget (held l.a) →
       exec (.jalr l) s = retires (goes (k.later 1 (.a l.d (BitVec.ofNat 64 s.ctl.link))) (held l.a))))

/-- R97, R98, R100: LOOPK with a trip count opens a kernel at the next bundle, with the stage guards of trip 0; with none it jumps
past the kernel. LOOPE takes the back edge to KTOP, a BHDR of the segment that the bench runs (R74), while trips or drains remain,
and then closes the kernel.
R63, R166, R169, R174, R209 to R216: an anchor syllable moves the anchor; PAUSE, with nothing in flight and within PAUSEBND, also
marks the pause point; MLATCH, SLIPCHK and FCNT give their words a tick later; SEQL writes or reads a sequence length; BHALT ends the
block and closes its kernel; a legal BHDR gives the V slots their widths. -/
def Obligations.KernelsAndFrameControl : Prop :=
  (∀ (s : State) (b : Nat) (sl : SlotName) (f : Loopk) (e : Bare),
     let k := s.bench b
     let n := (k.ra f.a).toNat % 2 ^ 32
     let opened : Bench := { k with kctl := BitVec.ofNat 64 (2 ^ 63 + f.d * 2 ^ 37 + n), ktrip := 0, g := stageGuards f.d n 0 k.g
                                    ktop := BitVec.ofNat 64 s.ctl.link }
     let shut : Bench := { k with kctl := BitVec.ofNat 64 (f.d * 2 ^ 37), ktrip := 0, g := stageGuards f.d 0 0 k.g }
     let past := s.ctl.syl + 4 * s.immU 8 f.i
     let trip := (k.ktrip.toNat + 1) % 2 ^ 33
     let nstg := fld k.kctl.toNat 37 3
     let niter := fld k.kctl.toNat 0 32
     let next : Bench := { k with ktrip := BitVec.ofNat 64 trip, kctl := setFld k.kctl 32 5 trip, g := stageGuards nstg niter trip k.g }
     (s.SlotReady b sl 0x23 0 0 f.d f.a f.i → n ≠ 0 → exec (.loopk f) s = retires (s.setBench b opened)) ∧
     (s.SlotReady b sl 0x23 0 0 f.d f.a f.i → n = 0 →
       (∃ h w, tget k.halves k.half = some h ∧ h.at_ past = some (w, true) ∧ isBhdr w = true) →
         exec (.loopk f) s = retires (s.setBench b { shut with
           pc := past, bubble := k.tick + 2, kctl := setFld shut.kctl 63 1 0 })) ∧
     (s.SlotReady b sl 0x24 0 0 0 0 0 → bitOf k.kctl.toNat 63 = true → trip < niter + nstg →
       (∃ h w, tget k.halves k.half = some h ∧ h.at_ k.ktop.toNat = some (w, true) ∧ isBhdr w = true) →
       exec (.loope e) s = retires (s.setBench b { next with pc := k.ktop.toNat })) ∧
     (s.SlotReady b sl 0x24 0 0 0 0 0 → bitOf k.kctl.toNat 63 = true → niter + nstg ≤ trip →
       exec (.loope e) s = retires (s.setBench b { next with kctl := setFld next.kctl 63 1 0 })) ∧
     (s.SlotReady b sl 0x24 0 0 0 0 0 → bitOf k.kctl.toNat 63 = false →
       exec (.loope e) s = .next (s.benchFault b s.ctl.group cIllegal 0 0))) ∧
  (∀ (s : State) (b : Nat) (sl : SlotName) (n : Anchor) (d : DImm) (u : Bin) (t : Tri) (w : SeqlWr) (r : SeqlRd) (z : Nul) (p : Pause)
       (h : Bhdr),
     let k := s.bench b
     (s.SlotReady b sl 0x7C 0 0 0 0 n.i →
       exec (.anchor n) s = retires (s.setBench b { k with lastAnchor := k.release + s.immU 6 n.i })) ∧
     (s.SlotReady b sl 0x7C 1 d.g d.d 0 d.i → exec (.mlatch d) s = retires (s.sends b 1 (.g d.d (tgetD k.mlatch (s.immU 6 d.i) false)))) ∧
     (s.SlotReady b sl 0x7C 2 u.g u.d u.a 0 → exec (.slipchk u) s = retires (s.sends b 1 (.a u.d
       (BitVec.ofNat 64 (subW 32 (s.frame.total - s.frame.slipsNow) (k.ra u.a).toNat))))) ∧
     (let f := s.frame.fcnt.toNat
      let flen := s.frame.flen.toNat
      s.SlotReady b sl 0x7C 3 t.g t.d t.a t.b →
        (t.a = 0 → t.b < 4 → exec (.fcnt t) s = retires (s.sends b 1 (.a t.d (if t.b = 0 then s.frame.fcnt
          else if t.b = 1 then BitVec.ofNat 64 (f / flen) else if t.b = 2 then BitVec.ofNat 64 (f % flen) else k.flags)))) ∧
        (t.b = 4 → exec (.fcnt t) s = retires (s.setBench b
          ({ k with flags := k.flags &&& ~~~(k.ra t.a &&& 0x7F) }.later 1 (.a t.d k.flags)))) ∧
        (t.a ≠ 0 → t.b ≠ 4 → exec (.fcnt t) s = .next (s.benchFault b s.ctl.group cIllegal 0 0))) ∧
     (s.SlotReady b sl 0x7D 0 w.g w.d w.a 0 →
       exec (.seql w) s = retires (s.sends b 1 (.seqlen w.d ((k.ra w.a).setWidth 32)))) ∧
     (s.SlotReady b sl 0x7D 0 r.g r.d r.a 1 →
       exec (.seqlRead r) s = retires (s.sends b 1 (.a r.d ((tgetD k.seqlen r.a 0).setWidth 64)))) ∧
     (s.SlotReady b sl 0x7D 1 z.g 0 0 0 →
       exec (.bhalt z) s = retires (s.setBench b { k with busy := false, kctl := setFld k.kctl 63 1 0 })) ∧
     (let at_ := k.lastAnchor + p.c
      let quiet : Prop := (∀ e, e ∈ k.pend → e.at_ ≤ k.tick) ∧ (∀ e, e ∈ s.frame.lpass → e.1 ≠ b / 16 * 16 + (b + 1) % 16) ∧
        k.jig.state ≠ .run ∧ s.copiesOf b = 0 ∧ s.putting b = false
      s.SlotReady b sl 0x7D 2 0 (p.c / 4096) (p.c / 64 % 64) (p.c % 64) → p.c ≠ 0 →
        (quiet → at_ ≤ k.lastPause + s.frame.pausebnd.toNat →
          exec (.pause p) s = retires (s.setBench b { k with lastAnchor := at_, lastPause := at_ })) ∧
        (quiet → k.lastPause + s.frame.pausebnd.toNat < at_ →
          exec (.pause p) s = .next (s.benchFault b s.ctl.group cSpacing 0 0)) ∧
        (¬quiet → exec (.pause p) s = .next (s.benchFault b s.ctl.group cDirty 0 0))) ∧
     (s.ctl.cur = .header b → h.w < 3 → h.v < 3 → (h.p.testBit 4 = false → h.w = 0) → (h.p.testBit 3 = false → h.v = 0) →
       (∀ i, i < 8 → h.x.testBit i = true → h.p.testBit i = true) → (h.k = 1 → h.n ≠ 0) → (h.s = 1 ↔ h.p = 0) →
         exec (.bhdr h) s = retires (s.setBench b { k with w0 := 256 * 2 ^ h.w, w1 := 256 * 2 ^ h.v })))

/-- R102: WFE with an event of its mask pending takes those bits; with neither a mask nor a bound it gives 0; with its
bound passed it takes, once the cycle's groups have issued and its other waits have ended, those of its mask that arrived in that cycle; else
the context waits with its group unretired.
R122, R146 to R148: DONE ends its context; SIGNAL adds B to event counter A behind the core's earlier stores; YIELD waits for the
core's other ready contexts; WAITEV gives counter A once it has reached B, and waits till then. -/
def Obligations.WaitsAndEndings : Prop :=
  (∀ (s : State) (c : Nat) (f : Tri),
     let ra := s.src c f.a
     let rb := ra.2.src c f.b
     let mask : W64 := ra.1 &&& 0x7FF
     let ev := (s.ctx c).evpend &&& mask
     s.CtxReady c 0x25 0 f.g f.d f.a f.b →
       (ev ≠ 0 → exec (.wfe f) s =
         retires ((rb.2.modCtx c (fun k => { k with evpend := k.evpend &&& ~~~ev })).dst c f.d ev)) ∧
       (mask = 0 → rb.1 = 0 → exec (.wfe f) s = retires (rb.2.dst c f.d 0)) ∧
       (let late := (s.ctx c).evnew &&& mask
        ev = 0 → rb.1 ≠ 0 → rb.1.toNat ≤ s.waited c → Act.phase phWaits ∉ s.ctl.agenda → Act.phase phTimeouts ∉ s.ctl.agenda → exec (.wfe f) s =
          retires ((rb.2.modCtx c (fun k => { k with evnew := k.evnew &&& ~~~late })).dst c f.d late)) ∧
       (ev = 0 → (mask ≠ 0 ∨ rb.1 ≠ 0) → (rb.1 = 0 ∨ s.waited c < rb.1.toNat ∨ Act.phase phWaits ∈ s.ctl.agenda ∨
           Act.phase phTimeouts ∈ s.ctl.agenda) →
         exec (.wfe f) s = .next (s.park c (.wfe rb.1.toNat)))) ∧
  (∀ (s : State) (c : Nat) (n : Nul) (f : Tri) (w : AB),
     let k := coreOf c
     (s.CtxReady c 0x3C 0 n.g 0 0 0 → exec (.done n) s = retires (s.endCtx c)) ∧
     (let ra := s.src c w.a
      let rb := ra.2.src c w.b
      s.CtxReady c 0x3C 1 w.g 0 w.a w.b → exec (.signal w) s = retires ((rb.2.drainAll k).signal (ra.1.toNat % 4096) rb.1)) ∧
     (let others := ((List.range 11).map (fun i => 16 * k + i)).filter (fun d => d ≠ c && s.ready d)
      s.CtxReady c 0x3C 2 n.g 0 0 0 →
        (others = [] → exec (.yield n) s = retires s) ∧
        (others ≠ [] → exec (.yield n) s = retires (s.modCtx c (fun x =>
          { x with wait := some (.yield others), since := some s.ctl.now })))) ∧
     (let ra := s.src c f.a
      let rb := ra.2.src c f.b
      let v := s.evctr (ra.1.toNat % 4096)
      s.CtxReady c 0x3C 3 f.g f.d f.a f.b →
        (rb.1.toNat ≤ v.toNat → exec (.waitev f) s = retires ((rb.2.acquire k).dst c f.d v)) ∧
        (v.toNat < rb.1.toNat → exec (.waitev f) s = .next (s.park c .event))))

/-! ### Weave memory -/

/-- R104, R105: a load at A + imm × size whose access is granted retires, with D the value loaded, extended as its row says; LDY
writes 32 bytes to a y register, LDYB one word to its eight lanes.
R104, R105: a store at A + imm × size whose access is granted retires with its bytes stored, lowest first. -/
def Obligations.LoadsAndStores : Prop :=
  (∀ (s t : State) (c v : Nat) (f : Imm6),
     let ea (size : Nat) : Nat := ((s.ctx c).x f.a + s.immS 6 f.i * BitVec.ofNat 64 size).toNat
     let gives (i : Instr) (maj x size : Nat) (r : W64) : Prop :=
       s.CtxReady c maj x f.g f.d f.a f.i → s.load c (ea size) size .read = .ok (v, t) → exec i s = retires (t.dst c f.d r)
     let givesY (i : Instr) (x size : Nat) (r : W256) : Prop :=
       s.CtxReady c 0x2B x f.g f.d f.a f.i → s.load c (ea size) size .read = .ok (v, t) →
         exec i s = retires (t.modCtx c (fun k => k.setY f.d r))
     gives (.ldB f) 0x28 0 1 ((BitVec.ofNat 8 v).signExtend 64) ∧ gives (.ldH f) 0x28 1 2 ((BitVec.ofNat 16 v).signExtend 64) ∧
     gives (.ldW f) 0x28 2 4 ((BitVec.ofNat 32 v).signExtend 64) ∧ gives (.ldD f) 0x28 3 8 (BitVec.ofNat 64 v) ∧
     gives (.lduB f) 0x29 0 1 (BitVec.ofNat 64 v) ∧ gives (.lduH f) 0x29 1 2 (BitVec.ofNat 64 v) ∧
     gives (.lduW f) 0x29 2 4 (BitVec.ofNat 64 v) ∧
     givesY (.ldy f) 0 32 (BitVec.ofNat 256 v) ∧ givesY (.ldyb f) 2 4 (BitVec.ofNat 256 (ofLanes 32 [v, v, v, v, v, v, v, v]))) ∧
  (∀ (s t : State) (c : Nat) (f : Imm6) (r0 : List Part × State),
     let ea (size : Nat) : Nat := ((s.ctx c).x f.a + s.immS 6 f.i * BitVec.ofNat 64 size).toNat
     let r := s.src c f.d
     let gives (i : Instr) (x size : Nat) : Prop :=
       s.CtxReady c 0x2A x f.g f.d f.a f.i → s.checkAccess c (ea size) size .write = .ok r0 →
         r.2.store c (ea size) (leBytes size r.1.toNat) = .ok t → exec i s = retires t
     gives (.stB f) 0 1 ∧ gives (.stH f) 1 2 ∧ gives (.stW f) 2 4 ∧ gives (.stD f) 3 8 ∧
     (s.CtxReady c 0x2B 1 f.g f.d f.a f.i → s.checkAccess c (ea 32) 32 .write = .ok r0 →
       s.store c (ea 32) (leBytes 32 ((s.ctx c).y f.d).toNat) = .ok t → exec (.sty f) s = retires t))

/-- R29, R104, R106, R278: where the core's TLB holds the page, the page may be read at the context's level, the bytes lie in one line
of cacheable or uncacheable HBM of the context's own die, no error stands there and no buffered store of the context touches them, a
load gives the little-endian number that they form as L2 presents them, and changes nothing.
R29, R106: a store to one line of HBM, of host memory or of the device registers joins the end of its core's store buffer and
changes no byte of memory, no register and no other core. -/
def Obligations.WhatLoadsGiveAndStoresBuffer : Prop :=
  (∀ (s : State) (c ea n : Nat) (l : Leaf),
     let k := coreOf c
     let pa := l.phys ea
     0 < n → n ≤ 64 → canonical ea = true → ea + n ≤ 2 ^ 56 →
     tlbFind (s.core k).tlb (s.ctx c).asid.toNat (ea % 2 ^ 57) = some l → l.allows .read (!(s.ctx c).priv) = true →
     ea % 4096 + n ≤ 4096 → pa % 64 + n ≤ 64 → pa + n ≤ hbmEnd → homeDie pa = dieOfCluster (clusterOfCore k) →
     newestOverlap c false pa n 0 (s.core k).sb = none → s.frame.flagEcc = [] →
       s.load c ea n .read = .ok (leNat (s.mem.bytes pa n), s)) ∧
  (∀ (s : State) (c ea : Nat) (bs : List Byte) (l : Leaf),
     let k := coreOf c
     let pa := l.phys ea
     let n := bs.length
     0 < n → n ≤ 64 → canonical ea = true → ea + n ≤ 2 ^ 56 →
     tlbFind (s.core k).tlb (s.ctx c).asid.toNat (ea % 2 ^ 57) = some l → l.allows .write (!(s.ctx c).priv) = true →
     ea % 4096 + n ≤ 4096 → pa % 64 + n ≤ 64 → isSram pa = false →
       s.store c ea bs = .ok (s.modCore k (fun q => { q with sb := q.sb ++ [⟨c, false, pa, bs, l.nc, false, (s.ctx c).asid.toNat⟩] })))

/-- R297: an atomic whose access is granted performs behind the drained store buffer: D is what the eight bytes held, and memory
then holds what the row of the form makes of that, of B, and for ACAS of D. The loads that follow see other parties' stores.
R298: LDS gives the value once every word of it is full, LDSE also empties them, and until then the context waits; STF stores
and sets the words full; SETE empties the sixteen words of its line. Each waits for the core's earlier stores. -/
def Obligations.AtomicsAndFullEmpty : Prop :=
  (∀ (s s1 : State) (c : Nat) (f : Tri) (p : Part) (ps : List Part),
     let ea := ((s.ctx c).x f.a).toNat
     let rb := s1.src c f.b
     let B := rb.1
     let t := (rb.2.drainAll (coreOf c)).eccCorrect p.pa 8
     let old := BitVec.ofNat 64 (leNat (t.mem.bytes p.pa 8))
     let put (w : W64) : State := { t with mem := t.mem.putBytes (!p.leaf.nc) p.pa (leBytes 8 w.toNat) }
     let gives (i : Instr) (maj x op : Nat) (u : State) : Prop :=
       s.CtxReady c maj x f.g f.d f.a f.b → s.checkAtomic c ea op = .ok (p :: ps, s1) → s1.sramGate c (p :: ps) = .ok () →
         s1.eccBad p.pa 8 = false → exec i s = retires ((u.acquire (coreOf c)).dst c f.d old)
     gives (.aadd f) 0x2E 0 0 (put (old + B)) ∧ gives (.aand f) 0x2E 1 1 (put (old &&& B)) ∧
     gives (.aor f) 0x2E 2 2 (put (old ||| B)) ∧ gives (.axor f) 0x2E 3 3 (put (old ^^^ B)) ∧ gives (.aswp f) 0x2F 0 4 (put B) ∧
     gives (.acas f) 0x2F 1 5 (if old = (s1.ctx c).x f.d then put B else t) ∧
     gives (.amax f) 0x2F 2 6 (put (if B.toInt ≤ old.toInt then old else B)) ∧
     gives (.amin f) 0x2F 3 7 (put (if old.toInt ≤ B.toInt then old else B))) ∧
  (∀ (s s1 : State) (c : Nat) (f : Imm6) (e : AImm) (p : Part) (ps : List Part),
     let ea (size : Nat) : Nat := ((s.ctx c).x f.a + s.immS 6 f.i * BitVec.ofNat 64 size).toNat
     let t0 := s1.drainAll (coreOf c)
     let t := (p :: ps).foldl (fun u q => u.eccCorrect q.pa q.len) t0
     let w := leNat ((p :: ps).flatMap (fun q => t.mem.bytes q.pa q.len))
     let granted (size : Nat) (use : Use) : Prop :=
       s.checkFullEmpty c (ea size) (ea size) size size use = .ok (p :: ps, s1) ∧ s1.sramGate c (p :: ps) = .ok ()
     let reads (i : Instr) (x size : Nat) (u : State) (v : W64) : Prop :=
       s.CtxReady c 0x2C x f.g f.d f.a f.i → granted size .read →
         (t0.allFull (p :: ps) = true → (∀ q, q ∈ p :: ps → t0.eccBad q.pa q.len = false) → exec i s = retires ((u.acquire (coreOf c)).dst c f.d v)) ∧
         (t0.allFull (p :: ps) = false → exec i s = .next (s.park c .fill))
     let r := s1.src c f.d
     let d := r.2.drainAll (coreOf c)
     let stores (i : Instr) (x size : Nat) : Prop :=
       s.CtxReady c 0x2D x f.g f.d f.a f.i → granted size .write →
         exec i s = retires ((({ d with mem := d.mem.putBytes (!p.leaf.nc) p.pa (leBytes size r.1.toNat) }).mark true
           (p :: ps)).dropLine (coreOf c) p.pa)
     reads (.ldsW f) 0 4 t ((BitVec.ofNat 32 w).signExtend 64) ∧ reads (.ldsD f) 1 8 t (BitVec.ofNat 64 w) ∧
     reads (.ldseW f) 2 4 (t.mark false (p :: ps)) ((BitVec.ofNat 32 w).signExtend 64) ∧
     reads (.ldseD f) 3 8 (t.mark false (p :: ps)) (BitVec.ofNat 64 w) ∧ stores (.stfW f) 0 4 ∧ stores (.stfD f) 1 8 ∧
     (let at_ := ((s.ctx c).x e.a + s.immS 6 e.i * 64).toNat
      s.CtxReady c 0x2D 2 e.g 0 e.a e.i → s.checkFullEmpty c at_ (at_ / 64 * 64) 64 64 .write = .ok (p :: ps, s1) →
        s1.sramGate c (p :: ps) = .ok () → exec (.sete e) s = retires (t0.mark false (p :: ps))))

/-- R294, R296, R300: scope 0 of a fence does nothing; a release drains the core's store buffer, an acquire drops the core's copies of
lines of the other die; CFLUSH and CINV write a line back, CINV drops the core's copies of it; CPREF never traps, and changes no
memory and no context. An uncorrectable error that CPREF's walk or its fill meets ends the launch, which is the model's choice (log 81). -/
def Obligations.WeaveFencesAndCache : Prop :=
  ∀ (s s1 : State) (c : Nat) (f : UnB) (l : Imm6) (ps : List Part),
    let k := coreOf c
    let gives (i : Instr) (x : Nat) (u : State) : Prop := s.CtxReady c 0x30 x f.g 0 0 f.b → exec i s = retires u
    gives (.fenceAcq f) 0 (if f.b = 0 then s else s.acquire k) ∧ gives (.fenceRel f) 1 (if f.b = 0 then s else s.drainAll k) ∧
    gives (.fenceSc f) 2 (if f.b = 0 then s else (s.drainAll k).acquire k) ∧ gives (.tfence f) 3 (s.drainAll k) ∧
    (let ea := ((s.ctx c).x l.a + s.immS 6 l.i * 64).toNat
     let base := ea / 64 * 64
     let back (u : State) (p : Part) : State :=
       let d := u.drainAll k
       if 4 ≤ l.d ∧ p.pa < hbmEnd then { d with mem := d.mem.writeBack p.pa 64 } else d
     (s.CtxReady c 0x31 0 l.g l.d l.a l.i → s.checkAccess c base 64 .both = .ok (ps, s1) → s1.portGate c ps = .ok () →
       exec (.cflush l) s = retires (ps.foldl back s1)) ∧
     (s.CtxReady c 0x31 1 l.g l.d l.a l.i → s.checkAccess c base 64 .both = .ok (ps, s1) → s1.portGate c ps = .ok () →
       exec (.cinv l) s = retires (ps.foldl (fun u p => ((back u p).dropLine k p.pa).modCore k (fun q =>
         { q with fetched := terase q.fetched (p.pa / 64 * 64) })) s1)) ∧
     (s.CtxReady c 0x31 2 l.g l.d l.a l.i →
       ((∀ e, e ∈ s.frame.flagEcc → e.2.1 ≠ 1) → ∃ u, exec (.cpref l) s = retires u ∧ u.mem = s.mem ∧ u.weave.ctxs = s.weave.ctxs ∧
         u.eng = s.eng ∧ (s.frame.flagEcc = [] → u.frame = s.frame ∧ u.host = s.host)) ∧
       (let x := s.ctx c
        let ends (pa : Nat) : Prop := exec (.cpref l) s = .next (((s.setCtx c { x with pc := BitVec.ofNat 64 s.ctl.group }).faultLaunch
          (s.launchOf x) ⟨0x21, stackOf pa, pa, s.ctl.group, 0, c, 0⟩).verdict .faulted)
        canonical ea = true →
          (∀ pa, s.missError k x.asid.toNat ea = some pa → ends pa) ∧
          (∀ lf, s.missError k x.asid.toNat ea = none → s.translate k x.asid.toNat ea = some (lf, s1) → lf.allows .read (!x.priv) = true →
            lf.uncached = false → s1.eccBad (lf.phys ea) 64 = true → ends (lf.phys ea)))))

/-- R132, R301: a local access within its mode's range and aligned, with no watermark in its way, retires: a load gives the local
memory's bytes, or those of the context's own buffered store, sign-extended; a store joins the core's store buffer.
R299: a LDYF whose page is typed gives eight elements decoded by the page's format and the scale byte of their block, with their flags;
while that byte is not there it keeps the elements read (that it is read after them: the model's choice, log 84). An untyped page gives
32 bytes as LDY does. -/
def Obligations.LocalMemoryAndDecodingLoad : Prop :=
  (∀ (s : State) (c : Nat) (f : Local) (bs : List Byte),
     let la (size : Nat) : Nat := ((s.ctx c).x f.a + s.immS 6 f.i * BitVec.ofNat 64 size).toNat
     let at_ (size : Nat) : List (Nat × Nat) := localParts (clusterOf c) f.m (coreOf c % 8) (la size) size
     let granted (size : Nat) : Prop :=
       la size < (if f.m = 0 then 2 ^ 17 else 2 ^ 20) ∧ la size % size = 0 ∧ (f.m = 0 ∨ s.clx (s.ctx c) = true) ∧
         s.localStall c (at_ size) = .ok ()
     let r := s.src c f.d
     let loads (i : Instr) (maj size : Nat) (v : W64) : Prop :=
       s.CtxReady c maj f.m f.g f.d f.a f.i → granted size → s.loadLocal c (at_ size) = .ok bs → exec i s = retires (s.dst c f.d v)
     let stores (i : Instr) (maj size : Nat) : Prop :=
       s.CtxReady c maj f.m f.g f.d f.a f.i → granted size →
         exec i s = retires (r.2.bufferLocal c false (leBytes size r.1.toNat) (at_ size))
     loads (.ldl f) 0x32 4 ((BitVec.ofNat 32 (leNat bs)).signExtend 64) ∧ loads (.ldld f) 0x34 8 (BitVec.ofNat 64 (leNat bs)) ∧
     stores (.stl f) 0x33 4 ∧ stores (.stld f) 0x35 8) ∧
  (∀ (s s1 s2 t : State) (c v e : Nat) (p : Part) (f : Imm6) (bs : List Byte) (l : Leaf) (w : Wait),
     let ea := ((s.ctx c).x f.a + s.immS 6 f.i * 4).toNat
     let size (l : Leaf) : Nat := fmtWidth l.fmt
     let decoded (u : State) (l : Leaf) (scale codes : Nat) : Answer :=
       let r := yMap 32 8 (fun i => dequant (s.compander l.tbl) l.tbl l.fmt scale (lane (size l) i codes))
       retires (u.modCtx c (fun k => (k.setY f.d (BitVec.ofNat 256 r.1)).orFlags r.2))
     let z := s2.modCtx c (fun x => { x with granted := false })
     s.CtxReady c 0x2B 3 f.g f.d f.a f.i → (s.ctx c).wait = none →
       ((s.ctx c).elems = none → s.ldyfPart c ea = .ok (p, s1) →
         (p.leaf.typed = true → s1.sramGate c [p] = .ok () → s1.loadWhole c p = .ok (bs, s2) →
           (p.leaf.geo = 3 → exec (.ldyf f) s = decoded z p.leaf 127 (leNat bs)) ∧
           (p.leaf.geo ≠ 3 → z.loadScale c p.leaf (ea / size p.leaf * size p.leaf) = .ok (e, t) →
             exec (.ldyf f) s = decoded t p.leaf e (leNat bs)) ∧
           (p.leaf.geo ≠ 3 → z.loadScale c p.leaf (ea / size p.leaf * size p.leaf) = .error (.wait w) →
             exec (.ldyf f) s = .next ((s.park c w).modCtx c (fun x => { x with elems := some (p.leaf, leNat bs) })))) ∧
         (p.leaf.typed = false → s.load c (ea / 32 * 32) 32 .read = .ok (v, t) →
           exec (.ldyf f) s = retires (t.modCtx c (fun k => k.setY f.d (BitVec.ofNat 256 v))))) ∧
       ((s.ctx c).elems = some (l, v) → l.geo ≠ 3 → s.loadScale c l (ea / size l * size l) = .ok (e, t) →
         exec (.ldyf f) s = decoded t l e v))

/-! ### Weave control -/

/-- R135 to R138: HSTART in the control context starts the lowest free helper slot with its entry and argument, or gives 0 where the
role has none left; HJOIN waits while the helper lives; HKILL ends it; HSELF and GRANK give their words.
R141: GARRIVE arrives and gives the phase; GWAIT ends once the phase in B has passed; a GBAR arrives once, ends with the phase number
it arrived in once that phase has passed, which its own arrival may bring about, and waits till then. The first arrival of a phase sets
the target, from 1 to 88, and the arrival that reaches it ends the phase; a phase has passed where 1 to 2^31 - 1 phases have since begun. -/
def Obligations.HelpersAndGangBarriers : Prop :=
  (∀ (s : State) (c : Nat) (f : Tri) (u : UnA) (d : UnD),
     let k := coreOf c
     let control := fld (s.ctx c).status.toNat 20 4 = 0
     (let ra := s.src c f.a
      let rb := ra.2.src c f.b
      s.CtxReady c 0x38 0 f.g f.d f.a f.b → control →
        (s.freeHelper k = none → exec (.hstart f) s = retires (rb.2.dst c f.d 0)) ∧
        (∀ j, s.freeHelper k = some j →
          let gen := (tgetD (s.core k).gens j 0 + 1) % 2 ^ 16
          let x : Ctx := { Ctx.zero with
            xs := [(10, rb.1)], pc := ra.1 >>> 2 <<< 2, status := helperStatus (s.ctx c).status j, seed := (s.ctx c).seed
            asid := (s.ctx c).asid, gang := (s.ctx c).gang, role := (s.ctx c).role, gen := gen, jumped := true }
          exec (.hstart f) s = retires ((((rb.2.drainAll k).modCore k (fun q => { q with gens := tset q.gens j gen })).setCtx
            (16 * k + j) x).dst c f.d (BitVec.ofNat 64 (gen * 16 + j))))) ∧
     (let ra := s.src c u.a
      s.CtxReady c 0x38 1 u.g 0 u.a 0 → control →
        (s.handleLive k ra.1 = false → exec (.hjoin u) s = retires (ra.2.drainAll k)) ∧
        (s.handleLive k ra.1 = true → exec (.hjoin u) s = .next (s.park c .join))) ∧
     (let ra := s.src c u.a
      s.CtxReady c 0x38 2 u.g 0 u.a 0 → control →
        exec (.hkill u) s = retires (if s.handleLive k ra.1 then ra.2.endCtx (16 * k + ra.1.toNat % 16) else ra.2)) ∧
     (s.CtxReady c 0x38 3 d.g d.d 0 0 → exec (.hself d) s = retires (s.dst c d.d
       (BitVec.ofNat 64 (clusterOf c * 2 ^ 23 + k % 8 * 2 ^ 20 + (s.ctx c).gen * 16 + c % 16)))) ∧
     (∀ g, tget s.weave.gangs (s.ctx c).gang = some g → s.CtxReady c 0x3A 3 d.g d.d 0 0 →
       exec (.grank d) s = retires (s.dst c d.d
         (BitVec.ofNat 64 (g.idx * 2 ^ 32 + g.cores.length * 2 ^ 16 + (s.ctx c).role * 2 ^ 8 + c % 16))))) ∧
  (∀ (s : State) (c : Nat) (f : Tri) (w : AB),
     let k := coreOf c
     let x := s.ctx c
     let at_ := s.ctl.syl
     let arrive (t : State) (b n : Nat) : State := (t.drainAll k).modGBar x.gang b (fun g => g.arrive n)
     (let ra := s.src c f.a
      let rb := ra.2.src c f.b
      let b := ra.1.toNat % 8
      let ph := (s.gbar c b).phase
      let entered (t : State) : State := match tget x.arrived at_ with
        | some _ => t
        | none => (arrive t b rb.1.toNat).modCtx c (fun q => { q with arrived := tset q.arrived at_ (8 * ph + b) })
      let u := entered s
      let n := tgetD (u.ctx c).arrived at_ 0
      let passed := phasePassed (u.gbar c (n % 8)).phase (n / 8)
      (s.CtxReady c 0x3A 1 f.g f.d f.a f.b →
        exec (.garrive f) s = retires ((arrive rb.2 b rb.1.toNat).dst c f.d (BitVec.ofNat 64 ph))) ∧
      (s.CtxReady c 0x3A 0 f.g f.d f.a f.b →
        (passed = true → exec (.gbar f) s =
          retires ((((u.src c f.a).2.src c f.b).2.acquire k).dst c f.d (BitVec.ofNat 64 (n / 8)))) ∧
        (passed = false → exec (.gbar f) s = .next (entered (s.park c .gwait))))) ∧
     (let ra := s.src c w.a
      let rb := ra.2.src c w.b
      let ph := (s.gbar c (ra.1.toNat % 8)).phase
      s.CtxReady c 0x3A 2 w.g 0 w.a w.b →
        (phasePassed ph rb.1.toNat = true → exec (.gwait w) s = retires (rb.2.acquire k)) ∧
        (phasePassed ph rb.1.toNat = false → exec (.gwait w) s = .next (s.park c .gwait)))) ∧
  (∀ (o : GBar) (n ph B : Nat),
     let target := if o.arr = 0 then (if n < 1 then 1 else if 88 < n then 88 else n) else o.tgt
     let since : Int := ((ph : Int) - (B % 2 ^ 32 : Nat)) % 2 ^ 32
     (o.arr + 1 = target → o.arrive n = ⟨(o.phase + 1) % 2 ^ 32, 0, 0⟩) ∧
     (o.arr + 1 ≠ target → o.arrive n = ⟨o.phase, o.arr + 1, target⟩) ∧
     (phasePassed ph B = true ↔ 1 ≤ since ∧ since ≤ 2 ^ 31 - 1))

/-- R118, R139, R140: QPEEK gives the oldest entry and leaves it; QDEPTH counts the consumer's entries, or the producer's free places,
beside the closed bits; QCLOSE closes the named side; QDROP discards up to B of the oldest entries and gives how many.
R116 to R118: a field that names an x register reads and writes that register and nothing else; one that names a pipe port pops the
oldest entry of the port's pipe, and a push appends one, so that what is pushed is popped in order. A QDROP whose B names the port that
A names pops B first and then drops, which is the model's reading (log 17). -/
def Obligations.PipeFormsAndPorts : Prop :=
  (∀ (s : State) (c i : Nat) (p : Pipe) (u : Bin) (q : UnA) (f : Tri) (w : W64),
     let x := s.ctx c
     let word (n : Nat) : W64 := BitVec.ofNat 64 ((if p.cclosed then 2 ^ 63 else 0) + (if p.pclosed then 2 ^ 62 else 0) + n)
     (s.CtxReady c 0x39 0 u.g u.d u.a 0 → s.conPipe c u.a = some (i, p) → p.cclosed = false → p.entries.head? = some (.value w) →
       exec (.qpeek u) s = retires ((s.acquire (coreOf c)).dst c u.d w)) ∧
     (s.CtxReady c 0x39 1 u.g u.d u.a 0 →
       (s.conPipe c u.a = some (i, p) → exec (.qdepth u) s = retires (s.dst c u.d (word p.values.length))) ∧
       (s.conPipe c u.a = none → s.proPipe c u.a = some (i, p) →
         exec (.qdepth u) s = retires (s.dst c u.d (word (p.depth - p.entries.length)))) ∧
       (s.conPipe c u.a = none → s.proPipe c u.a = none → exec (.qdepth u) s = retires (s.dst c u.d 0))) ∧
     (s.CtxReady c 0x39 2 q.g 0 q.a 0 →
       (s.conPipe c q.a = some (i, p) → exec (.qclose q) s = retires (s.closeConsumer x.gang i)) ∧
       (s.conPipe c q.a = none → s.proPipe c q.a = some (i, p) → exec (.qclose q) s = retires (s.closeProducer x.gang i)) ∧
       (s.conPipe c q.a = none → s.proPipe c q.a = none → exec (.qclose q) s = retires s)) ∧
     (let rb := s.src c f.b
      let n := min rb.1.toNat p.values.length
      s.CtxReady c 0x39 3 f.g f.d f.a f.b →
        (rb.2.conPipe c f.a = some (i, p) → n ≠ 0 →
          exec (.qdrop f) s = retires ((((rb.2.setPipe c i { p with entries := p.entries.drop n }).postEvent x.gang p.prole p.pq).acquire
            (coreOf c)).dst c f.d (BitVec.ofNat 64 n))) ∧
        (rb.2.conPipe c f.a = some (i, p) → n = 0 → exec (.qdrop f) s = retires (rb.2.dst c f.d 0)) ∧
        (rb.2.conPipe c f.a = none → exec (.qdrop f) s = retires (rb.2.dst c f.d 0)))) ∧
  (∀ (s : State) (c n i j : Nat) (v w : W64) (g : Gang) (p q : Pipe) (l : List PipeEntry), n < 8 →
     (∀ r, r < 32 → s.src c r = ((s.ctx c).x r, s) ∧ s.dst c r v = s.modCtx c (fun k => k.setX r v)) ∧
     (tget s.weave.gangs (s.ctx c).gang = some g →
       (g.pipes[i]? = some p → consumerPipe g.pipes (s.ctx c).role n = some i → p.entries = .value w :: l →
         (s.src c (48 + n)).1 = w ∧
         (tget (s.src c (48 + n)).2.weave.gangs (s.ctx c).gang).bind (fun h => h.pipes[i]?) = some { p with entries := l }) ∧
       (g.pipes[j]? = some q → producerPipe g.pipes (s.ctx c).role n = some j →
         (tget (s.dst c (48 + n) v).weave.gangs (s.ctx c).gang).bind (fun h => h.pipes[j]?) =
           some { q with entries := q.entries ++ [.value v] })))

/-- R142 to R144: a REPF whose block is legal leaves the block to the context's replay unit, to run A + 1 times in order before the
context's next group, whose address is after the block. The replay unit then runs the block's groups one by one in order, A + 1 times, each
strided field raised by the execution's number times the stride where it names a register (a field that names none stands as it is: log
63), without the PC and outside the issue of groups; a later group that must wait for it does not issue: one that names a register or a
predicate which a pending execution names, that reads or writes FLAGS or DRAWC by number, is REPF or DONE, and (log 63) one that would
change STATUS.RM or, under SR, the draws of the executions to come. -/
def Obligations.WeaveReplay : Prop :=
  (∀ (s s1 : State) (c : Nat) (f : Repf) (g : Seg) (ws : List Nat) (r0 : List Nat × Seg × State),
    let ra := s.src c f.a
    let n := ra.1.toNat % 2 ^ 16
    let base := s.ctl.syl + 4
    s.CtxReady c 0x3B 0 f.g f.f f.a 0 → ra.2.segOf c s.ctl.syl = .ok g → ra.2.blockWords c g (f.l + 1) base = .ok (ws, s1) →
      blockLegal f.f f.t n ws = true → (isQ f.a = false ∨ s.repfCheck c f 0 = .ok r0) →
        exec (.repf f) s = retires (s1.modCtx c (fun x =>
          { x with
            replay := some ⟨ws, base, f.f, f.t, n, 0, 0⟩, pc := BitVec.ofNat 64 (s1.afterSeg c g (base + 4 * (f.l + 1))) }))) ∧
  (∀ (s : State) (c : Nat) (rest : List Act) (r : Replay) (w : Nat) (i : Instr),
    let raised (w : Nat) : Nat := strideWord r.fm (r.k * r.stride) w
    let portFree (w : Nat) : Prop := ∀ g, sigW (majOf w) (xOf w) = some g →
      ∀ q, q ∈ srcFields g (dOf w) (aOf w) (bOf w) ++ dstFields g (dOf w) → isQ q = false
    let at_ (n : Nat) : Nat := r.addr + 4 * (r.pos + n)
    let moved (n : Nat) : Option Replay :=
      if r.pos + n < r.words.length then some { r with pos := r.pos + n }
      else if r.k < r.count then some { r with pos := 0, k := r.k + 1 } else none
    let advanced (n : Nat) (a : Answer) : Answer := match a with
      | .next u => .next (u.modCtx c (fun x => { x with replay := moved n }))
      | o => o
    let before (n : Nat) : State := { s with
      ctl := { s.ctl with agenda := rest, cur := .ctx c, group := at_ 0, syl := at_ n, ext := none } }
    s.ctl.agenda = .replay c :: rest → (s.ctx c).replay = some r → r.k ≤ r.count →
      (r.words[r.pos]? = some w → sOf (raised w) = true → portFree (raised w) → decode (raised w) = .ok i →
        Machine.step s = advanced 1 (exec i (before 0))) ∧
      (∀ v e, r.words[r.pos]? = some v → r.words[r.pos + 1]? = some w → sOf (raised v) = false → sOf (raised w) = true →
        portFree (raised v) → portFree (raised w) → decode (raised v) = .ok (.ext e) → decode (raised w) = .ok i →
          Machine.step s = advanced 2 (exec i { before 1 with ctl := { (before 1).ctl with ext := some e.i, verdict := .retired } }))) ∧
  (∀ (fm n w : Nat) (g : Sig),
    let names (k : FK) : Prop := k ∈ [FK.x, .xo, .y, .p, .q]
    let v := strideWord fm n w
    sigW (majOf w) (xOf w) = some g → w < 2 ^ 32 → dOf w + n < 64 → aOf w + n < 64 → bOf w + n < 64 →
      (dOf v = if fm.testBit 2 = true ∧ names g.d then dOf w + n else dOf w) ∧
      (aOf v = if fm.testBit 1 = true ∧ names g.a then aOf w + n else aOf w) ∧
      (bOf v = if fm.testBit 0 = true ∧ names g.b then bOf w + n else bOf w) ∧
      majOf v = majOf w ∧ xOf v = xOf w ∧ grdOf v = grdOf w ∧ sOf v = sOf w) ∧
  (∀ (s : State) (c : Nat), s.interlocked c = true → s.turn c = []) ∧
  (∀ (s t : State) (c : Nat) (r : Replay) (ws : List (Nat × Nat)) (g : Seg),
    let x := s.ctx c
    let names (k : FK) (n i : Nat) : Prop := (k ∈ [FK.x, .xo, .y, .q] ∧ i = n ∧ (k ∈ [FK.x, .xo] → n ≠ 0)) ∨ (k = .p ∧ i = 64 + n ∧ n ≠ 0)
    let uses (w i : Nat) : Prop := ∃ z, sigW (majOf w) (xOf w) = some z ∧
      (names .p (grdOf w % 8) i ∨ names z.d (dOf w) i ∨ names z.a (aOf w) i ∨ names z.b (bOf w) i ∨ (majOf w = 0x21 ∧ i = 1) ∨
        (majOf w = 0x39 ∧ (xOf w = 2 ∨ xOf w = 3) ∧ i = aOf w))
    let pending (v : Nat) : Prop := ∃ k w, r.k ≤ k ∧ k ≤ r.count ∧ k < r.k + 64 ∧ w ∈ r.words ∧ v = strideWord r.fm (k * r.stride) w
    let draws (w : Nat) : Prop := (0x40 ≤ majOf w ∧ majOf w ≤ 0x47) ∨ majOf w = 0x2A ∨ majOf w = 0x2B ∨ majOf w = 0x74
    let number (w : Nat) : Nat := bOf w + 64 * (match ws with
      | [e, _] => if isExt e.2 then fld e.2 0 24 else 0
      | _ => 0)
    (x.replay = none → s.interlocked c = false) ∧
    (x.replay = some r → r.k ≤ r.count → s.fetchGroup c x.pc.toNat = .ok (ws, g, t) → groupLegal (ws.map (·.2)) = true →
      (s.interlocked c = true ↔ ∃ p, p ∈ ws ∧ isExt p.2 = false ∧
        ((∃ v i, pending v ∧ uses v i ∧ uses p.2 i) ∨ majOf p.2 = 0x3B ∨ (majOf p.2 = 0x3C ∧ xOf p.2 = 0) ∨
         (majOf p.2 = 0x7E ∧ (xOf p.2 = 1 ∨ xOf p.2 = 2) ∧ (number p.2 = 1 ∨ number p.2 = 8)) ∨
         (majOf p.2 = 0x7E ∧ xOf p.2 = 2 ∧ number p.2 = 0) ∨
         (x.rm = .sr ∧ draws p.2 ∧ ∃ v, v ∈ r.words ∧ draws v)))))

/-- R149 to R152: a TENON.V whose tenon's mortise is open for the context's address space posts B; a TENON.W stages B at the word of
tensor SRAM that A names; TENON.Q gives the status word of the tenon: 0 for one that is not declared, else whether its mortise is open,
whether it has a post in the window, and the ticks to the close, or to the next open within the timetable. -/
def Obligations.WeaveTenons : Prop :=
  (∀ (s s1 : State) (c k m pa : Nat) (r0 : Nat × Nat × State) (w : AB) (u : Bin),
    let ra := s.src c w.a
    (let rb := ra.2.src c w.b
     let d := rb.2.drainAll (coreOf c)
     s.CtxReady c 0x3D 0 w.g 0 w.a w.b → ra.2.tenonCheck c ra.1 = .ok k →
       (isQ w.a = true ∨ s.tenonCheck c ((s.ctx c).x w.a) = .ok k) →
         exec (.tenonV w) s = retires { d with frame := { d.frame with posts := tset d.frame.posts k rb.1 } }) ∧
    (let rb := s1.src c w.b
     let d := rb.2.drainAll (coreOf c)
     s.CtxReady c 0x3D 1 w.g 0 w.a w.b → ra.2.stageCheck c ra.1 = .ok (m, pa, s1) →
       (isQ w.a = true ∨ s.stageCheck c ((s.ctx c).x w.a) = .ok r0) →
         exec (.tenonW w) s = retires { d with frame := { d.frame with staged := d.frame.staged ++ [(m, pa, rb.1)] } }) ∧
    (s.CtxReady c 0x3D 2 u.g u.d u.a 0 →
      exec (.tenonQ u) s = retires ((s.src c u.a).2.dst c u.d (s.tenonStatus (s.src c u.a).1)))) ∧
  (∀ (s : State) (a : W64),
    (256 ≤ a.toNat ∨ s.frame.running = false → s.tenonStatus a = 0) ∧
    (∀ l, s.frame.launch = some l → l.tenons[a.toNat]? = none → s.tenonStatus a = 0) ∧
    (∀ l t m, a.toNat < 256 → s.frame.running = true → s.frame.launch = some l → l.tenons[a.toNat]? = some t →
      l.morts[t.mort]? = some m → m.open_ < l.flen →
      let now := s.frame.fcnt.toNat
      let phi := now % l.flen
      let posted : Prop := if t.dkind = 0 then ∃ w, w ∈ s.frame.staged ∧ w.1 = t.mort else ∃ v, tget s.frame.posts a.toNat = some v
      let word (opn n : Nat) : Prop := (posted → s.tenonStatus a = BitVec.ofNat 64 (2 ^ 63 * opn + 2 ^ 62 + n)) ∧
        (¬posted → s.tenonStatus a = BitVec.ofNat 64 (2 ^ 63 * opn + n))
      let opens (T : Nat) : Prop := now ≤ T ∧ T % l.flen = m.open_
      (t.mort ∈ s.frame.openM → m.open_ ≤ phi → (s.frame.causes = [] ∨ phi ≠ m.close % l.flen) → word 1 (m.close - phi)) ∧
      (t.mort ∈ s.frame.openM → s.frame.causes ≠ [] → phi = m.close % l.flen → word 1 0) ∧
      (t.mort ∉ s.frame.openM → ∀ T, opens T → (∀ T', opens T' → T ≤ T') →
        word 0 (if T / l.flen < l.nframes then T - now else 0xFFFFFFFFFFFF))))

/-! ### Traps, special registers and the return -/

/-- R14, R57, R362: a class-P cause raised by a user-level context whose launch has a handler writes EPC, CAUSE and FADDR, sets PRIV and
makes pc the handler's address without its two low bits; a cause found at an element writes FIRSTERR too, with its logical index.
No other register of the context changes, among them EVPEND, SEED, ASID, SSCR, CLR and its ticket; every other context, the cores,
clusters, launches and gangs with their pipes, all of memory, the frame plane, the engines and the host side stand as they stood. -/
def Obligations.PreciseTrap : Prop :=
  ∀ (s : State) (c epc code faddr info lidx : Nat),
    let x := s.ctx c
    let t := s.raise c epc code faddr info
    let e := s.raiseAt c epc code faddr info lidx
    code < 0x20 → x.priv = false → s.tvec x ≠ 0 →
      (t.ctx c).epc = BitVec.ofNat 64 epc ∧ (t.ctx c).cause = BitVec.ofNat 64 (info * 2 ^ 16 + code) ∧
      (t.ctx c).faddr = BitVec.ofNat 64 faddr ∧ (t.ctx c).priv = true ∧ (t.ctx c).pc = BitVec.ofNat 64 (s.tvec x / 4 * 4) ∧
      (∀ i, 0 < i → i < 64 → (t.ctx c).status.getLsbD i = x.status.getLsbD i) ∧
      t.ctx c = { x with
        epc := (t.ctx c).epc, cause := (t.ctx c).cause, faddr := (t.ctx c).faddr, status := (t.ctx c).status, pc := (t.ctx c).pc
        jumped := true, wait := none, since := none, granted := false } ∧
      e.ctx c = { t.ctx c with firsterr := BitVec.ofNat 64 (2 ^ 63 + min lidx 0xFFFF) } ∧
      (∀ u, u = t ∨ u = e → u.mem = s.mem ∧ u.frame = s.frame ∧ u.eng = s.eng ∧ u.host = s.host ∧
        (∀ d, d ≠ c → u.ctx? d = s.ctx? d) ∧ { u.weave with ctxs := s.weave.ctxs } = s.weave)

/-- R366, R368: a user-level TRAP with a handler enters it with EPC after the TRAP and its immediate as detail; an ERET at system
level returns to EPC, aligned, at user level.
R363, R369: a class-L cause, or any cause raised at system level or without a handler, traps nowhere: it joins the causes that end
the context's launch, and no register of the context but its pc, which stands at the group, changes. A TRAP at system level ends the
launch with CAUSE, EPC and FADDR as they stand in the fault record, LW set (R363, R370). -/
def Obligations.TrapReturnAndLaunchWide : Prop :=
  (∀ (s : State) (c : Nat) (f : TrapImm) (e : Nul),
     let x := s.ctx c
     (s.CtxReady c 0x7E 0 f.g 0 0 f.i → x.priv = false → s.tvec x ≠ 0 →
       ∃ t, exec (.trap f) s = .next t ∧ t.ctx c = { x.setPriv true with
         epc := BitVec.ofNat 64 (s.ctl.syl + 4), cause := BitVec.ofNat 64 (s.immU 6 f.i * 2 ^ 16 + 0x0E), faddr := 0
         pc := BitVec.ofNat 64 (s.tvec x / 4 * 4), jumped := true, wait := none, since := none, granted := false } ∧
         t.mem = s.mem ∧ t.ctl.verdict = .trapped) ∧
     (s.CtxReady c 0x7E 0 f.g 0 0 f.i → x.priv = true →
       let r : FaultCause := ⟨fld x.cause.toNat 0 8, fld x.cause.toNat 16 32, x.faddr.toNat, x.epc.toNat, 0, c, x.firsterr⟩
       exec (.trap f) s = .next (((s.setCtx c { x with pc := BitVec.ofNat 64 s.ctl.group }).faultLaunch (s.launchOf x) r).verdict .faulted) ∧
       (x.cause &&& 0xFFFFFFFF00FF = x.cause → ∀ at_ frame n,
         (r.record at_ frame n).take 3 = [0x8000000000000000 ||| x.cause, x.faddr, x.epc])) ∧
     (s.CtxReady c 0x7E 3 e.g 0 0 0 → s.immU 6 0 = 0 → x.priv = true →
       exec (.eret e) s = retires (s.modCtx c (fun k => { k.setPriv false with
         pc := BitVec.ofNat 64 (k.epc.toNat / 4 * 4), jumped := true }))) ∧
     (s.CtxReady c 0x7E 3 e.g 0 0 0 → s.immU 6 0 = 0 → x.priv = false →
       exec (.eret e) s = .next (s.raise c s.ctl.group cCap 0 0))) ∧
  (∀ (s : State) (c epc code faddr info : Nat) (l : Launch),
     let x := s.ctx c
     let t := s.raise c epc code faddr info
     (0x20 ≤ code ∨ x.priv = true ∨ s.tvec x = 0) → tget s.weave.launches (s.launchOf x) = some l →
       tget t.weave.launches (s.launchOf x) =
         some { l with faults := l.faults ++ [⟨code, info, faddr, epc, 0, c, 0⟩] } ∧
       t.ctx c = { x with pc := BitVec.ofNat 64 s.ctl.group } ∧ t.mem = s.mem ∧ t.frame = s.frame)

/-- R364, R367: SYSRD gives a register that its level may read, SYSWR writes one that its level may write; a register of R364 that the
level may not read or write raises the capability-mismatch trap with the register's number as FADDR. A number that names none raises
ILLEGAL_ENCODING. R16 to R20, R51, R360: the numbers, the rights, and what a write leaves of each register. -/
def Obligations.SpecialRegisters : Prop :=
  (∀ (s : State) (c : Nat) (f : DImm) (w : AImm) (r : SysReg),
    let n := s.immU 6 f.i
    let m := s.immU 6 w.i
    let x := s.ctx c
    (s.CtxReady c 0x7E 1 f.g f.d 0 f.i → sysReg n = some r → (x.priv = true ∨ r.userRead = true) →
      exec (.sysrd f) s = retires (s.modCtx c (fun k => k.setX f.d (s.sysValue c r)))) ∧
    (s.CtxReady c 0x7E 1 f.g f.d 0 f.i → sysReg n = some r → x.priv = false → r.userRead = false →
      exec (.sysrd f) s = .next (s.raise c s.ctl.group cCap n 0)) ∧
    (s.CtxReady c 0x7E 2 w.g 0 w.a w.i → sysReg m = some r →
      (if x.priv then r.systemWrite else r.userWrite) = true →
        exec (.syswr w) s = retires (s.modCtx c (fun k => k.sysWrite r (k.x w.a)))) ∧
    (s.CtxReady c 0x7E 2 w.g 0 w.a w.i → sysReg m = some r →
      (if x.priv then r.systemWrite else r.userWrite) = false →
        exec (.syswr w) s = .next (s.raise c s.ctl.group cCap m 0)) ∧
    (s.ctl.cur = .ctx c → (s.ctx? c).isSome = true →
      (sysReg n = none → exec (.sysrd f) s = .next (s.raise c s.ctl.group cIllegal 0 0)) ∧
      (sysReg m = none → exec (.syswr w) s = .next (s.raise c s.ctl.group cIllegal 0 0)))) ∧
  ((List.range 19).map sysReg = [SysReg.status, .flags, .firsterr, .seed, .epc, .cause, .faddr, .asid, .drawc, .tvec, .sscr 0, .sscr 1,
      .sscr 2, .sscr 3, .fcnt, .flen, .pausebnd, .sliplog, .holdmax].map some ∧
    (∀ i, i < 64 → sysReg (64 + 2 * i) = some (.slipent i false) ∧ sysReg (65 + 2 * i) = some (.slipent i true)) ∧
    (∀ n, (19 ≤ n ∧ n < 64) ∨ 192 ≤ n → sysReg n = none)) ∧
  (∀ r : SysReg,
    (r.userRead = true ↔ r ∈ [.status, .flags, .firsterr, .seed, .drawc, .fcnt, .flen, .pausebnd]) ∧
    (r.userWrite = true ↔ r = .status ∨ r = .flags) ∧
    (r.systemWrite = true ↔ r ∈ [.status, .flags, .firsterr, .epc, .cause, .faddr, .drawc] ∨ ∃ i, r = .sscr i)) ∧
  (∀ (s : State) (c i : Nat),
    let x := s.ctx c
    s.sysValue c .status = x.status ∧ s.sysValue c .flags = x.flags ∧ s.sysValue c .firsterr = x.firsterr ∧
    s.sysValue c .seed = x.seed ∧ s.sysValue c .epc = x.epc ∧ s.sysValue c .cause = x.cause ∧ s.sysValue c .faddr = x.faddr ∧
    s.sysValue c .asid = x.asid ∧ s.sysValue c .drawc = x.drawc ∧ s.sysValue c (.sscr i) = tgetD x.sscr i 0 ∧
    s.sysValue c .fcnt = s.frame.fcnt ∧ s.sysValue c .flen = s.frame.flen ∧ s.sysValue c .pausebnd = s.frame.pausebnd ∧
    s.sysValue c .holdmax = s.frame.holdmax ∧ s.sysValue c .sliplog = BitVec.ofNat 64 (s.frame.total * 2 ^ 32 + s.frame.next) ∧
    (∀ g l, tget s.weave.gangs x.gang = some g → tget s.weave.launches g.launch = some l → s.sysValue c .tvec = BitVec.ofNat 64 l.tvec) ∧
    (∀ e, tget s.frame.slip i = some e → s.sysValue c (.slipent i false) = e.1 ∧ s.sysValue c (.slipent i true) = e.2)) ∧
  (∀ (x : Ctx) (v : W64) (i : Nat),
    let bits (r : SysReg) (get : Ctx → W64) (f : Nat → Bool) : Prop :=
      (∀ j, j < 64 → (get (x.sysWrite r v)).getLsbD j = f j)
    let old (w : W64) (j : Nat) : Bool := w.getLsbD j
    let rm := v.toNat / 4 % 8
    bits .status Ctx.status (fun j => if 2 ≤ j ∧ j < 5 then decide (rm < 5) && v.getLsbD j else old x.status j) ∧
    bits .flags Ctx.flags (fun j => old x.flags j && !(decide (j < 6) && v.getLsbD j)) ∧
    bits .firsterr Ctx.firsterr (fun j => decide (j = 63 ∨ j < 16) && v.getLsbD j) ∧
    bits .epc Ctx.epc v.getLsbD ∧ bits .cause Ctx.cause (fun j => decide (j < 8 ∨ 16 ≤ j ∧ j < 48) && v.getLsbD j) ∧
    bits .faddr Ctx.faddr v.getLsbD ∧ bits .drawc Ctx.drawc (fun j => decide (j < 63) && v.getLsbD j) ∧
    bits (.sscr i) (fun y => tgetD y.sscr i 0) v.getLsbD ∧
    (∀ r, (x.sysWrite r v) = { x with
      status := (x.sysWrite r v).status, flags := (x.sysWrite r v).flags, firsterr := (x.sysWrite r v).firsterr
      epc := (x.sysWrite r v).epc, cause := (x.sysWrite r v).cause, faddr := (x.sysWrite r v).faddr
      drawc := (x.sysWrite r v).drawc, sscr := (x.sysWrite r v).sscr }))

/-- R62: EXT does nothing but stand before the syllable that follows: that one's immediate has EXT's 24 bits above its own.
R69, R27, R359: at an encoding that no rule gives a meaning, or a syllable that may not be executed, a context raises
ILLEGAL_ENCODING or FETCH_NONEXEC at its pc. -/
def Obligations.ImmediateExtension : Prop :=
  (∀ (s : State) (e : ExtImm) (n v : Nat), s.ctl.cur ≠ .none → e.i < 2 ^ 24 → v < 2 ^ n → n ≤ 40 →
     ∃ t, exec (.ext e) s = .next t ∧ t.immU n v = e.i * 2 ^ n + v ∧
       (t.immS n v).toInt = (if e.i < 2 ^ 23 then ((e.i * 2 ^ n + v : Nat) : Int) else ((e.i * 2 ^ n + v : Nat) : Int) - 2 ^ (n + 24)) ∧
       t.mem = s.mem ∧ t.weave = s.weave ∧ t.frame = s.frame ∧ t.eng = s.eng ∧ t.host = s.host) ∧
  (∀ (s : State) (c : Nat) (x : Ctx), s.ctx? c = some x →
     let t : State := { s with ctl := { s.ctl with group := x.pc.toNat } }
     exec (.illegalEncoding c) s = .next (t.raise c x.pc.toNat cIllegal 0 0) ∧
     exec (.fetchNonexec c) s = .next (t.raise c x.pc.toNat cFetch x.pc.toNat 0))

/-! ### Arithmetic on y registers -/

/-- R26, R49, R56: an element-wise result holds in lane `i` what the lane's function gives, cut to the lane, and its flags are those of
all its lanes together.
R36, R37, R41, R48, R49: what the rounding functions give, as numbers: an exact result is unchanged in every mode; RNE gives the nearest
number, an even code on a tie, and overflows at half a step beyond the largest; RTZ, RUP, RDN and SR give the neighbour that the mode names;
sums, products and fused sums round the exact number once.
R52, R53, R200: exp2 follows its procedure; 1/x and 1/√x are rounded once. R34, R35, R39, R42, R43, R46, R47: element codes, and
quantisation and decoding under a scale byte (the tie of a format of one bit is left out: log 14 reads it). -/
def Obligations.LanesAndFlags : Prop :=
  (∀ (n k : Nat) (g : Nat → Nat × Nat), 0 < n →
    (∀ i, i < k → lane n i (yMap n k g).1 = (g i).1 % 2 ^ n) ∧ (yMap n k g).1 < 2 ^ (n * k) ∧
    ∀ j, (yMap n k g).2.testBit j = true ↔ ∃ i, i < k ∧ (g i).2.testBit j = true) ∧
  (∀ (f : Fmt) (lim : Rat) (rm : Rm) (u : Nat) (d : Dy),
    (f, lim) ∈ [(f32, ((2 ^ 25 - 1) * 2 ^ 103 : Rat)), (f16, (65520 : Rat)), (bf16, ((2 ^ 9 - 1) * 2 ^ 119 : Rat))] → d.m ≠ 0 →
      let q := d.rat
      let r := f.ofValue rm u (.fin d)
      (∀ c, c < 2 ^ f.width → f.has c q → r = (c, 0)) ∧
      (rm = .rne → (q.abs < lim → f.nearest r.1 q ∧ (r.2.testBit 0 = true ↔ ¬f.has r.1 q) ∧ r.2.testBit 2 = false) ∧
        (lim ≤ q.abs → r = (f.signed d.neg f.infCode, OF ||| NX))) ∧
      (rm = .rtz → ∃ w, f.has r.1 w ∧ w.abs ≤ q.abs ∧ 0 ≤ w * q ∧ ∀ c z, f.has c z → z.abs ≤ q.abs → z.abs ≤ w.abs) ∧
      (rm = .rup → (∀ w, f.has r.1 w → q ≤ w ∧ ∀ c z, f.has c z → q ≤ z → w ≤ z) ∧
        ((∃ w, f.has r.1 w) ∨ f.value r.1 = .inf false ∧ ∀ c z, f.has c z → z < q)) ∧
      (rm = .rdn → (∀ w, f.has r.1 w → w ≤ q ∧ ∀ c z, f.has c z → z ≤ q → z ≤ w) ∧
        ((∃ w, f.has r.1 w) ∨ f.value r.1 = .inf true ∧ ∀ c z, f.has c z → q < z)) ∧
      (rm = .sr →
        (∀ c lo hi, c + 1 < f.infCode → f.has c lo → f.has (c + 1) hi → lo < q.abs → q.abs < hi →
          r.1 = f.signed d.neg (if (u : Rat) * (hi - lo) < 2 ^ 24 * (q.abs - lo) then c + 1 else c)) ∧
        ((∀ c z, f.has c z → z < q.abs) → r = f.ofValue .rne u (.fin d)))) ∧
  (∀ (f : Fmt) (rm : Rm) (u a b c : Nat) (x y w z : Dy) (sa sb : Bool), f ∈ [f32, f16, bf16] →
    (f.value a = .fin x → f.value b = .fin y →
      (z.m ≠ 0 → z.rat = x.rat + y.rat → fadd f rm u a b = f.ofValue rm u (.fin z)) ∧
      (x.rat + y.rat = 0 → fadd f rm u a b =
        (f.signed (if x.m = 0 ∧ y.m = 0 ∧ x.neg = y.neg then x.neg else decide (rm = .rdn)) 0, 0)) ∧
      (z.m ≠ 0 → z.rat = x.rat - y.rat → fsub f rm u a b = f.ofValue rm u (.fin z)) ∧
      (z.m ≠ 0 → z.rat = x.rat * y.rat → fmul f rm u a b = f.ofValue rm u (.fin z)) ∧
      (x.rat * y.rat = 0 → fmul f rm u a b = (f.signed (x.neg != y.neg) 0, 0)) ∧
      (z.m ≠ 0 → y.m ≠ 0 → z.rat * y.rat = x.rat → (fdiv f .rne 0 a b).1 = (f.ofValue .rne 0 (.fin z)).1) ∧
      (f.value c = .fin w → z.m ≠ 0 → z.rat = x.rat * y.rat + w.rat → ffma f rm u a b c = f.ofValue rm u (.fin z))) ∧
    (f.value a = .nan ∨ f.value b = .nan → fadd f rm u a b = (f.nanCode, 0) ∧ fsub f rm u a b = (f.nanCode, 0) ∧
      fmul f rm u a b = (f.nanCode, 0) ∧ ffma f rm u a b c = (f.nanCode, 0)) ∧
    (f.value c = .nan → ffma f rm u a b c = (f.nanCode, 0)) ∧
    (f.value a = .inf sa → f.value b = .inf sb →
      fadd f rm u a b = (if sa = sb then (f.signed sa f.infCode, 0) else (f.nanCode, NV)) ∧
      fmul f rm u a b = (f.signed (sa != sb) f.infCode, 0)) ∧
    (f.value a = .inf sa → f.value b = .fin y → fadd f rm u a b = (f.signed sa f.infCode, 0) ∧
      fmul f rm u a b = (if y.m = 0 then (f.nanCode, NV) else (f.signed (sa != y.neg) f.infCode, 0)))) ∧
  (∀ (x : Nat) (d : Dy), f32.value x = .fin d →
    let lim : Rat := (2 ^ 25 - 1) * 2 ^ 103
    let q : Rat := 1 / d.rat
    (d.m = 0 → frcp x = (f32.signed d.neg f32.infCode, DZ) ∧ frsq x = (f32.signed d.neg f32.infCode, DZ)) ∧
    (d.m ≠ 0 → (q.abs < lim → f32.nearest (frcp x).1 q ∧ ((frcp x).2.testBit 0 = true ↔ ¬f32.has (frcp x).1 q)) ∧
      (lim ≤ q.abs → frcp x = (f32.signed d.neg f32.infCode, OF ||| NX)) ∧
      (d.neg = true → frsq x = (f32.nanCode, NV)) ∧
      (d.neg = false → ∃ w, f32.has (frsq x).1 w ∧ 0 < w ∧ ∀ c z, f32.has c z →
        (w < z → 1 ≤ ((w + z) / 2) ^ 2 * d.rat) ∧ (0 ≤ z → z < w → ((w + z) / 2) ^ 2 * d.rat ≤ 1)))) ∧
  (∀ i, i ≤ 128 → ∃ w, f32.has (expT i) w ∧ 1 ≤ w ∧ ∀ c z, f32.has c z →
    (w < z → 2 ^ i ≤ ((w + z) / 2) ^ 128) ∧ (0 ≤ z → z < w → ((w + z) / 2) ^ 128 ≤ 2 ^ i)) ∧
  (∀ (x : Nat) (d sl z : Dy), f32.value x = .fin d →
    let n := d.rat.floor
    let fr : Rat := d.rat - n
    let i := (128 * fr).floor.toNat
    f32.value (fsub f32 .rne 0 (expT (i + 1)) (expT i)).1 = .fin sl → z.rat = 128 * sl.rat * (fr - (i : Rat) / 128) →
      ∃ m, f32.has (fadd f32 .rne 0 (expT i) (f32.ofValue .rne 0 (.fin z)).1).1 m ∧
        (let v : Rat := m * 2 ^ n
         (2 ^ 128 ≤ v → exp2 x = (f32.infCode, OF ||| NX)) ∧ (v < 2 ^ (-126 : Int) → exp2 x = (0, UF ||| NX)) ∧
         (2 ^ (-126 : Int) ≤ v → v < 2 ^ 128 → f32.has (exp2 x).1 v ∧ (exp2 x).2 = if fr = 0 then 0 else NX))) ∧
  (∀ x, (f32.value x = .nan → exp2 x = (f32.nanCode, 0) ∧ frcp x = (f32.nanCode, 0) ∧ frsq x = (f32.nanCode, 0)) ∧
    (f32.value x = .inf true → exp2 x = (0, 0) ∧ frcp x = (2 ^ 31, 0) ∧ frsq x = (f32.nanCode, NV)) ∧
    (f32.value x = .inf false → exp2 x = (f32.infCode, 0) ∧ frcp x = (0, 0) ∧ frsq x = (0, 0))) ∧
  (∀ (fmt c : Nat), fmt < 256 → isB8 fmt = true → c < 256 →
    let P := fmt % 8
    let nat := fmt.testBit 5
    let ext := fmt.testBit 6
    let bias : Int := 2 ^ ((if nat = true then 9 else 8) - P - 1)
    let e := (if nat = true then c else c % 128) / 2 ^ (P - 1)
    let tt := c % 2 ^ (P - 1)
    let mag : Rat := if e = 0 then 2 ^ (1 - bias) * tt / 2 ^ (P - 1) else 2 ^ ((e : Int) - bias) * (1 + (tt : Rat) / 2 ^ (P - 1))
    (c = (if nat = true then 0xFF else 0x80) → b8Decode fmt c = .nan) ∧
    (c ≠ (if nat = true then 0xFF else 0x80) →
      (ext = true → nat = true → c = 0xFE → b8Decode fmt c = .inf false) ∧ (ext = true → nat = false → c = 0x7F → b8Decode fmt c = .inf false) ∧
      (ext = true → nat = false → c = 0xFF → b8Decode fmt c = .inf true) ∧
      ((ext = false ∨ (if nat = true then c ≠ 0xFE else c % 128 ≠ 0x7F)) →
        ∃ v, b8Decode fmt c = .fin v ∧ v.rat = (if nat = false ∧ 128 ≤ c then -mag else mag)))) ∧
  (∀ (T : Tbl W32) (tn fmt e c u : Nat) (rm : Rm) (v : Fv) (f : Fmt) (lo hi n : Int) (d x z : Dy),
    let w := fmtWidth fmt
    (fmt ∈ [16, 17, 18] → ieeeOf fmt = some f → quantise T tn fmt 255 rm u v = (f.nanCode, 0)) ∧
    (1 ≤ fmt → fmt ≤ 9 → quantise T tn fmt 255 rm u v = (0, NV)) ∧
    (fmt < 256 → isB8 fmt = true → quantise T tn fmt 255 rm u v = (if fmt.testBit 5 = true then 0xFF else 0x80, 0)) ∧
    dequant T tn fmt 255 c = (f32.nanCode, 0) ∧
    (e < 255 → d.m ≠ 0 → z.rat = d.rat * 2 ^ (127 - (e : Int)) →
      (ieeeOf fmt = some f → z.m ≠ 0 → quantise T 0 fmt e rm u (.fin d) = f.ofValue rm u (.fin z)) ∧
      (intRange fmt = some (lo, hi) → (z.rat - n).abs ≤ 1 / 2 → ((z.rat - n).abs = 1 / 2 → n % 2 = 0) →
        quantise T 0 fmt e .rne u (.fin d) = (if n < lo then ((lo % 2 ^ w).toNat, NV) else if hi < n then ((hi % 2 ^ w).toNat, NV)
          else ((n % 2 ^ w).toNat, if z.rat = n then 0 else NX))) ∧
      (fmt < 256 → isB8 fmt = true → 2 ≤ fmt % 8 → fmt.testBit 5 = false →
        let r := quantise T 0 fmt e .rne u (.fin d)
        (r.2.testBit 2 = false → ∃ y, b8Decode fmt r.1 = .fin y ∧ ∀ c y', c < 256 → b8Decode fmt c = .fin y' →
          (y.rat - z.rat).abs ≤ (y'.rat - z.rat).abs ∧ ((y.rat - z.rat).abs = (y'.rat - z.rat).abs → y'.rat = y.rat ∨ r.1 % 2 = 0)) ∧
        (r.2.testBit 2 = true → (∀ c y', c < 256 → b8Decode fmt c = .fin y' → y'.rat < z.rat.abs) ∧
          r.1 = (if d.neg = true then 0xFF else 0x7F)))) ∧
    (e < 255 → elemValue fmt c = .fin x → z.m ≠ 0 → z.rat = x.rat * 2 ^ ((e : Int) - 127) →
      dequant T 0 fmt e c = f32.ofValue .rne 0 (.fin z)) ∧
    (1 ≤ fmt → fmt ≤ 9 → ∃ y, elemValue fmt c = .fin y ∧
      y.rat = (if fmt ∈ [1, 2, 3, 4, 9] then ((BitVec.ofNat w c).toInt : Rat) else (c : Rat))) ∧
    (∀ a b, d.neg = false → z.rat = d.rat * 2 ^ (5 - tblEC T) → f32.has (f32.ofValue .rne 0 (.fin z)).1 a → b = min a.floor.toNat 31 →
      let K (i : Nat) : Nat := (tgetD T (i + 1) 0).toNat
      (compand T (.fin d)).1 = (ffma f32 .rne 0 (fsub f32 .rne 0 (K (b + 1)) (K b)).1
        (fsub f32 .rne 0 (f32.ofValue .rne 0 (.fin z)).1 (f32.ofValue .rne 0 (.fin ⟨false, b, 0⟩)).1).1 (K b)).1))

/-- R51, R153: each three-register y form writes every lane of D, adds the lanes' flags to FLAGS, and takes one draw where it rounds
stochastically.
R55, R58, R153: conversions of one source, reductions by the tree of R55, and the moves between lanes and x registers. -/
def Obligations.WeaveVectorForms : Prop :=
  (∀ (s : State) (c : Nat) (f : Tri),
     let x := s.ctx c
     let u (i : Nat) : Nat := if x.rm = .sr then drawOf x.seed x.drawc i else 0
     let A (n i : Nat) : Nat := lane n i (x.y f.a).toNat
     let B (n i : Nat) : Nat := lane n i (x.y f.b).toNat
     let D (n i : Nat) : Nat := lane n i (x.y f.d).toNat
     let put (r : Nat × Nat) : Ctx := (x.setY f.d (BitVec.ofNat 256 r.1)).orFlags r.2
     let rounds (i : Instr) (maj m n : Nat) (g : Nat → Nat × Nat) : Prop :=
       s.CtxReady c maj m f.g f.d f.a f.b → exec i s = retires (s.setCtx c
         (if x.rm = .sr then { put (yMap n (256 / n) g) with drawc := nextDraw x.drawc } else put (yMap n (256 / n) g)))
     let plain (i : Instr) (maj m n : Nat) (g : Nat → Nat) : Prop :=
       s.CtxReady c maj m f.g f.d f.a f.b →
         exec i s = retires (s.setCtx c (put ((yMap n (256 / n) (fun i => (g i, 0))).1, 0)))
     rounds (.yaddF32 f) 0x40 0 32 (fun i => fadd f32 x.rm (u i) (A 32 i) (B 32 i)) ∧
     rounds (.ysubF32 f) 0x40 1 32 (fun i => fsub f32 x.rm (u i) (A 32 i) (B 32 i)) ∧
     rounds (.ymulF32 f) 0x40 2 32 (fun i => fmul f32 x.rm (u i) (A 32 i) (B 32 i)) ∧
     rounds (.yfmaF32 f) 0x40 3 32 (fun i => ffma f32 x.rm (u i) (A 32 i) (B 32 i) (D 32 i)) ∧
     rounds (.yaddBf16 f) 0x41 0 16 (fun i => fadd bf16 x.rm (u i) (A 16 i) (B 16 i)) ∧
     rounds (.ysubBf16 f) 0x41 1 16 (fun i => fsub bf16 x.rm (u i) (A 16 i) (B 16 i)) ∧
     rounds (.ymulBf16 f) 0x41 2 16 (fun i => fmul bf16 x.rm (u i) (A 16 i) (B 16 i)) ∧
     rounds (.yfmaBf16 f) 0x41 3 16 (fun i => ffma bf16 x.rm (u i) (A 16 i) (B 16 i) (D 16 i)) ∧
     plain (.yaddI32 f) 0x42 0 32 (fun i => (A 32 i + B 32 i) % 2 ^ 32) ∧
     plain (.ysubI32 f) 0x42 1 32 (fun i => (A 32 i + (2 ^ 32 - B 32 i)) % 2 ^ 32) ∧
     plain (.ymulI32 f) 0x42 2 32 (fun i => A 32 i * B 32 i % 2 ^ 32) ∧
     plain (.ymacI32 f) 0x42 3 32 (fun i => (D 32 i + A 32 i * B 32 i) % 2 ^ 32) ∧
     plain (.yminF32 f) 0x43 0 32 (fun i => fmin f32 (A 32 i) (B 32 i)) ∧
     plain (.ymaxF32 f) 0x43 1 32 (fun i => fmax f32 (A 32 i) (B 32 i)) ∧
     plain (.yminI32 f) 0x43 2 32 (fun i => if toI 32 (A 32 i) ≤ toI 32 (B 32 i) then A 32 i else B 32 i) ∧
     plain (.ymaxI32 f) 0x43 3 32 (fun i => if toI 32 (A 32 i) < toI 32 (B 32 i) then B 32 i else A 32 i) ∧
     rounds (.ycvtBf16F32 f) 0x44 0 16 (fun i =>
       bf16.ofValue x.rm (u i) (f32.value (if i < 8 then A 32 i else B 32 (i - 8)))) ∧
     plain (.yand f) 0x45 0 32 (fun i => A 32 i &&& B 32 i) ∧ plain (.yor f) 0x45 1 32 (fun i => A 32 i ||| B 32 i) ∧
     plain (.yxor f) 0x45 2 32 (fun i => A 32 i ^^^ B 32 i) ∧ plain (.yshf f) 0x45 3 32 (fun i => A 32 (B 32 i % 8)) ∧
     plain (.ysel f) 0x47 3 32 (fun i => if D 32 i < 2 ^ 31 then B 32 i else A 32 i)) ∧
  (∀ (s : State) (c : Nat) (h : BinH2) (f : Bin) (t : Tri),
     let x := s.ctx c
     let u (i : Nat) : Nat := if x.rm = .sr then drawOf x.seed x.drawc i else 0
     let A (i : Nat) : Nat := lane 32 i (x.y f.a).toNat
     let put (d : Nat) (r : Nat × Nat) : Ctx := (x.setY d (BitVec.ofNat 256 r.1)).orFlags r.2
     let drawn (k : Ctx) : Ctx := if x.rm = .sr then { k with drawc := nextDraw x.drawc } else k
     (s.CtxReady c 0x44 1 h.g h.d h.a h.h → exec (.ycvtF32Bf16 h) s = retires (s.setCtx c (put h.d ((yMap 32 8 (fun i =>
       ((f32.ofValue .rne 0 (bf16.value (lane 16 (8 * h.h + i) (x.y h.a).toNat))).1, 0))).1, 0)))) ∧
     (s.CtxReady c 0x44 2 f.g f.d f.a 0 → exec (.ycvtI32F32 f) s = retires (s.setCtx c (drawn (put f.d (yMap 32 8 (fun i =>
       let r := toIntRange x.rm (u i) (-2147483648) 2147483647 (f32.value (A i))
       (ofI 32 r.1, r.2))))))) ∧
     (s.CtxReady c 0x44 3 f.g f.d f.a 0 → exec (.ycvtF32I32 f) s = retires (s.setCtx c (drawn (put f.d (yMap 32 8 (fun i =>
       f32.ofValue x.rm (u i) (Fv.ofInt (toI 32 (A i))))))))) ∧
     (let L := (List.range 8).map A
      let tree (g : Nat × Nat → Nat × Nat → Nat × Nat) : Nat × Nat :=
        let p (i : Nat) : Nat × Nat := (L.getD i 0, 0)
        g (g (g (p 0) (p 1)) (g (p 2) (p 3))) (g (g (p 4) (p 5)) (g (p 6) (p 7)))
      let both (g : Nat → Nat → Nat × Nat) : Nat × Nat := tree (fun a b => ((g a.1 b.1).1, (g a.1 b.1).2 ||| a.2 ||| b.2))
      let gives (i : Instr) (m : Nat) (r : Nat × Nat) (v : W64) : Prop :=
        s.CtxReady c 0x46 m f.g f.d f.a 0 → exec i s = retires ((s.setCtx c (x.orFlags r.2)).dst c f.d v)
      gives (.yrsumF32 f) 0 (both (fadd f32 .rne 0)) (BitVec.ofNat 64 (both (fadd f32 .rne 0)).1) ∧
      gives (.yrmaxF32 f) 1 (both (fun a b => (fmax f32 a b, 0))) (BitVec.ofNat 64 (both (fun a b => (fmax f32 a b, 0))).1) ∧
      gives (.yrsumI32 f) 2 (both (fun a b => ((a + b) % 2 ^ 32, 0)))
        ((BitVec.ofNat 32 (both (fun a b => ((a + b) % 2 ^ 32, 0))).1).signExtend 64) ∧
      gives (.yrmaxI32 f) 3 (both (fun a b => (if toI 32 a < toI 32 b then b else a, 0)))
        ((BitVec.ofNat 32 (both (fun a b => (if toI 32 a < toI 32 b then b else a, 0))).1).signExtend 64)) ∧
     (let ra := s.src c f.a
      s.CtxReady c 0x47 0 f.g f.d f.a 0 → exec (.ybcast f) s = retires (ra.2.modCtx c (fun q =>
        q.setY f.d (BitVec.ofNat 256 (ofLanes 32 (List.replicate 8 (ra.1.toNat % 2 ^ 32))))))) ∧
     (let rb := s.src c t.b
      s.CtxReady c 0x47 1 t.g t.d t.a t.b →
        exec (.yext t) s = retires (rb.2.dst c t.d (BitVec.ofNat 64 (lane 32 (rb.1.toNat % 8) (x.y t.a).toNat)))) ∧
     (let ra := s.src c t.a
      let rb := ra.2.src c t.b
      s.CtxReady c 0x47 2 t.g t.d t.a t.b → exec (.yins t) s = retires (rb.2.modCtx c (fun q =>
        q.setY t.d (BitVec.ofNat 256 (ofLanes 32 ((List.range 8).map (fun i =>
          if i = rb.1.toNat % 8 then ra.1.toNat % 2 ^ 32 else lane 32 i (q.y t.d).toNat))))))))

/-! ### Vector arithmetic of a bench -/

/-- R185, R188 to R190: the typed floating forms work element by element at the slot's width; the result and its flags land after the
latency of the row (3 for add and subtract, 4 for multiply and fused multiply-add, 1 for the rest). -/
def Obligations.FrameVectorFloat : Prop :=
  ∀ (s : State) (b : Nat) (sl : SlotName) (t : Tri) (u : Bin),
    let k := s.bench b
    let W := k.width sl
    let lands (lat n : Nat) (d : Nat) (g : Nat → Nat × Nat) : Answer :=
      retires (s.setBench b ((k.laterV lat d 0 W (yMap n (W / n) g).1).laterFlags lat (yMap n (W / n) g).2))
    let A (n i : Nat) : Nat := lane n i (k.rv t.a)
    let B (n i : Nat) : Nat := lane n i (k.rv t.b)
    let D (n i : Nat) : Nat := lane n i (k.rv t.d)
    let U (n i : Nat) : Nat := lane n i (k.rv u.a)
    let tri (i : Instr) (maj x lat n : Nat) (g : Nat → Nat × Nat) : Prop :=
      s.SlotReady b sl maj x t.g t.d t.a t.b → exec i s = lands lat n t.d g
    let one (i : Instr) (maj x n : Nat) (g : Nat → Nat) : Prop :=
      s.SlotReady b sl maj x u.g u.d u.a 0 → exec i s = lands 1 n u.d (fun j => (g j, 0))
    let abs (f : Fmt) (v : Nat) : Nat := if f.value v = .nan then f.nanCode else v % f.signBit
    let neg (f : Fmt) (v : Nat) : Nat := if f.value v = .nan then f.nanCode else (v + f.signBit) % (2 * f.signBit)
    let typed (maj n : Nat) (f : Fmt) (add sub mul fma min max : Tri → Instr) (ab ng : Bin → Instr) : Prop :=
      tri (add t) maj 0 3 n (fun i => fadd f .rne 0 (A n i) (B n i)) ∧ tri (sub t) maj 1 3 n (fun i => fsub f .rne 0 (A n i) (B n i)) ∧
      tri (mul t) maj 2 4 n (fun i => fmul f .rne 0 (A n i) (B n i)) ∧
      tri (fma t) maj 3 4 n (fun i => ffma f .rne 0 (A n i) (B n i) (D n i)) ∧
      tri (min t) (maj + 1) 0 1 n (fun i => (fmin f (A n i) (B n i), 0)) ∧
      tri (max t) (maj + 1) 1 1 n (fun i => (fmax f (A n i) (B n i), 0)) ∧
      one (ab u) (maj + 1) 2 n (fun i => abs f (U n i)) ∧ one (ng u) (maj + 1) 3 n (fun i => neg f (U n i))
    typed 0x50 32 f32 .vaddF32 .vsubF32 .vmulF32 .vfmaF32 .vminF32 .vmaxF32 .vabsF32 .vnegF32 ∧
    typed 0x52 16 bf16 .vaddBf16 .vsubBf16 .vmulBf16 .vfmaBf16 .vminBf16 .vmaxBf16 .vabsBf16 .vnegBf16 ∧
    typed 0x54 16 f16 .vaddF16 .vsubF16 .vmulF16 .vfmaF16 .vminF16 .vmaxF16 .vabsF16 .vnegF16

/-- R185, R188, R191: the typed integer forms wrap; VABS and VNEG of the most negative number give the most positive one and SAT. The
latency is 3 for a multiply, 1 for the rest. -/
def Obligations.FrameVectorInteger : Prop :=
  ∀ (s : State) (b : Nat) (sl : SlotName) (t : Tri) (u : Bin),
    let k := s.bench b
    let W := k.width sl
    let lands (lat n : Nat) (d : Nat) (g : Nat → Nat × Nat) : Answer :=
      retires (s.setBench b ((k.laterV lat d 0 W (yMap n (W / n) g).1).laterFlags lat (yMap n (W / n) g).2))
    let A (n i : Nat) : Nat := lane n i (k.rv t.a)
    let B (n i : Nat) : Nat := lane n i (k.rv t.b)
    let D (n i : Nat) : Nat := lane n i (k.rv t.d)
    let U (n i : Nat) : Nat := lane n i (k.rv u.a)
    let tri (i : Instr) (maj x lat n : Nat) (g : Nat → Nat) : Prop :=
      s.SlotReady b sl maj x t.g t.d t.a t.b → exec i s = lands lat n t.d (fun j => (g j, 0))
    let one (i : Instr) (maj x n : Nat) (g : Nat → Nat × Nat) : Prop :=
      s.SlotReady b sl maj x u.g u.d u.a 0 → exec i s = lands 1 n u.d g
    let neg (n v : Nat) : Nat × Nat := if v = 2 ^ (n - 1) then (2 ^ (n - 1) - 1, SAT) else ((2 ^ n - v) % 2 ^ n, 0)
    let abs (n v : Nat) : Nat × Nat := if v < 2 ^ (n - 1) then (v, 0) else neg n v
    let typed (maj n : Nat) (add sub mul mac min max : Tri → Instr) (ab ng : Bin → Instr) : Prop :=
      tri (add t) maj 0 1 n (fun i => (A n i + B n i) % 2 ^ n) ∧ tri (sub t) maj 1 1 n (fun i => (A n i + (2 ^ n - B n i)) % 2 ^ n) ∧
      tri (mul t) maj 2 3 n (fun i => A n i * B n i % 2 ^ n) ∧ tri (mac t) maj 3 3 n (fun i => (D n i + A n i * B n i) % 2 ^ n) ∧
      tri (min t) (maj + 1) 0 1 n (fun i => if toI n (A n i) ≤ toI n (B n i) then A n i else B n i) ∧
      tri (max t) (maj + 1) 1 1 n (fun i => if toI n (A n i) < toI n (B n i) then B n i else A n i) ∧
      one (ab u) (maj + 1) 2 n (fun i => abs n (U n i)) ∧ one (ng u) (maj + 1) 3 n (fun i => neg n (U n i))
    typed 0x56 32 .vaddI32 .vsubI32 .vmulI32 .vmacI32 .vminI32 .vmaxI32 .vabsI32 .vnegI32 ∧
    typed 0x58 16 .vaddI16 .vsubI16 .vmulI16 .vmacI16 .vminI16 .vmaxI16 .vabsI16 .vnegI16 ∧
    typed 0x5A 8 .vaddI8 .vsubI8 .vmulI8 .vmacI8 .vminI8 .vmaxI8 .vabsI8 .vnegI8

/-- R192 to R200: conversions write the half they name or the width, under the mode they hold, with a draw under SR; the quantising
forms read a legal descriptor from B, whose fields stand where R194 puts them, and land 6 ticks later; the special functions of F32 land their value. The value of VLOG2 is log 13's
deduction from R200, and the ties of quantising and decoding in a format of one bit are log 14's: these two clauses are the model's
reading. What the other functions give is pinned in LanesAndFlags. -/
def Obligations.FrameVectorConvert : Prop :=
  ∀ (s : State) (b : Nat) (sl : SlotName) (h : BinH7) (n : CvtHR) (c : CvtR) (t : Tri) (u : Bin) (q : QDesc) (f : Nat),
    let k := s.bench b
    let W := k.width sl
    let draw (rm : Rm) (i : Nat) : Nat := if rm = .sr then drawOf ((s.frame.launch.map (·.seed)).getD 0) k.drawc i else 0
    let lands (lat d lo w : Nat) (rm : Rm) (r : Nat × Nat) : Answer :=
      let k1 := (k.laterV lat d lo w r.1).laterFlags lat r.2
      retires (s.setBench b (if rm = .sr then { k1 with drawc := nextDraw k1.drawc } else k1))
    (s.SlotReady b sl 0x5C 0 h.g h.d h.a (32 * h.h) → exec (.vcvtF32Bf16 h) s = lands 3 h.d 0 W .rne (yMap 32 (W / 32) (fun i =>
      ((f32.ofValue .rne 0 (bf16.value (lane 16 (h.h * (W / 32) + i) (k.rv h.a)))).1, 0)))) ∧
    (s.SlotReady b sl 0x5C 1 h.g h.d h.a (32 * h.h) → exec (.vcvtF32F16 h) s = lands 3 h.d 0 W .rne (yMap 32 (W / 32) (fun i =>
      ((f32.ofValue .rne 0 (f16.value (lane 16 (h.h * (W / 32) + i) (k.rv h.a)))).1, 0)))) ∧
    (let rm := Rm.ofCode n.r
     (s.SlotReady b sl 0x5C 2 n.g n.d n.a (32 * n.h + n.r) → exec (.vcvtBf16F32 n) s = lands 3 n.d (n.h * (W / 2)) (W / 2) rm
       (yMap 16 (W / 32) (fun i => bf16.ofValue rm (draw rm i) (f32.value (lane 32 i (k.rv n.a)))))) ∧
     (s.SlotReady b sl 0x5C 3 n.g n.d n.a (32 * n.h + n.r) → exec (.vcvtF16F32 n) s = lands 3 n.d (n.h * (W / 2)) (W / 2) rm
       (yMap 16 (W / 32) (fun i => f16.ofValue rm (draw rm i) (f32.value (lane 32 i (k.rv n.a))))))) ∧
    (let rm := Rm.ofCode c.r
     (s.SlotReady b sl 0x5D 0 c.g c.d c.a c.r → exec (.vcvtF32I32 c) s = lands 3 c.d 0 W rm (yMap 32 (W / 32) (fun i =>
       f32.ofValue rm (draw rm i) (Fv.ofInt (toI 32 (lane 32 i (k.rv c.a))))))) ∧
     (s.SlotReady b sl 0x5D 1 c.g c.d c.a c.r → exec (.vcvtI32F32 c) s = lands 3 c.d 0 W rm (yMap 32 (W / 32) (fun i =>
       let r := toIntRange rm (draw rm i) (-2147483648) 2147483647 (f32.value (lane 32 i (k.rv c.a)))
       (ofI 32 r.1, r.2))))) ∧
    (s.SlotReady b sl 0x5D 2 h.g h.d h.a (32 * h.h) → exec (.vcvtI16I32 h) s = lands 3 h.d (h.h * (W / 2)) (W / 2) .rne
      (yMap 16 (W / 32) (fun i => satI 16 (toI 32 (lane 32 i (k.rv h.a)))))) ∧
    (s.SlotReady b sl 0x5D 3 h.g h.d h.a (32 * h.h) → exec (.vcvtI8I16 h) s = lands 3 h.d (h.h * (W / 2)) (W / 2) .rne
      (yMap 8 (W / 16) (fun i => satI 8 (toI 16 (lane 16 i (k.rv h.a)))))) ∧
    (∀ (v : Nat) (comp : Bool), s.qdesc v comp = .ok q ↔
      (fld v 13 51 = 0 ∧ fld v 6 2 = 0 ∧ fld v 3 1 = 0 ∧ fld v 0 3 ≤ 4 ∧ (fld v 12 1 = 0 ∨ comp = true) ∧
        (fld v 8 4 = 0 ∨ tblValid (s.compander (fld v 8 4)) = true)) ∧ q = ⟨fld v 12 1 == 1, fld v 8 4, fld v 4 2, fld v 0 3⟩) ∧
    (s.qdesc (k.ra t.b).toNat false = .ok q → selFmt k.fmtsel.toNat = .ok f →
      let T := s.compander q.tbl
      let rm := Rm.ofCode q.rm
      let e (i : Nat) : Nat := if q.geo = 3 then 127 else lane 8 (i / (16 * 2 ^ q.geo)) (k.rv t.d)
      (s.SlotReady b sl 0x5E 0 t.g t.d t.a t.b → exec (.vqnt t) s = lands 6 t.d 0 W rm (yMap (fmtWidth f) (W / 32) (fun i =>
        quantise T q.tbl f (e i) rm (draw rm i) (f32.value (lane 32 i (k.rv t.a)))))) ∧
      (s.SlotReady b sl 0x5E 1 t.g t.d t.a t.b → exec (.vdq t) s = lands 6 t.d 0 W .rne (yMap 32 (W / 32) (fun i =>
        dequant T q.tbl f (e i) (lane (fmtWidth f) i (k.rv t.a))))) ∧
      (s.SlotReady b sl 0x5E 2 t.g t.d t.a t.b → exec (.vscl t) s = lands 6 t.d 0 W .rne
        (let z := 16 * 2 ^ q.geo
         let x := if q.tbl = 0 then emaxOf f else tblEC T
         (if q.geo = 3 then 127 else ofLanes 8 ((List.range ((W / 32 + z - 1) / z)).map (fun j =>
           blockScale x ((((List.range (W / 32)).map (fun i => lane 32 i (k.rv t.a))).drop (z * j)).take z))), 0)))) ∧
    (s.qdesc (k.ra t.b).toNat true = .ok q → s.SlotReady b sl 0x5E 3 t.g t.d t.a t.b →
      exec (.vcomp t) s = lands 6 t.d 0 W .rne (yMap 32 (W / 32) (fun i =>
        let v := lane 32 i (k.rv t.a)
        if f32.value v = .nan then (f32.nanCode, 0) else if q.tbl = 0 then (v, 0)
        else if q.inv then expandSigned (s.compander q.tbl) v else compandSigned (s.compander q.tbl) (f32.value v)))) ∧
    (let sp (i : Instr) (x lat : Nat) (g : Nat → Nat × Nat) : Prop := s.SlotReady b sl 0x5F x u.g u.d u.a 0 →
       exec i s = lands lat u.d 0 W .rne (yMap 32 (W / 32) (fun j => g (lane 32 j (k.rv u.a))))
     sp (.vexp2 u) 0 6 exp2 ∧ sp (.vrcp u) 1 8 frcp ∧ sp (.vrsq u) 2 8 frsq ∧ sp (.vlog2 u) 3 8 flog2)

/-- R201 to R205, R208: comparisons give lanes of ones or zeros; logic, shuffles, selects and fills work lane by lane; VMASK folds the
lanes' sign bits into a guard; reductions fold neighbours and write every element; VMOVA, VMOVV, VSPLAT and VIOTA move.
R206, R207: an access at A + imm × size, aligned down, within tensor SRAM and outside every owned range completes: VLD and VLDB
read what the SRAM holds at the start of the tick, with what has landed at it in place (log 46), and land 5 ticks later; VST and VSTM write at the tick's end, VSTM the lanes that
the register after D marks. Beyond tensor SRAM each raises SRAM_RANGE, and names the lowest lane there (R57). -/
def Obligations.FrameLanesAndMemory : Prop :=
  (∀ (s : State) (b : Nat) (sl : SlotName) (t : Tri) (u : Bin) (n : BinN) (m : GuardN),
     let k := s.bench b
     let W := k.width sl
     let land (lat d w : Nat) (l : Nat → Nat) : Answer :=
       retires (s.setBench b (k.laterV lat d 0 w (ofLanes 32 ((List.range (w / 32)).map l))))
     let A (i : Nat) : Nat := lane 32 i (k.rv t.a)
     let B (i : Nat) : Nat := lane 32 i (k.rv t.b)
     let D (i : Nat) : Nat := lane 32 i (k.rv t.d)
     let U (i : Nat) : Nat := lane 32 i (k.rv u.a)
     let N (i : Nat) : Nat := lane 32 i (k.rv n.a)
     let F (v : Nat) : Fv := f32.value v
     let all (p : Prop) [Decidable p] : Nat := if p then 2 ^ 32 - 1 else 0
     let tri (i : Instr) (maj x : Nat) (g : Nat → Nat) : Prop :=
       s.SlotReady b sl maj x t.g t.d t.a t.b → exec i s = land 1 t.d W g
     (tri (.vcmpEqF32 t) 0x60 0 (fun i => all ((F (A i)).eqv (F (B i)) = true)) ∧
      tri (.vcmpLtF32 t) 0x60 1 (fun i => all ((F (A i)).lt (F (B i)) = true)) ∧
      tri (.vcmpLeF32 t) 0x60 2 (fun i => all ((F (A i)).lt (F (B i)) = true ∨ (F (A i)).eqv (F (B i)) = true)) ∧
      tri (.vcmpNeF32 t) 0x60 3 (fun i => all (¬(F (A i)).eqv (F (B i)) = true)) ∧
      tri (.vcmpEqI32 t) 0x61 0 (fun i => all (A i = B i)) ∧ tri (.vcmpLtI32 t) 0x61 1 (fun i => all (toI 32 (A i) < toI 32 (B i))) ∧
      tri (.vcmpLeI32 t) 0x61 2 (fun i => all (toI 32 (A i) ≤ toI 32 (B i))) ∧
      tri (.vcmpNeI32 t) 0x61 3 (fun i => all (¬A i = B i))) ∧
     (tri (.vand t) 0x62 0 (fun i => A i &&& B i) ∧ tri (.vor t) 0x62 1 (fun i => A i ||| B i) ∧
      tri (.vxor t) 0x62 2 (fun i => A i ^^^ B i) ∧
      (s.SlotReady b sl 0x62 3 u.g u.d u.a 0 → exec (.vnot u) s = land 1 u.d W (fun i => 2 ^ 32 - 1 - U i))) ∧
     ((s.SlotReady b sl 0x63 0 t.g t.d t.a t.b → exec (.vshuf t) s = land 3 t.d 1024 (fun i => A (B i % 32))) ∧
      (s.SlotReady b sl 0x63 1 n.g n.d n.a n.n → exec (.vrot n) s = land 3 n.d 1024 (fun i => N ((i + n.n) % 32))) ∧
      (s.SlotReady b sl 0x63 2 n.g n.d n.a n.n → exec (.vbcst n) s = land 3 n.d 1024 (fun _ => N n.n)) ∧
      (s.SlotReady b sl 0x63 3 t.g t.d t.a t.b →
        exec (.vtrn t) s = land 3 t.d 1024 (fun i => if i % 2 = 0 then A (i / 2) else B (i / 2)))) ∧
     ((s.SlotReady b sl 0x64 0 t.g t.d t.a t.b →
        exec (.vsel t) s = land 1 t.d 1024 (fun i => (D i &&& A i) ||| ((2 ^ 32 - 1 - D i) &&& B i))) ∧
      (s.SlotReady b sl 0x64 1 n.g n.d n.a n.n → exec (.vfill n) s = land 1 n.d 1024 (fun i =>
        (N i &&& lane 32 i (k.rv n.d)) ||| ((2 ^ 32 - 1 - N i) &&& [0, 0x7FC00000, 0xFF800000, 0x7F800000, 0xFF80FF80, 0x7FC07FC0,
          0xFC00FC00, 0x7E007E00].getD n.n 0))) ∧
      (s.SlotReady b sl 0x64 2 t.g t.d t.a t.b →
        exec (.vmerge t) s = land 1 t.d 1024 (fun i => if (B i).testBit 31 then A i else D i)) ∧
      (let M := (List.range 32).map (fun i => (lane 32 i (k.rv m.a)).testBit 31)
       s.SlotReady b sl 0x64 3 m.g m.d m.a m.n → exec (.vmask m) s = retires (s.sends b 1 (.g m.d
         (if m.n = 0 then M.any id else if m.n = 1 then M.all id else !M.any id))))) ∧
     (let half (g : Nat → Nat → Nat × Nat) (l : List (Nat × Nat)) : List (Nat × Nat) :=
        pairUp (fun x y => ((g x.1 y.1).1, (g x.1 y.1).2 ||| x.2 ||| y.2)) l
      let red (i : Instr) (x : Nat) (g : Nat → Nat → Nat × Nat) : Prop :=
        s.SlotReady b sl 0x65 x u.g u.d u.a 0 →
          let r := (half g (half g (half g (half g (half g ((List.range (W / 32)).map (fun i => (U i, 0)))))))).headD (0, 0)
          exec i s = retires (s.setBench b
            ((k.laterV 6 u.d 0 W (ofLanes 32 (List.replicate (W / 32) r.1))).laterFlags 6 r.2))
      red (.vrsumF32 u) 0 (fadd f32 .rne 0) ∧ red (.vrmaxF32 u) 1 (fun x y => (fmax f32 x y, 0)) ∧
      red (.vrsumI32 u) 2 (fun x y => ((x + y) % 2 ^ 32, 0)) ∧
      red (.vrmaxI32 u) 3 (fun x y => (if toI 32 x < toI 32 y then y else x, 0))) ∧
     ((s.SlotReady b sl 0x67 0 n.g n.d n.a n.n → n.n < W / 32 →
        exec (.vmova n) s = retires (s.sends b 2 (.a n.d (BitVec.ofNat 64 (N n.n))))) ∧
      (s.SlotReady b sl 0x67 0 n.g n.d n.a n.n → W / 32 ≤ n.n → exec (.vmova n) s = .next (s.benchFault b s.ctl.group cIllegal 0 0)) ∧
      (s.SlotReady b sl 0x67 1 u.g u.d u.a 0 → exec (.vmovv u) s = land 1 u.d W U) ∧
      (s.SlotReady b sl 0x67 2 u.g u.d u.a 0 → exec (.vsplat u) s = land 1 u.d W (fun _ => (k.ra u.a).toNat % 2 ^ 32)) ∧
      (s.SlotReady b sl 0x67 3 u.g u.d u.a 0 →
        exec (.viota u) s = land 1 u.d W (fun i => ((k.ra u.a).toNat + i) % 2 ^ 32)))) ∧
  (∀ (s : State) (b : Nat) (sl : SlotName) (f : Imm6),
     let k := s.bench b
     let W := k.width sl
     let n := W / 8
     let ea (z : Nat) : Nat := (k.ra f.a + s.immS 6 f.i * BitVec.ofNat 64 z).toNat / z * z
     let M (at_ z : Nat) : Nat := leNat (s.sramBytes b at_ z)
     let free (z : Nat) : Prop := s.rangeFree b (ea z) z
     let store (u : State) (at_ z v : Nat) : State :=
       { u with frame := { u.frame with ends := u.frame.ends ++ [⟨3, 0, b, sl.idx, sramPa b at_, .bytes (leBytes z v)⟩] } }
     let beyond (i : Instr) (z : Nat) : Prop :=
       Config.sramBytes < ea z + z → exec i s = .next ((s.faultFrame ⟨cSram, 0, max (ea z) Config.sramBytes, s.ctl.group, 1, b,
         BitVec.ofNat 64 (2 ^ 63 + min ((Config.sramBytes - ea z) / 4) 0xFFFF)⟩).verdict .faulted)
     (s.SlotReady b sl 0x66 0 f.g f.d f.a f.i → beyond (.vld f) n ∧
       (free n → exec (.vld f) s = retires (s.setBench b (k.laterV 5 f.d 0 (8 * n) (M (ea n) n))))) ∧
     (s.SlotReady b sl 0x66 1 f.g f.d f.a f.i → beyond (.vst f) n ∧
       (free n → exec (.vst f) s = retires (store s (ea n) n (k.rv f.d)))) ∧
     (s.SlotReady b sl 0x66 2 f.g f.d f.a f.i → beyond (.vldb f) 4 ∧
       (free 4 → exec (.vldb f) s = retires (s.setBench b
         (k.laterV 5 f.d 0 W (ofLanes 32 (List.replicate (W / 32) (M (ea 4) 4))))))) ∧
     (s.SlotReady b sl 0x66 3 f.g f.d f.a f.i → f.d % 2 = 0 → beyond (.vstm f) n ∧
       (free n → exec (.vstm f) s = retires ((List.range (n / 4)).foldl (fun u i =>
         if (lane 32 i (k.rv (f.d + 1))).testBit 31 then store u (ea n + 4 * i) 4 (lane 32 i (k.rv f.d)) else u) s)))) ∧
  (∀ (s : State) (b at_ n : Nat) (e : EndWrite) (bs : List Byte),
     (s.frame.ends.filter (·.cls != 3) = [] → s.sramBytes b at_ n = s.mem.rawBytes (sramPa b at_) n) ∧
     (s.frame.ends.filter (·.cls != 3) = [e] → e.op = .bytes bs → ∀ j, j < n →
       (s.sramBytes b at_ n)[j]? = (if e.pa ≤ sramPa b at_ + j ∧ sramPa b at_ + j < e.pa + bs.length
         then bs[sramPa b at_ + j - e.pa]? else some (s.mem.cells.read (sramPa b at_ + j)))))

/-! ### Matrix, soft-maximum and packed forms of a bench -/

/-- R54, R219, R222, R229, R230: an MM or MMS whose descriptor and ACTIVE latch are of its class, whose handle is bound or opens a tile,
and whose array is free, lands in the handle's slot after the ticks it holds the array and 6 more; element (r, c) is the old one plus
the products of row r of A with column c of ACTIVE by groups of sixteen, and the row state stays. The flags that land with it are those
of every sum and of every operand's decoding (R56). A zero product of integers is +0; the sign of a binary8 zero is the model's choice
(log 75). R218, R219: the fields of a descriptor, when it is legal, the classes of formats, and where its rows and their scales lie. -/
def Obligations.MatrixProducts : Prop :=
  ∀ (s : State) (b : Nat) (sl : SlotName) (t : Mm) (d : MatDesc) (base : AccSlot),
    let q := s.bench b
    let k := 16 * (t.k + 1)
    let l := q.active
    let Bv (c : Nat) : List (Fv × Nat) := (List.range k).map (fun i =>
      s.operandValue l.fmt l.geo l.tbl (l.rows.getD c []) (l.scales.getD c []) i i)
    let B (c : Nat) : List Fv := (Bv c).map (·.1)
    let Av (sparse : Bool) (r : Nat) : List (Nat × (Fv × Nat)) :=
      let row := s.rowBytes b (d.row r) (if sparse then rowLen d.fmt (k / 2) + k / 8 else rowLen d.fmt k)
      let sc := s.rowBytes b (d.scaleRow r) (blocksOf d.geo k)
      if sparse then (List.range (k / 2)).map (fun j =>
        (keptAt d.fmt k j row, s.operandValue d.fmt d.geo d.tbl row sc j (keptAt d.fmt k j row)))
      else (List.range k).map (fun i => (i, s.operandValue d.fmt d.geo d.tbl row sc i i))
    let A (sparse : Bool) (r : Nat) : List (Nat × Fv) := (Av sparse r).map (fun p => (p.1, p.2.1))
    let product (i : Instr) (maj x : Nat) (cls : MatClass) (sparse : Bool) (busy : Nat) : Prop :=
      s.SlotReady b sl maj x t.g t.d t.a (32 * t.n + t.k) → s.checkDesc (q.ra t.a).toNat = .ok d →
      matClass d.fmt d.geo d.tbl = some cls → l.valid = true → matClass l.fmt l.geo l.tbl = some cls → t.k ≤ l.kg →
      (l.tbl = 0 ∨ tblValid (s.compander l.tbl) = true) →
      (if t.n = 1 then base = AccSlot.filled 0x80000000 else q.bound t.d = .ok base) →
      q.arrayBusy ≤ q.tick → (q.flights t.d).all id = true → (q.tick, t.d) ∉ q.landed →
      (∀ r, r < 128 → s.rangeFree b (d.row r) (if sparse then rowLen d.fmt (k / 2) + k / 8 else rowLen d.fmt k) ∧
        s.rangeFree b (d.scaleRow r) (blocksOf d.geo k)) →
        ∃ acc fl, exec i s = retires (s.setBench b (q.lands (busy + 6) busy t.d true { base with acc := acc } fl)) ∧
          let ints := (cls == .i8 || cls == .i4) && d.tbl == 0 && l.tbl == 0
          (∀ r c, r < 128 → c < 128 →
            ({ base with acc := acc } : AccSlot).at_ r c = (dotRow ints k (A sparse r) (B c) (base.at_ r c)).1 % 2 ^ 32) ∧
          ∀ j, (fl.testBit j = true ↔
            (∃ r c, r < 128 ∧ c < 128 ∧ (dotRow ints k (A sparse r) (B c) (base.at_ r c)).2.testBit j = true) ∨
            (∃ r p, r < 128 ∧ p ∈ Av sparse r ∧ p.2.2.testBit j = true) ∨ (∃ c p, c < 128 ∧ p ∈ Bv c ∧ p.2.testBit j = true))
    (∀ (v K r f g n : Nat),
      let m : MatDesc := ⟨fld v 56 8, fld v 54 2, fld v 50 4, 64 * fld v 32 16, 64 * fld v 22 10, fld v 0 22⟩
      let G := 16 * 2 ^ d.geo
      (s.checkDesc v = .ok d ↔ (fld v 48 2 = 0 ∧ fld v 22 10 ≠ 0 ∧ fld v 0 22 % 64 = 0 ∧
        (m.tbl = 0 ∨ tblValid (s.compander m.tbl) = true) ∧ matClass m.fmt m.geo m.tbl ≠ none) ∧ d = m) ∧
      (isB8 f = true → matClass f g n = some .b8) ∧ matClass 1 g n = some .i8 ∧ matClass 5 g n = some .i8 ∧ matClass 9 g n = some .i4 ∧
      matClass 0x12 3 0 = some .bf ∧ ((g, n) ≠ (3, 0) → matClass 0x12 g n = none) ∧
      (isB8 f = false → f ∉ [1, 5, 9, 0x12] → matClass f g n = none) ∧
      d.row r = d.base + d.stride * r ∧ d.scaleRow r = d.soff + 128 / G * r ∧ rowLen f K = K * fmtWidth f / 8 ∧
      blocksOf d.geo K = if d.geo = 3 then 0 else (K + G - 1) / G) ∧
    product (.mmB8 t) 0x68 0 .b8 false k ∧ product (.mmI8 t) 0x68 1 .i8 false k ∧ product (.mmI4 t) 0x68 2 .i4 false (k / 2) ∧
    product (.mmBf16 t) 0x68 3 .bf false (2 * k) ∧ product (.mmsB8 t) 0x69 0 .b8 true (k / 2) ∧
    product (.mmsI8 t) 0x69 1 .i8 true (k / 2) ∧ product (.mmsBf16 t) 0x69 2 .bf true k

/-- R54, R56: the order of a dot product of sixteen-element groups: each group's exact sum is rounded once to F32 and then added, in F32,
to what the groups before it gave, and the flags of all of it are gathered. Of a group: the exact sum, its sign where it is zero, its
infinities and NaNs. A zero product of integers is +0 (R34); of other elements it has the XOR of their signs, for a binary8 zero too, and
NV is set by products of both infinities only in a group without a NaN product: these two are the model's choices (log 75). -/
def Obligations.DotOrder : Prop :=
  (∀ (ints : Bool) (k acc : Nat) (as : List (Nat × Fv)) (bs : List Fv),
    let times (a b : Fv) : Fv × Nat := match a.mul b with
      | (.fin z, fl) => (.fin (if ints = true ∧ z.m = 0 then ⟨false, 0, 0⟩ else z), fl)
      | r => r
    let group (g : Nat) : List (Fv × Nat) := (as.filter (fun p => p.1 / 16 == g)).map (fun p => times p.2 (bs.getD p.1 .nan))
    let exact (g : Nat) : Fv × Nat := groupSum (group g)
    let rounded (g : Nat) : Nat × Nat := f32.ofValue .rne 0 (exact g).1
    let before := dotRow ints (16 * k) as bs acc
    let add := fadd f32 .rne 0 before.1 (rounded k).1
    dotRow ints 0 as bs acc = (acc, 0) ∧ (dotRow ints (16 * (k + 1)) as bs acc).1 = add.1 ∧
    ∀ j, ((dotRow ints (16 * (k + 1)) as bs acc).2.testBit j = true ↔
      add.2.testBit j = true ∨ (rounded k).2.testBit j = true ∨ (exact k).2.testBit j = true ∨ before.2.testBit j = true)) ∧
  (∀ (ps : List (Fv × Nat)),
    let number (v : Fv) : Rat := match v with
      | .fin d => d.rat
      | _ => 0
    let minusZero (v : Fv) : Prop := ∃ d, v = .fin d ∧ d.m = 0 ∧ d.neg = true
    let has (v : Fv) : Prop := ∃ p, p ∈ ps ∧ p.1 = v
    let z := groupSum ps
    ((∀ p, p ∈ ps → ∃ d, p.1 = .fin d) →
      ∃ d, z.1 = .fin d ∧ d.rat = (ps.map (fun p => number p.1)).sum ∧ (d.m = 0 → (d.neg = true ↔ ∀ p, p ∈ ps → minusZero p.1))) ∧
    (has .nan → z.1 = .nan) ∧ (has (.inf true) → has (.inf false) → z.1 = .nan) ∧
    (∀ b, has (.inf b) → ¬has .nan → ¬has (.inf (!b)) → z.1 = .inf b) ∧
    ∀ j, (z.2.testBit j = true ↔ (∃ p, p ∈ ps ∧ p.2.testBit j = true) ∨ (j = 4 ∧ ¬has .nan ∧ has (.inf true) ∧ has (.inf false))))

/-- R231: SPSEL keeps two elements of each group of four: one of 8 bits in 32 groups under FMTSEL, or BF16 in 16 groups, codes below and
positions above bit 512, and lands 3 ticks later.
R231: of four values the two with the larger magnitude are kept, the lower position on a tie, in ascending order.
R230: element 2q and 2q + 1 of the result are the two that group q keeps, nibble q above bit 512 names their positions, and 0 follows. -/
def Obligations.SparseSelection : Prop :=
  (∀ (s : State) (b : Nat) (sl : SlotName) (t : BinN2),
     let k := s.bench b
     let f := k.fmtsel.toNat
     s.SlotReady b sl 0x69 3 t.g t.d t.a t.n →
       (t.n = 1 → exec (.spsel t) s = retires (s.setBench b (k.laterV 3 t.d 0 1024 (spselRow 0x12 16 16 (k.rv t.a))))) ∧
       (t.n = 0 → (f = 1 ∨ isB8 f = true) →
         exec (.spsel t) s = retires (s.setBench b (k.laterV 3 t.d 0 1024 (spselRow f 8 32 (k.rv t.a))))) ∧
       (t.n = 0 → f ≠ 1 → isB8 f = false → exec (.spsel t) s = .next (s.benchFault b s.ctl.group cIllegal 0 0))) ∧
  (∀ (vs : List Fv), vs.length = 4 →
     ∃ i j, keepTwo vs = [i, j] ∧ i < j ∧ j < 4 ∧
       ∀ o, o < 4 → o ≠ i → o ≠ j → ∀ p, (p = i ∨ p = j) →
         largerMag (vs.getD o .nan) (vs.getD p .nan) = false ∧
         (largerMag (vs.getD p .nan) (vs.getD o .nan) = false → p < o)) ∧
  (∀ (fmt w groups v : Nat), (w, groups) ∈ [(8, 32), (16, 16)] →
     let z := spselRow fmt w groups v
     z < 2 ^ (512 + 4 * groups) ∧
     ∀ q i j, q < groups → keepTwo ((List.range 4).map (fun n => elemValue fmt (lane w (4 * q + n) v))) = [i, j] →
       lane w (2 * q) z = lane w (4 * q + i) v ∧ lane w (2 * q + 1) z = lane w (4 * q + j) v ∧ lane 4 (128 + q) z = i + 4 * j)

/-- R232 to R235: LLOAD fills SHADOW 8 ticks later with the bytes of the rows it names; LPASS sends ACTIVE one hop east for a due tick
at least 4 ahead; LSWAP exchanges the latches; LSTAT gives their state.
R223, R225, R236: AREL, ARD, AWR and AZERO act on the slot that their handle names where no result is in flight through it; an
unbound handle raises ACC_UNALLOC, one in flight MATRIX_HAZARD. The fields of a descriptor (R218) are pinned in MatrixProducts. -/
def Obligations.LatchesAndSlots : Prop :=
  (∀ (s : State) (b : Nat) (sl : SlotName) (f : Lload) (u : UnA) (z : Nul) (w : UnD) (d : MatDesc),
     let k := s.bench b
     let K := 16 * (f.k + 1)
     (s.SlotReady b sl 0x6C 0 f.g 0 f.a f.k → s.checkDesc (k.ra f.a).toNat = .ok d →
       (∀ r, r < 128 → s.rangeFree b (d.base + d.stride * r) (K * fmtWidth d.fmt / 8) ∧
         s.rangeFree b (d.soff + 128 / (16 * 2 ^ d.geo) * r) (blocksOf d.geo K)) →
       exec (.lload f) s = retires (s.sends b 8 (.latch ⟨true,
         (List.range 128).map (fun r => s.rowBytes b (d.base + d.stride * r) (K * fmtWidth d.fmt / 8)),
         (List.range 128).map (fun r => s.rowBytes b (d.soff + 128 / (16 * 2 ^ d.geo) * r) (blocksOf d.geo K)),
         d.fmt, d.geo, d.tbl, f.k⟩))) ∧
     (let due := k.lastAnchor + (k.ra u.a).toNat % 2 ^ 32
      s.SlotReady b sl 0x6C 1 u.g 0 u.a 0 →
        (s.frame.fcnt.toNat + 4 ≤ due → exec (.lpass u) s = retires { s with
          frame := { s.frame with lpass := s.frame.lpass ++ [(b / 16 * 16 + (b + 1) % 16, due, k.active)] } }) ∧
        (due < s.frame.fcnt.toNat + 4 → exec (.lpass u) s = .next (s.benchFault b s.ctl.group cTimed 0 0))) ∧
     (s.SlotReady b sl 0x6C 2 z.g 0 0 0 → exec (.lswap z) s = retires (s.sends b 1 .swap)) ∧
     (let flag (v : Bool) (n : Nat) : Nat := if v then 2 ^ n else 0
      s.SlotReady b sl 0x6C 3 w.g w.d 0 0 → exec (.lstat w) s = retires (s.sends b 1 (.a w.d (BitVec.ofNat 64
        (flag k.active.valid 33 + flag k.shadow.valid 32 + k.active.fmt % 2 ^ 8 * 2 ^ 24 + k.shadow.fmt % 2 ^ 8 * 2 ^ 16 +
          k.active.kg % 2 ^ 3 * 2 ^ 3 + k.shadow.kg % 2 ^ 3)))))) ∧
  (∀ (s : State) (b : Nat) (sl : SlotName) (t : HandleRd) (w : HandleAB) (h : HandleD) (a : AccSlot),
     let k := s.bench b
     let idle (n : Nat) : Prop := k.flights n = []
     (let p := (k.ra t.b).toNat
      s.SlotReady b sl 0x6A 1 t.g t.d t.a t.b → checkPos p = .ok () →
        (k.slotOf t.a = some a → idle t.a → exec (.ard t) s = retires (s.setBench b
          (k.laterV 4 t.d 0 1024 (ofLanes 32 ((List.range 32).map (fun i => a.word (posWord p i))))))) ∧
        (k.slotOf t.a = none → exec (.ard t) s = .next (s.benchFault b s.ctl.group cUnalloc t.a 0)) ∧
        (k.slotOf t.a = some a → ¬idle t.a → exec (.ard t) s = .next (s.benchFault b s.ctl.group cMatrix t.a 0))) ∧
     (let p := (k.ra w.b).toNat
      s.SlotReady b sl 0x6A 2 w.g w.d w.a w.b → checkPos p = .ok () → k.slotOf w.d = some a → idle w.d →
        exec (.awr w) s = retires (s.setBench b (k.lands 1 0 w.d false
          ((List.range 32).foldl (fun q i => q.setWord (posWord p i) (lane 32 i (k.rv w.a))) a) 0))) ∧
     (s.SlotReady b sl 0x6A 0 h.g h.d 0 0 → idle h.d → exec (.arel h) s = retires (s.sends b 1 (.release h.d))) ∧
     (s.SlotReady b sl 0x6A 3 h.g h.d 0 0 → k.arrayBusy ≤ k.tick → idle h.d → exec (.azero h) s = retires (s.setBench b
       (k.lands 2 1 h.d false { (k.slotOf h.d).getD (AccSlot.filled 0) with acc := words 16384 (fun _ => 0) } 0))))

/-- R237 to R241: OSM.UPD folds the scores of the slot A into the slot D row by row and writes P's rows 24 ticks later; OSM.MRG merges
the slot A into D; OSM.FIN divides each row by its l; OSM.RST starts a slot afresh. The rows of R238 and R239 are as their procedures say, and raise the flags of every step of theirs
(R56); a row that OSM.FIN finds empty raises EMPTYROW (R242). -/
def Obligations.StreamingSoftMaximum : Prop :=
  ∀ (s : State) (b : Nat) (sl : SlotName) (u : OsmUpd) (m : OsmMrg) (h : HandleD) (x y : AccSlot),
    let k := s.bench b
    let free (hs : List Nat) : Prop := k.arrayBusy ≤ k.tick ∧ ∀ n, n ∈ hs → k.flights n = []
    let v := (k.ra u.b).toNat
    let d : MatDesc := ⟨fld v 56 8, fld v 54 2, fld v 50 4, 64 * fld v 32 16, 64 * fld v 22 10, fld v 0 22⟩
    let place (r : Nat) : Nat := d.base + d.stride * r
    let n := fld v 32 7 + 1
    let len := 128 * fmtWidth d.fmt / 8
    let score (r j : Nat) : Nat := if j < n then y.at_ r j else 0xFF800000
    let row (r : Nat) : OsmRow := osmRow d.fmt ((List.range 128).map (score r)) (x.mAt r) (x.lAt r) (x.row r)
    (s.SlotReady b sl 0x6B 0 u.g u.d u.a u.b → u.d ≠ u.a → fld v 39 11 = 0 → (d.fmt = 0x12 ∨ isB8 d.fmt = true) → d.geo = 3 →
      d.tbl = 0 → d.stride ≠ 0 → d.base % 64 = 0 → k.slotOf u.d = some x → k.slotOf u.a = some y → free [u.d, u.a] →
      (∀ r, r < 128 → s.rangeFree b (place r) len) →
        let rows := (List.range 128).map row
        exec (.osmUpd u) s = retires (s.setBench b
          ((k.lands 24 16 u.d false (slotOfRows (rows.map (fun q => (q.m, q.l, q.acc)))) (orFlags (rows.map (fun q => (0, q.fl))))).later
            24 (.rows u.d ((List.range 128).map (fun r => (place r, (row r).p.flatMap (leBytes (fmtWidth d.fmt / 8))))))))) ∧
    (s.SlotReady b sl 0x6B 1 m.g m.d m.a 0 → m.d ≠ m.a → k.slotOf m.d = some x → k.slotOf m.a = some y → free [m.d, m.a] →
      let rows := (List.range 128).map (fun r => mergeRow (x.mAt r) (x.lAt r) (x.row r) (y.mAt r) (y.lAt r) (y.row r))
      exec (.osmMrg m) s = retires (s.setBench b
        (k.lands 16 8 m.d false (slotOfRows (rows.map (·.1))) (orFlags (rows.map (fun r => (0, r.2))))))) ∧
    (s.SlotReady b sl 0x6B 2 h.g h.d 0 0 → k.slotOf h.d = some x → free [h.d] →
      ∃ acc fl, exec (.osmFin h) s = retires (s.setBench b (k.lands 16 8 h.d false { x with acc := acc } fl)) ∧
        (∀ r c, r < 128 → c < 128 → ({ x with acc := acc } : AccSlot).at_ r c =
          if x.lAt r % 2 ^ 31 = 0 then 0 else (fdiv f32 .rne 0 (x.at_ r c) (x.lAt r)).1 % 2 ^ 32) ∧
        ∀ j, (fl.testBit j = true ↔ ∃ r c, r < 128 ∧ c < 128 ∧
          (if x.lAt r % 2 ^ 31 = 0 then j = 6 else (fdiv f32 .rne 0 (x.at_ r c) (x.lAt r)).2.testBit j = true))) ∧
    (s.SlotReady b sl 0x6B 3 h.g h.d 0 0 → free [h.d] →
      exec (.osmRst h) s = retires (s.setBench b (k.lands 2 1 h.d false (AccSlot.filled 0) 0))) ∧
    (∀ (fmt m1 l1 m2 l2 : Nat) (sc a1 a2 : List Nat),
      let add (v w : Nat) : Nat := (fadd f32 .rne 0 v w).1
      let sub (v w : Nat) : Nat := (fsub f32 .rne 0 v w).1
      let mul (v w : Nat) : Nat := (fmul f32 .rne 0 v w).1
      let expFl (v w : Nat) : List Nat := [(fsub f32 .rne 0 v w).2, (exp2 (sub v w)).2]
      let raises (fl : Nat) (l : List Nat) : Prop := ∀ j, (fl.testBit j = true ↔ ∃ f, f ∈ l ∧ f.testBit j = true)
      let least := 0xFF800000
      (sc.length = 128 →
        let mx := fmax f32 m1 (sc.foldl (fmax f32) least)
        let alpha := (exp2 (sub m1 mx)).1
        let code (j : Nat) : Nat := (elemEncode fmt .rne 0 (f32.value (exp2 (sub (sc.getD j 0) mx)).1)).1
        let widened (j : Nat) : Nat := (f32.ofValue .rne 0 (elemValue fmt (code j))).1
        let total : Nat × Nat := pairTree (fun p q => ((fadd f32 .rne 0 p.1 q.1).1, (fadd f32 .rne 0 p.1 q.1).2 ||| p.2 ||| q.2)) 7
          (fun j => (widened j, 0))
        let rises : Prop := f32.value mx = .nan ∨ (f32.value m1).lt (f32.value mx) = true
        let z := osmRow fmt sc m1 l1 a1
        (mx = least → z.p = List.replicate 128 0 ∧ z.m = m1 ∧ z.l = l1 ∧ z.acc = a1 ∧ z.fl = 0) ∧
        (mx ≠ least → z.m = mx ∧ z.p = (List.range 128).map code ∧
          z.l = add (mul l1 alpha) (pairTree add 7 widened) ∧
          (rises → z.acc = a1.map (fun v => mul v alpha)) ∧ (¬rises → z.acc = a1) ∧
          (let always := expFl m1 mx ++ (List.range 128).flatMap (fun j => expFl (sc.getD j 0) mx ++
             [(elemEncode fmt .rne 0 (f32.value (exp2 (sub (sc.getD j 0) mx)).1)).2]) ++
             [total.2, (fmul f32 .rne 0 l1 alpha).2, (fadd f32 .rne 0 (mul l1 alpha) total.1).2]
           (rises → raises z.fl (always ++ a1.map (fun v => (fmul f32 .rne 0 v alpha).2))) ∧ (¬rises → raises z.fl always)))) ∧
      (let mm := fmax f32 m1 m2
       let e1 := (exp2 (sub m1 mm)).1
       let e2 := (exp2 (sub m2 mm)).1
       let z := mergeRow m1 l1 a1 m2 l2 a2
       (m2 = least → f32.value m1 ≠ .nan → z = ((m1, l1, a1), 0)) ∧
       (m2 ≠ least → m1 = least → f32.value m2 ≠ .nan → z = ((m2, l2, a2), 0)) ∧
       ((m2 ≠ least ∨ f32.value m1 = .nan) → (m1 ≠ least ∨ f32.value m2 = .nan) →
         z.1 = (mm, add (mul l1 e1) (mul l2 e2), (a1.zip a2).map (fun v => add (mul v.1 e1) (mul v.2 e2))) ∧
         raises z.2 (expFl m1 mm ++ expFl m2 mm ++ ((l1, l2) :: a1.zip a2).flatMap (fun v =>
           [(fmul f32 .rne 0 v.1 e1).2, (fmul f32 .rne 0 v.2 e2).2, (fadd f32 .rne 0 (mul v.1 e1) (mul v.2 e2)).2])))))

/-- R243: each lane of a packed dot product is D's lane plus the products of A's and B's elements in it, wrapping, or clamped with SAT
for the saturating forms, and lands 3 ticks later. -/
def Obligations.PackedDotProducts : Prop :=
  ∀ (s : State) (b : Nat) (sl : SlotName) (t : Tri),
    let k := s.bench b
    let el (w r i : Nat) : Int := toI w (lane w i (k.rv r))
    let four (i : Nat) : Int := toI 32 (lane 32 i (k.rv t.d)) + (0 + el 8 t.a (4 * i) * el 8 t.b (4 * i) +
      el 8 t.a (4 * i + 1) * el 8 t.b (4 * i + 1) + el 8 t.a (4 * i + 2) * el 8 t.b (4 * i + 2) +
      el 8 t.a (4 * i + 3) * el 8 t.b (4 * i + 3))
    let two (i : Nat) : Int := toI 32 (lane 32 i (k.rv t.d)) + (0 + el 16 t.a (2 * i) * el 16 t.b (2 * i) +
      el 16 t.a (2 * i + 1) * el 16 t.b (2 * i + 1))
    let wrap (v : Int) : Nat × Nat := ((v % 2 ^ 32).toNat, 0)
    let clamp (v : Int) : Nat × Nat :=
      if v < -2 ^ 31 then (2 ^ 31, SAT) else if 2 ^ 31 - 1 < v then (2 ^ 31 - 1, SAT) else wrap v
    let gives (i : Instr) (x : Nat) (g : Nat → Nat × Nat) : Prop :=
      s.SlotReady b sl 0x6D x t.g t.d t.a t.b → exec i s = retires (s.setBench b
        ((k.laterV 3 t.d 0 1024 (yMap 32 32 g).1).laterFlags 3 (yMap 32 32 g).2))
    gives (.vdot4I8 t) 0 (fun i => wrap (four i)) ∧ gives (.vdot4sI8 t) 1 (fun i => clamp (four i)) ∧
    gives (.vdot2I16 t) 2 (fun i => wrap (two i)) ∧ gives (.vdot2sI16 t) 3 (fun i => clamp (two i))

/-! ### Winnow -/

/-- R246 to R255: WIN.SIG computes a valid entry's signature; WIN.CMP writes the change test to a pair of guards; WIN.SKIP marks;
WIN.KEEP installs the signature, and with PV copies the tile; WIN.STEP closes a step; WIN.MAP reads, WIN.SET writes and WIN.CLR
clears all but the descriptor. A form that needs a valid entry raises ILLEGAL_ENCODING at another, as a value with a reserved bit does of
WIN.SET; that bits [63:32] are such bits under kind 1 is the model's choice (log 84). A signature is sixteen sums over the tree
of R55, and the change test is R249's. R247: the fields of a tile's descriptor, and which WIN.SET takes. -/
def Obligations.WinnowForms : Prop :=
  ∀ (s : State) (b : Nat) (sl : SlotName) (p : DB) (c : HandleAB) (n : UnB) (a : AB) (w : UnD) (t : Tri) (u : UnA),
    let k := s.bench b
    let tileOf (x : Nat) : WinDesc := ⟨fld x 56 8, fld x 55 1 == 1, fld x 32 22, 64 * fld x 22 10, fld x 0 22⟩
    let tile (i : Nat) : WinDesc := tileOf (k.entryAt i).desc.toNat
    let len (d : WinDesc) : Nat := if d.fmt = 0x12 then 256 else 512
    let ticks (d : WinDesc) : Nat := if d.fmt = 0x12 then 32 else 64
    let readable (d : WinDesc) : Prop := ∀ r, r < 128 → s.rangeFree b (d.base + d.stride * r) (len d)
    let bad (i : Instr) : Prop := exec i s = .next (s.benchFault b s.ctl.group cIllegal 0 0)
    (s.SlotReady b sl 0x70 0 p.g p.d 0 p.b → ((k.entryAt p.b).valid = false → bad (.winSig p)) ∧
      ((k.entryAt p.b).valid = true → k.winBusy ≤ k.tick → readable (tile p.b) →
        exec (.winSig p) s = retires (s.setBench b ({ k with winBusy := k.tick + ticks (tile p.b) }.laterV (ticks (tile p.b) + 8) p.d 0
          1024 (ofLanes 32 (s.signature b (tile p.b))))))) ∧
    (s.SlotReady b sl 0x70 1 c.g c.d c.a c.b → ((k.entryAt c.b).valid = false → bad (.winCmp c)) ∧
      ((k.entryAt c.b).valid = true →
        let keep := k.changed (k.entryAt c.b) ((List.range 16).map (fun i => lane 32 i (k.rv c.a)))
        exec (.winCmp c) s = retires (s.setBench b ((k.later 2 (.g c.d keep)).later 2 (.g (c.d + 1) (!keep)))))) ∧
    (s.SlotReady b sl 0x70 2 n.g 0 0 n.b → ((k.entryAt n.b).valid = false → bad (.winSkip n)) ∧
      ((k.entryAt n.b).valid = true → exec (.winSkip n) s = retires (s.setBench b (k.setMap n.b 1)))) ∧
    (let kept := { k with win := tset k.win a.b { k.entryAt a.b with
       sv := true, sig := (List.range 16).map (fun i => BitVec.ofNat 32 (lane 32 i (k.rv a.a))) } }.setMap a.b 0
     let d := tile a.b
     s.SlotReady b sl 0x70 3 a.g 0 a.a a.b → ((k.entryAt a.b).valid = false → bad (.winKeep a)) ∧
       ((k.entryAt a.b).valid = true → d.pv = false → exec (.winKeep a) s = retires (s.setBench b kept)) ∧
       ((k.entryAt a.b).valid = true → d.pv = true → k.winBusy ≤ k.tick → readable d →
         s.rangeFree b d.pin (128 * len d) →
           exec (.winKeep a) s = retires (s.setBench b ({ kept with winBusy := k.tick + ticks d }.later (ticks d + 1)
             (.keep s.ctl.now ((List.range 128).map (fun r => (d.pin + len d * r, s.rowBytes b (d.base + d.stride * r) (len d))))))))) ∧
    (s.SlotReady b sl 0x71 0 w.g w.d 0 0 → exec (.winStep w) s = retires (s.setBench b { k.later 1 (.a w.d k.winmap) with
      winmap := 0, winref := setFld k.winref 32 16 (fld k.winref.toNat 32 16 + 1) })) ∧
    (s.SlotReady b sl 0x71 1 p.g p.d 0 p.b → exec (.winMap p) s = retires (s.sends b 1 (.a p.d
      (if p.b = 0 then k.winmap else if p.b = 1 then k.winref else k.winthr.setWidth 64)))) ∧
    (let v := k.ra t.a
     s.SlotReady b sl 0x71 2 t.g t.d t.a t.b →
       (t.d = 0 → checkWinDesc v = .ok () → exec (.winSet t) s = retires (s.setBench b
         ({ k with win := tset k.win t.b ⟨true, v, false, []⟩ }.setMap t.b 0))) ∧
       (t.d = 1 → t.b = 0 → v.toNat < 2 ^ 32 → exec (.winSet t) s = retires (s.setBench b { k with winthr := v.setWidth 32 })) ∧
       (t.d = 2 → t.b = 0 → fld v.toNat 48 16 = 0 → fld v.toNat 16 16 = 0 →
         exec (.winSet t) s = retires (s.setBench b { k with winref := v })) ∧
       (t.d = 1 → t.b = 0 → 2 ^ 32 ≤ v.toNat → bad (.winSet t)) ∧
       (t.d = 2 → t.b = 0 → (fld v.toNat 48 16 ≠ 0 ∨ fld v.toNat 16 16 ≠ 0) → bad (.winSet t)) ∧
       (t.d ≠ 0 → t.b ≠ 0 → bad (.winSet t))) ∧
    (∀ v : W64,
      let d := tileOf v.toNat
      checkWinDesc v = .ok () ↔ fld v.toNat 54 1 = 0 ∧ (d.fmt = 0x10 ∨ d.fmt = 0x12) ∧ d.base % 64 = 0 ∧ d.pin % 64 = 0 ∧
        (d.pv = true ∨ d.pin = 0) ∧ len d ≤ d.stride ∧ (∀ r, r < 128 → d.base + d.stride * r + len d ≤ 0x300000) ∧
        (d.pv = true → ∀ r, r < 128 → d.pin + len d * r + len d ≤ 0x300000)) ∧
    (s.SlotReady b sl 0x71 3 u.g 0 u.a 0 → ∃ q, exec (.winClr u) s = retires (s.setBench b q) ∧
      ∀ i, i < 64 → q.entryAt i = (if (k.ra u.a).toNat.testBit i then { WinEntry.zero with desc := (k.entryAt i).desc } else k.entryAt i) ∧
        q.winmap.getLsbD i = (k.winmap.getLsbD i && !(k.ra u.a).toNat.testBit i)) ∧
    (let add (v w : Nat) : Nat := (fadd f32 .rne 0 v w).1
     (∀ d : WinDesc,
       let el (band e : Nat) : Nat :=
         let r := s.rowBytes b (d.base + d.stride * (8 * band + e / 128)) (len d)
         let v := leNat ((r.drop (2 * (e % 128))).take 2)
         if d.fmt = 0x12 then (if bf16.value v = .nan then 0x7FC00000 else v * 2 ^ 16) else leNat ((r.drop (4 * (e % 128))).take 4)
       s.signature b d = (List.range 16).map (fun band => pairTree add 10 (el band))) ∧
     (∀ (e : WinEntry) (sg : List Nat),
       let old (i : Nat) : Nat := (e.sig.getD i 0).toNat
       let dlt := f32.value (pairTree add 4 (fun i => (fsub f32 .rne 0 (sg.getD i 0) (old i)).1 % 2 ^ 31))
       let lim := f32.value (fmul f32 .rne 0 k.winthr.toNat (pairTree add 4 (fun i => old i % 2 ^ 31))).1
       let atMost : Prop := (∃ x y, dlt = .fin x ∧ lim = .fin y ∧ x.rat ≤ y.rat) ∨ (dlt = .inf true ∧ lim ≠ .nan) ∨
         (dlt ≠ .nan ∧ lim = .inf false)
       k.changed e sg = true ↔ e.sv = false ∨ (fld k.winref.toNat 0 16 ≠ 0 ∧ fld k.winref.toNat 32 16 % fld k.winref.toNat 0 16 = 0) ∨
         ¬atMost))

/-! ### Engines -/

/-- R302, R304 to R307, R309, R311, R312, R333 to R335: a copy form hands the cut list in its register to its plane's engine. On a bench, a copy that the
checks of R311, the engine's room, its pages and its due tick allow is accepted, with FLAGS and registers unchanged. On the weave
plane it is accepted at retirement behind the core's stores and waits while the engine is full; it has no CPY.MCAST. A cut list that
fails the checks of its rows ends the launch on either plane, with the row's code. That a copy without elements meets no later row is
the model's reading (log 33); so are a bench copy's translations of all its elements at acceptance (log 76), and of a reduction the
dense side's element size and of I4 the packed addresses outside RAW (log 29).
R304, R305: the element of a logical index lies, on the tensor side, at the base plus each stride times its coordinate, and on the dense
side by its place in its run and its run's pitch, where the skew then turns the bits that its code names; a copy's elements are those in
bounds, each with the pinned translation of its address. R306, R307, R309: RAW moves codes, DECODE and ENCODE convert by the page's format,
an element out of bounds has the fill value, and a reduction adds in F32, or keeps the larger or the smaller. -/
def Obligations.EngineCopies : Prop :=
  (∀ (s : State) (b : Nat) (ct : Cut) (base i a : Nat) (es : List CopyElem),
    let k := s.bench b
    let th := if ct.red ≠ 0 ∧ ct.dir = 1 then 8 else fmtWidth ct.elt / 4
    let dh := if ct.mode ≠ 0 ∨ (ct.red ≠ 0 ∧ ct.dir = 0) then 8 else fmtWidth ct.elt / 4
    let dim (d : Nat) : Dim := ct.dims.getD d ⟨0, 0, 0, 0⟩
    let at_ (j d : Nat) : Int := (dim d).origin + (j / ((ct.dims.take d).map (·.box)).prod % (dim d).box : Nat)
    let later : Int := ((List.range (ct.dims.length - 1)).map (fun d => (dim (d + 1)).stride * at_ i (d + 1))).sum
    let b0 := (dim 0).box
    let row := i / b0
    let turned (n lo w hi : Nat) : Prop := fld (skewAddr n a) lo w = (fld a lo w + fld a hi w) % 2 ^ w ∧
      skewAddr n a % 2 ^ lo = a % 2 ^ lo ∧ skewAddr n a / 2 ^ (lo + w) = a / 2 ^ (lo + w)
    (k.arena ct = if ct.kvsel = 0 then ct.base
      else (ct.base + (tgetD k.kvb (ct.kvsel - 1) 0).toNat + ct.kslot * k.kvss.toNat + ct.kpos * k.kvps.toNat) % 2 ^ 64) ∧
    (ct.dims ≠ [] →
      (th ≠ 1 → ct.ta base i = ((base + (dim 0).stride * at_ i 0 + later) % (2 ^ 64 : Nat)).toNat) ∧
      (th = 1 → ct.ta base i = ((base + at_ i 0 / 2 + later) % (2 ^ 64 : Nat)).toNat) ∧
      (∀ h, dh = 2 * h → ct.da i = skewAddr ct.skew
        ((ct.dbase + h * (i % b0) + (if ct.dpitch ≠ 0 then ct.dpitch else h * b0) * row) % 2 ^ 64)) ∧
      (dh = 1 → b0 % 2 = 0 → ct.da i = skewAddr ct.skew
        ((ct.dbase + i % b0 / 2 + (if ct.dpitch ≠ 0 then ct.dpitch else b0 / 2) * row) % 2 ^ 64))) ∧
    (skewAddr 0 a = a ∧ turned 1 5 2 7 ∧ turned 2 5 2 12 ∧ turned 3 7 5 12) ∧
    (ct.inBounds i = true ↔ ∀ d, d < ct.dims.length → 0 ≤ at_ i d ∧ at_ i d < (dim d).extent) ∧
    (s.benchElems b ct base = .ok es →
      es.map (·.idx) = (List.range ct.count).filter (fun j => decide (∀ d, d < ct.dims.length → 0 ≤ at_ j d ∧ at_ j d < (dim d).extent)) ∧
      ∀ e, e ∈ es → e.va = ct.ta base e.idx ∧ s.pinnedLeaf e.va = some e.leaf ∧ e.pa = e.leaf.phys e.va ∧
        (th ≠ 1 → e.odd = 0) ∧ (th = 1 → ct.dims ≠ [] → (e.odd : Int) = at_ e.idx 0 % 2)) ∧
    (∀ (l : Leaf) (code scale u : Nat),
      let page := if l.typed then (l.fmt, l.geo, l.tbl) else (ct.elt, 3, 0)
      let sc := if page.2.1 = 3 then 127 else scale
      (ct.mode = 0 → ct.loadValue s l code scale = (code, 0) ∧ ct.storeValue s l code scale u = (code, 0)) ∧
      (ct.mode = 1 → ct.loadValue s l code scale = dequant (s.compander page.2.2) page.2.2 page.1 sc code) ∧
      (ct.mode = 2 → ct.storeValue s l code scale u =
        quantise (s.compander page.2.2) page.2.2 page.1 sc (Rm.ofCode ct.rm) u (f32.value code))) ∧
    (let f := if ct.mode ≠ 0 ∨ ct.red ≠ 0 then 0x10 else ct.elt
     (ct.fill = 0 → ct.fillValue = 0) ∧
     (ct.fill ≠ 0 → (f = 0x10 → ct.fillValue = 0x7FC00000) ∧ (f = 0x11 → ct.fillValue = 0x7E00) ∧ (f = 0x12 → ct.fillValue = 0x7FC0) ∧
       (f = 0x13 → ct.fillValue = 0xFF) ∧ (1 ≤ f → f ≤ 9 → ct.fillValue = 0) ∧
       (128 ≤ f → ct.fillValue = if f.testBit 5 then 0xFF else 0x80))) ∧
    (∀ red d v : Nat, (red = 1 ∨ red = 2 → redStep red d v = fadd f32 .rne 0 d v) ∧ redStep 3 d v = (fmax f32 d v, 0) ∧
      redStep 4 d v = (fmin f32 d v, 0) ∧ (red ≠ 2 → redSource red v = v) ∧
      (v < 2 ^ 16 → redSource 2 v = if bf16.value v = .nan then 0x7FC00000 else v * 2 ^ 16))) ∧
  (∀ (s : State) (c b : Nat) (sl : SlotName) (t : Bin) (l : Tri) (es : List CopyElem),
    let frameCopies (i : Instr) (x g d a bb : Nat) (kind : CpyKind) : Prop :=
      let k := s.bench b
      let clr := tgetD k.clr d ClReg.zero
      let cut := clr.cut
      let base := k.arena cut
      let due := k.lastAnchor + (k.ra a).toNat % 2 ^ 32
      s.SlotReady b sl 0x74 x g d a bb →
        (cut.row (cut.kindBad kind true (kind.channel k.wm).cfg) true false base = 0 → s.copiesOf b < Config.copyLimit →
          s.benchElems b cut base = .ok es → timedPast cut b s.frame.fcnt.toNat due es = false → s.engineOwned b cut es = .ok () →
            ∃ u q, exec i s = retires u ∧ tget u.frame.copies s.weave.nextId = some q ∧ q.bench = b ∧ q.clr = clr ∧ q.due = due ∧
              q.elems = es ∧ q.linear = kind.bound k.wm ∧ q.accepted = s.ctl.now ∧ u.mem = s.mem ∧ u.weave.ctxs = s.weave.ctxs ∧
              (u.bench b).a = k.a ∧ (u.bench b).v = k.v ∧ (u.bench b).g = k.g ∧ (u.bench b).flags = k.flags ∧
              (∀ i, i ≠ b → u.bench i = s.bench i)) ∧
        (cut.row (cut.kindBad kind true (kind.channel k.wm).cfg) true false base = 0 → Config.copyLimit ≤ s.copiesOf b →
          exec i s = .next (s.benchFault b s.ctl.group cEngineFull 0 0)) ∧
        (cut.row (cut.kindBad kind true (kind.channel k.wm).cfg) true false base = 2 → exec i s = retires s) ∧
        (∀ r, cut.row (cut.kindBad kind true (kind.channel k.wm).cfg) true false base = r → r ≠ 0 → r ≠ 2 →
          exec i s = .next (s.benchFault b s.ctl.group (rowCode r true) clr.addr (rowInfo r)))
    let ends (clr : ClReg) (r : Nat) : Answer :=
      .next (((s.setCtx c { s.ctx c with pc := BitVec.ofNat 64 s.ctl.group }).faultLaunch (s.launchOf (s.ctx c))
        ⟨rowCode r false, rowInfo r, clr.addr, s.ctl.group, 0, c, 0⟩).verdict .faulted)
    let weaveCopies (i : Instr) (x g d a bb : Nat) (kind : CpyKind) : Prop :=
      let y := s.ctx c
      let cl := s.cluster (clusterOf c)
      let clr := tgetD y.clr d ClReg.zero
      let row := clr.cut.row (clr.cut.kindBad kind false (kind.channel cl.wm).cfg) false (s.clx y) clr.cut.base
      s.CtxReady c 0x74 x g d a bb →
        (Config.bteLimit ≤ cl.bte.length → exec i s = .next (s.park c .engine)) ∧
        (cl.bte.length < Config.bteLimit → row = 0 →
          ∃ u q, exec i s = retires u ∧ tget (u.cluster (clusterOf c)).bte s.weave.nextId = some q ∧ q.ctx = c ∧ q.clr = clr ∧
            q.asid = y.asid.toNat ∧ q.user = !y.priv ∧ q.done = 0 ∧ q.linear = kind.bound cl.wm ∧ u.mem = (s.drainAll (coreOf c)).mem ∧
            (u.ctx c).xs = y.xs ∧ (u.ctx c).ys = y.ys ∧ (u.ctx c).ps = y.ps ∧ (u.ctx c).flags = y.flags ∧
            (∀ i, i ≠ c → u.ctx? i = s.ctx? i)) ∧
        (cl.bte.length < Config.bteLimit → row = 2 →
          exec i s = retires ((s.drainAll (coreOf c)).modCtx c (fun z => { z with evnew := z.evnew ||| 512 }))) ∧
        (cl.bte.length < Config.bteLimit → row ≠ 0 → row ≠ 2 → exec i s = ends clr row)
    (frameCopies (.cpyBox t) 0 t.g t.d t.a 0 .box ∧ frameCopies (.cpyMcast t) 1 t.g t.d t.a 0 .mcast ∧
     frameCopies (.cpyRed t) 2 t.g t.d t.a 0 .red ∧ frameCopies (.cpyLin l) 3 l.g l.d l.a l.b (.lin l.b)) ∧
    (weaveCopies (.cpyBox t) 0 t.g t.d t.a 0 .box ∧ weaveCopies (.cpyRed t) 2 t.g t.d t.a 0 .red ∧
     weaveCopies (.cpyLin l) 3 l.g l.d l.a l.b (.lin l.b)) ∧
    (s.CtxReady c 0x74 1 t.g t.d t.a 0 →
      (Config.bteLimit ≤ (s.cluster (clusterOf c)).bte.length → exec (.cpyMcast t) s = .next (s.park c .engine)) ∧
      ((s.cluster (clusterOf c)).bte.length < Config.bteLimit → exec (.cpyMcast t) s = ends (tgetD (s.ctx c).clr t.d ClReg.zero) 1)))

/-- R315, R316, R336, R337: BAR.INIT sets an object's expected count, BAR.ARRIVE counts an arrival and gives the phase before it,
BAR.WAIT ends once the phase differs from its own, BAR.TEST tells whether it does. -/
def Obligations.BarrierObjects : Prop :=
  ∀ (s : State) (c b : Nat) (sl : SlotName) (i : AB) (t : Tri) (w : BarWait) (u : BarTest),
    let k := s.bench b
    let cl := clusterOf c
    let off (r : Nat) : Nat := (k.ra r).toNat / 16 * 16
    let la (r : Nat) : Nat := (s.src c r).1.toNat / 16 * 16
    let mine (r : Nat) : Prop := off r < Config.sramBytes ∧ (s.trySquare = true → s.owners b (off r) 16 = [])
    let inside (r : Nat) : Prop := la r < 2 ^ 20 ∧ s.clx (s.ctx c) = true
    (s.SlotReady b sl 0x75 0 i.g 0 i.a i.b → mine i.a →
      exec (.barInit i) s = retires (s.setBenchBar b (off i.a) ((s.benchBar b (off i.a)).init (k.ra i.b)))) ∧
    (s.SlotReady b sl 0x75 1 t.g t.d t.a t.b → mine t.a →
      exec (.barArrive t) s = retires ((s.setBenchBar b (off t.a) ((s.benchBar b (off t.a)).arrive (k.ra t.b))).sends b 1
        (.a t.d (BitVec.ofNat 64 (s.benchBar b (off t.a)).phase)))) ∧
    (s.SlotReady b sl 0x75 3 u.g u.d u.a u.p → mine u.a →
      exec (.barTest u) s = retires (s.sends b 1 (.g u.d ((s.benchBar b (off u.a)).phase != u.p)))) ∧
    (let v := ((s.src c i.a).2.src c i.b).2.drainAll (coreOf c)
     s.CtxReady c 0x75 0 i.g 0 i.a i.b → inside i.a → exec (.barInit i) s = retires (v.setLocalBar cl (la i.a)
       ((v.localBar cl (la i.a)).init ((s.src c i.a).2.src c i.b).1))) ∧
    (let v := ((s.src c t.a).2.src c t.b).2.drainAll (coreOf c)
     let o := v.localBar cl (la t.a)
     s.CtxReady c 0x75 1 t.g t.d t.a t.b → inside t.a → exec (.barArrive t) s = retires ((v.setLocalBar cl (la t.a)
       (o.arrive ((s.src c t.a).2.src c t.b).1)).dst c t.d (BitVec.ofNat 64 o.phase))) ∧
    (let v := (s.src c w.a).2.drainAll (coreOf c)
     let ph := (v.localBar cl (la w.a)).phase
     s.CtxReady c 0x75 2 w.g 0 w.a w.p → inside w.a → (ph ≠ w.p → exec (.barWait w) s = retires (v.acquire (coreOf c))) ∧
       (ph = w.p → exec (.barWait w) s = .next (s.park c .barrier))) ∧
    (let v := (s.src c u.a).2.drainAll (coreOf c)
     let o := v.localBar cl (la u.a)
     s.CtxReady c 0x75 3 u.g u.d u.a u.p → inside u.a →
       (o.phase ≠ u.p → exec (.barTest u) s = retires ((v.acquire (coreOf c)).dst c u.d (BitVec.ofNat 64 (1 + 2 * o.ovr)))) ∧
       (o.phase = u.p → exec (.barTest u) s = retires (v.dst c u.d (BitVec.ofNat 64 (2 * o.ovr)))))

/-- R316, R337: the phase of an object flips exactly when an arrival or a landing leaves nothing awaited; the arrivals awaited then
start again from the expected count. An arrival that nothing awaits marks the object and changes nothing else. BAR.INIT starts an
object afresh, with an expected count from 1 to 65,535. -/
def Obligations.BarrierPhase : Prop :=
  ∀ (o : BarObj) (n : W64) (m : Nat),
    let kept (q : BarObj) : Prop := q.expect = o.expect ∧ q.ovr = o.ovr
    let p := o.pend - BitVec.ofNat 64 m
    (0 < o.arrv → (1 < o.arrv ∨ o.pend + n ≠ 0) →
      (o.arrive n).phase = o.phase ∧ (o.arrive n).arrv = o.arrv - 1 ∧ (o.arrive n).pend = o.pend + n ∧ kept (o.arrive n)) ∧
    (o.arrv = 1 → o.pend + n = 0 →
      (o.arrive n).phase = 1 - o.phase ∧ (o.arrive n).arrv = o.expect ∧ (o.arrive n).pend = 0 ∧ kept (o.arrive n)) ∧
    (o.arrv = 0 → (o.arrive n).ovr = 1 ∧ (o.arrive n).phase = o.phase ∧ (o.arrive n).pend = o.pend ∧ (o.arrive n).arrv = 0 ∧
      (o.arrive n).expect = o.expect) ∧
    ((o.arrv ≠ 0 ∨ p ≠ 0) → (o.land m).phase = o.phase ∧ (o.land m).arrv = o.arrv ∧ (o.land m).pend = p ∧ kept (o.land m)) ∧
    (o.arrv = 0 → p = 0 →
      (o.land m).phase = 1 - o.phase ∧ (o.land m).arrv = o.expect ∧ (o.land m).pend = 0 ∧ kept (o.land m)) ∧
    (let e := if n.toNat < 1 then 1 else if 65535 < n.toNat then 65535 else n.toNat
     (o.init n).phase = 0 ∧ (o.init n).expect = e ∧ (o.init n).arrv = e ∧ (o.init n).pend = 0 ∧ (o.init n).ovr = 0)

/-- R304, R311, R317, R330 to R333, R339: the fields of a cut list stand in a register's image as R304 lays them out, and the first row
of R311's table that holds is the row of a cut list; WM.SET starts a new epoch of a channel, WM.RD gives its position; CL.SEND fills a
cut-list register from memory, or on a bench from the code of its segment; CL.CHK gives the row that the register's cut list fails,
where row 1 takes in what the kinds of CPY require only if each of them would reject the list. The rows compare element sizes, strides and extents of I4 in half-bytes, in which
its elements lie packed: the model's reading of rows 3 and 4 (log 29). That row 5 tests BAR under BV alone is the model's choice
(log 81). -/
def Obligations.WatermarksAndCutLists : Prop :=
  ∀ (s s1 : State) (c b : Nat) (sl : SlotName) (t : Tri) (u : Bin) (bs hd ds : List Byte) (r0 : Unit),
    let k := s.bench b
    let cl := clusterOf c
    let fresh (m : Watermark) (base len : Nat) : Watermark :=
      ⟨BitVec.ofNat 64 ((if len = 0 then 0 else 2 ^ 63) + base * 2 ^ 32 + len), BitVec.ofNat 64 ((m.epoch + 1) % 2 ^ 32 * 2 ^ 32), []⟩
    (let A := (k.ra t.a).toNat
     let B := (k.ra t.b).toNat
     s.SlotReady b sl 0x77 0 t.g t.d t.a t.b → A < 2 ^ 22 → B < 2 ^ 22 → A + B ≤ Config.sramBytes →
       exec (.wmSet t) s = retires (s.setBench b { k with wm := tset k.wm t.d (fresh (tgetD k.wm t.d Watermark.zero) A B) })) ∧
    (let ra := s.src c t.a
     let rb := ra.2.src c t.b
     let A := ra.1.toNat
     let B := rb.1.toNat
     s.CtxReady c 0x77 0 t.g t.d t.a t.b → A + B ≤ 2 ^ 20 →
       (isQ t.a = true ∨ isQ t.b = true ∨ ((s.ctx c).x t.a = ra.1 ∧ (s.ctx c).x t.b = rb.1)) →
         exec (.wmSet t) s = retires (rb.2.modCluster cl (fun q =>
           { q with wm := tset q.wm t.d (fresh (tgetD q.wm t.d Watermark.zero) A B) }))) ∧
    (s.SlotReady b sl 0x77 1 u.g u.d u.a 0 →
      exec (.wmRd u) s = retires (s.sends b 1 (.a u.d (tgetD k.wm u.a Watermark.zero).pos))) ∧
    (s.CtxReady c 0x77 1 u.g u.d u.a 0 → exec (.wmRd u) s = retires (s.dst c u.d (tgetD (s.cluster cl).wm u.a Watermark.zero).pos)) ∧
    (let ea := (k.ra u.a).toNat / 8 * 8
     let h := tgetD k.halves k.half Half.empty
     s.SlotReady b sl 0x77 2 u.g u.d u.a 0 → h.codeBytes ea 48 = .ok hd →
       h.codeBytes (ea + 48) (imageLength (leNat (hd.take 8)) - 48) = .ok ds →
         exec (.clSend u) s = retires (s.setBench b { k with clr := tset k.clr u.d ⟨hd ++ ds, ea⟩ })) ∧
    (let ra := s.src c u.a
     let ea := ra.1.toNat / 8 * 8
     s.CtxReady c 0x77 2 u.g u.d u.a 0 → preCut u.a s c = .ok r0 → ra.2.readCut c ea = .ok (bs, s1) →
       exec (.clSend u) s = retires (s1.modCtx c (fun x => { x with clr := tset x.clr u.d ⟨bs, ea⟩ }))) ∧
    (let cut := (tgetD k.clr u.a ClReg.zero).cut
     s.SlotReady b sl 0x77 3 u.g u.d u.a 0 →
       exec (.clChk u) s = retires (s.sends b 1 (.a u.d (BitVec.ofNat 64 (cut.check true false (k.arena cut)))))) ∧
    (let cut := (tgetD (s.ctx c).clr u.a ClReg.zero).cut
     s.CtxReady c 0x77 3 u.g u.d u.a 0 →
       exec (.clChk u) s = retires (s.dst c u.d (BitVec.ofNat 64 (cut.check false (s.clx (s.ctx c)) cut.base)))) ∧
    (∀ (ct : Cut) (bench clx kb : Bool) (base : Nat), ct.dims.length = ct.ndim →
      let th := if ct.red ≠ 0 ∧ ct.dir = 1 then 8 else fmtWidth ct.elt / 4
      let dh := if ct.mode ≠ 0 ∨ (ct.red ≠ 0 ∧ ct.dir = 0) then 8 else fmtWidth ct.elt / 4
      let box0 := (ct.dims.head?.map (·.box)).getD 1
      let pitch := if ct.dpitch ≠ 0 then 2 * ct.dpitch else dh * box0
      let dim (i : Nat) : Dim := ct.dims.getD i ⟨0, 0, 0, 0⟩
      let step (i : Nat) : Nat := if i = 0 ∧ th = 1 then 1 else 2 * (dim i).stride.natAbs
      let beyond (lim : Nat) : Prop := ∃ i, i < ct.count ∧ 2 * lim < 2 * ct.dbase + pitch * (i / box0) + dh * (i % box0) + dh
      let r1 : Prop := ct.ndim = 0 ∨ 8 < ct.ndim ∨ ct.reserved = true ∨ ct.mode = 3 ∨ 4 < ct.red ∨ ct.dsp = 3 ∨ ct.max_ = 3 ∨
        4 < ct.rm ∨ 8 < ct.kvsel ∨ (validFmt ct.elt = false ∧ ct.elt ≠ 0x13) ∨ (ct.max_ = 0 ∧ ct.mask ≠ 0) ∨
        (ct.red ≠ 0 ∧ (ct.mode ≠ 0 ∨ ct.elt ≠ if ct.red = 2 then 0x12 else 0x10)) ∨ (ct.mode = 1 ∧ ct.dir = 1) ∨
        (ct.mode = 2 ∧ ct.dir = 0) ∨ (ct.mode ≠ 0 ∧ ct.elt = 0x13) ∨
        (bench = true ∧ (ct.dsp ≠ 0 ∨ (ct.red ≠ 0 ∧ ct.dir = 1) ∨ (ct.max_ ≠ 0 ∧ ct.dir = 1))) ∨
        (bench = false ∧ (ct.dsp = 0 ∨ ct.kvsel ≠ 0 ∨ ct.max_ ≠ 0)) ∨ kb = true
      let r2 : Prop := ∃ d, d ∈ ct.dims ∧ (d.extent = 0 ∨ d.box = 0)
      let r3 : Prop := base % max 1 (th / 2) ≠ 0 ∨ (∃ d, d ∈ ct.dims ∧ d.stride % (max 1 (th / 2) : Nat) ≠ 0) ∨
        ct.dbase % max 1 (dh / 2) ≠ 0 ∨ ct.dpitch % max 1 (dh / 2) ≠ 0 ∨ ct.bar % 16 ≠ 0 ∨
        ((th = 1 ∨ dh = 1) ∧ ((dim 0).stride ≠ 1 ∨ (dim 0).origin % 2 ≠ 0 ∨ (dim 0).box % 2 ≠ 0))
      let r4 : Prop := (ct.dir = 1 ∧ (step 0 < th ∨ ∃ i, i + 1 < ct.ndim ∧ step (i + 1) < step i * (dim i).extent)) ∨
        (ct.dir ≠ 1 ∧ ct.dpitch ≠ 0 ∧ 2 * ct.dpitch < dh * box0)
      let r5 : Prop := (bench = true ∧ (beyond 0x300000 ∨ (ct.bv = true ∧ 0x300000 ≤ ct.bar))) ∨
        (bench = false ∧ ((ct.dsp = 2 ∧ (beyond (if ct.lmode = 0 then 2 ^ 17 else 2 ^ 20) ∨ (ct.lmode ≠ 0 ∧ clx = false))) ∨
          (ct.bv = true ∧ (2 ^ 20 ≤ ct.bar ∨ clx = false))))
      let row := ct.row kb bench clx base
      (r1 → row = 1) ∧ (¬r1 → r2 → row = 2) ∧ (¬r1 → ¬r2 → r3 → row = 3) ∧ (¬r1 → ¬r2 → ¬r3 → r4 → row = 4) ∧
        (¬r1 → ¬r2 → ¬r3 → ¬r4 → r5 → row = 5) ∧ (¬r1 → ¬r2 → ¬r3 → ¬r4 → ¬r5 → row = 0)) ∧
    (∀ (ct : Cut) (bench clx : Bool) (base j : Nat) (cfg : W64),
      let least := fld cfg.toNat 32 22
      let dh := if ct.mode ≠ 0 ∨ (ct.red ≠ 0 ∧ ct.dir = 0) then 8 else fmtWidth ct.elt / 4
      let run := dh * ((ct.dims.head?.map (·.box)).getD 0) / 2
      let rejected : Prop := ct.max_ ≠ 0 ∧ (ct.red ≠ 0 ∨ bench = false)
      (ct.kindBad .box bench cfg = true ↔ ct.max_ ≠ 0 ∨ ct.red ≠ 0) ∧
      (ct.kindBad .mcast bench cfg = true ↔ ct.max_ = 0 ∨ ct.red ≠ 0 ∨ bench = false) ∧
      (ct.kindBad .red bench cfg = true ↔ ct.red = 0 ∨ ct.max_ ≠ 0) ∧
      (ct.kindBad (.lin j) bench cfg = true ↔ ct.ndim ≠ 1 ∨ ct.red ≠ 0 ∨ ct.max_ ≠ 0 ∨ ct.dir ≠ 0 ∨ fld cfg.toNat 63 1 = 0 ∨
        (bench = true ∧ ct.dsp ≠ 0) ∨ (bench = false ∧ (ct.dsp ≠ 2 ∨ ct.lmode ≠ 3)) ∨ ct.dbase < least ∨
        least + fld cfg.toNat 0 22 < ct.dbase + run) ∧
      (rejected → ct.check bench clx base = ct.row true bench clx base) ∧
      (¬rejected → ct.check bench clx base = ct.row false bench clx base)) ∧
    (∀ (r : ClReg),
      let W (off : Nat) : Nat := leNat ((r.bytes.drop off).take 8)
      let ct := r.cut
      ct.elt = fld (W 0) 56 8 ∧ ct.ndim = fld (W 0) 52 4 ∧ ct.mode = fld (W 0) 50 2 ∧ ct.red = fld (W 0) 47 3 ∧ ct.dir = fld (W 0) 46 1 ∧
      ct.skew = fld (W 0) 44 2 ∧ ct.fill = fld (W 0) 43 1 ∧ ct.rm = fld (W 0) 40 3 ∧ ct.kvsel = fld (W 0) 36 4 ∧ ct.dsp = fld (W 0) 34 2 ∧
      ct.lmode = fld (W 0) 32 2 ∧ ct.max_ = fld (W 0) 30 2 ∧ ct.mask = fld (W 0) 0 16 ∧ ct.base = W 0x08 ∧ ct.dbase = W 0x10 ∧
      ct.dpitch = fld (W 0x18) 32 32 ∧ (ct.bv = true ↔ fld (W 0x20) 63 1 = 1) ∧ ct.bar = fld (W 0x20) 0 32 ∧
      ct.kslot = fld (W 0x28) 48 16 ∧ ct.kpos = fld (W 0x28) 0 32 ∧
      (ct.ndim ≤ 8 → ct.dims.length = ct.ndim ∧ ∀ d, d < ct.ndim → ct.dims[d]? = some ⟨fld (W (48 + 24 * d)) 32 32,
        fld (W (48 + 24 * d)) 0 32, toI 32 (fld (W (56 + 24 * d)) 32 32), toI 64 (W (64 + 24 * d))⟩) ∧
      (ct.ndim ≤ 8 → (ct.reserved = true ↔ fld (W 0) 16 14 ≠ 0 ∨ fld (W 0x18) 0 32 ≠ 0 ∨ fld (W 0x20) 32 31 ≠ 0 ∨
        fld (W 0x28) 32 16 ≠ 0 ∨ ∃ d, d < ct.ndim ∧ fld (W (56 + 24 * d)) 0 32 ≠ 0)))

/-- R319 to R322, R338: JIG.LOAD stores a legal program of 512 bytes; JIG.GO starts it with the trip counts of that tick, and a BUNDLE
program suspends the bench for its ticks; on an idle jig it raises JIG_PROGRAM, and on a running one JIG_BUSY; JIG.STOP leaves it
loaded; JIG.STAT gives its state, its levels less 1, its mode and the iterations since the last JIG.GO, which a load leaves as they are. -/
def Obligations.JigForms : Prop :=
  ∀ (s : State) (b : Nat) (sl : SlotName) (u : UnA) (z : Nul) (d : UnD),
    let k := s.bench b
    (let off := (k.ra u.a).toNat / 64 * 64
     let j : Jig := { Jig.idle with store := s.sramBytes b off 512, addr := off, state := .loaded, iter := k.jig.iter }
     s.SlotReady b sl 0x76 0 u.g 0 u.a 0 → off + 512 ≤ Config.sramBytes → s.checkOwner b off 512 = .ok () →
       (k.jig.state ≠ .run → j.legal = true → exec (.jigLoad u) s = retires (s.setBench b { k with jig := j })) ∧
       (k.jig.state ≠ .run → j.legal = false → exec (.jigLoad u) s = .next (s.benchFault b s.ctl.group cJigProgram off 0)) ∧
       (k.jig.state = .run → exec (.jigLoad u) s = .next (s.benchFault b s.ctl.group cJigBusy off 0))) ∧
    (let j : Jig := { k.jig with trips := k.jig.tripsFrom k.seqlen, iter := 0, start := k.tick, anchor := k.lastAnchor }
     let j1 : Jig := if j.total = 0 then j else { j with state := .run }
     s.SlotReady b sl 0x76 1 z.g 0 0 0 →
       (k.jig.state = .loaded → k.jig.mode = 0 → exec (.jigGo z) s = retires (s.setBench b { k with jig := j1 })) ∧
       (k.jig.state = .loaded → k.jig.mode = 1 →
         exec (.jigGo z) s = retires (s.setBench b { k with jig := j1, bubble := k.tick + 1 + j.total * j.per })) ∧
       (k.jig.state = .idle → exec (.jigGo z) s = .next (s.benchFault b s.ctl.group cJigProgram k.jig.addr 0)) ∧
       (k.jig.state = .run → exec (.jigGo z) s = .next (s.benchFault b s.ctl.group cJigBusy k.jig.addr 0))) ∧
    (s.SlotReady b sl 0x76 2 z.g 0 0 0 →
      (k.jig.state = .run → exec (.jigStop z) s = retires (s.setBench b { k with jig := { k.jig with state := .loaded } })) ∧
      (k.jig.state ≠ .run → exec (.jigStop z) s = retires (s.setBench b k))) ∧
    (let w := leNat (k.jig.store.take 8)
     let code := match k.jig.state with
       | .idle => 0
       | .loaded => 1
       | .run => 2
     s.SlotReady b sl 0x76 3 d.g d.d 0 0 → exec (.jigStat d) s = retires (s.sends b 1 (.a d.d (BitVec.ofNat 64
       (code * 2 ^ 62 + fld w 59 3 * 2 ^ 59 + fld w 62 1 * 2 ^ 58 + min k.jig.iter (2 ^ 32 - 1))))))

/-- R323, R324, R340, R341: the producer of a channel puts an entry that lands no sooner than the channel's latency, and at once
where the channel has none and the entry is due; its consumer takes the oldest landed entry, folds it into D, or counts what has landed. A form that names an undeclared channel, or one
whose other side the bench is, raises CHANNEL_ROLE. In a hold an entry due at once waits for the hold's end (R170).
CH.RED adds, or takes the larger or the smaller of each pair of elements, D's first: of F32, F16 and BF16 as numbers, of I8, I16 and I32 as
signed values, whose sum wraps. A channel of another format raises SHAPE_FORMAT; that its FADDR and INFO are 0 is the model's choice
(log 84). What CH.STAT sees of a tick, and CH.RED's fault on an empty channel, are the model's readings (log 38). -/
def Obligations.ChannelForms : Prop :=
  ∀ (s : State) (b : Nat) (sl : SlotName) (t : Tri) (u : Bin) (c : Channel) (at_ : Nat) (v : W1024) (rest : List (Nat × W1024))
      (f : Nat → Nat → Nat × Nat),
    let k := s.bench b
    let now := s.frame.fcnt.toNat
    let put (ch : Nat) (q : Channel) : State := { s with frame := { s.frame with channels := tset s.frame.channels ch q } }
    let due := k.lastAnchor + (k.ra t.b).toNat % 2 ^ 32
    (s.SlotReady b sl 0x78 0 t.g t.d t.a t.b → tget s.frame.channels t.d = some c → c.prod = b →
      (now + c.lat ≤ due → c.xpkg = false → due = now → s.frame.causes = [] → exec (.chPut t) s = retires
        (if c.depth ≤ c.landed.length then s.faultFrame ⟨cChFull, t.d, 0, 0, 1, c.cons, 0⟩
         else put t.d { c with landed := c.landed ++ [(now, BitVec.ofNat 1024 (k.rv t.a % 2 ^ c.width))] })) ∧
      (now + c.lat ≤ due → c.xpkg = false → (due ≠ now ∨ s.frame.causes ≠ []) → exec (.chPut t) s = retires (put t.d { c with
        flying := c.flying ++ [(due, now, BitVec.ofNat 1024 (k.rv t.a % 2 ^ c.width))] })) ∧
      (now + c.lat ≤ due → c.xpkg = true → exec (.chPut t) s = retires ((put t.d { c with
        flying := c.flying ++ [(due, now, BitVec.ofNat 1024 (k.rv t.a % 2 ^ c.width))] }).send
          (.entry t.d due (k.rv t.a % 2 ^ c.width)))) ∧
      (due < now + c.lat → exec (.chPut t) s = .next (s.benchFault b s.ctl.group cTimed 0 0))) ∧
    (s.SlotReady b sl 0x78 1 u.g u.d u.a 0 → tget s.frame.channels u.a = some c → (c.xpkg = true ∨ c.cons = b) →
      (c.landed = (at_, v) :: rest → exec (.chGet u) s =
        retires ((put u.a { c with landed := rest }).setBench b (k.laterV 2 u.d 0 c.width v.toNat))) ∧
      (c.landed = [] → exec (.chGet u) s = .next (s.benchFault b s.ctl.group cChEmpty 0 u.a))) ∧
    (let n := fmtWidth c.ty
     let r := yMap n (c.width / n) (fun i => f (lane n i (k.rv t.d)) (lane n i v.toNat))
     s.SlotReady b sl 0x78 2 t.g t.d t.a t.b → tget s.frame.channels t.a = some c → (c.xpkg = true ∨ c.cons = b) →
       chanOp c.ty t.b = some f → c.landed = (at_, v) :: rest →
         exec (.chRed t) s = retires ((put t.a { c with landed := rest }).setBench b
           ((k.laterV 3 t.d 0 c.width r.1).laterFlags 3 r.2))) ∧
    (s.SlotReady b sl 0x78 2 t.g t.d t.a t.b → tget s.frame.channels t.a = some c → (c.xpkg = true ∨ c.cons = b) →
      c.ty ∉ [0x10, 0x11, 0x12, 1, 2, 3] → exec (.chRed t) s = .next (s.benchFault b s.ctl.group cShapeFormat 0 0)) ∧
    (∀ (ty op : Nat) (g : Fmt), (ty, g) ∈ [(0x10, f32), (0x11, f16), (0x12, bf16)] → ∃ h, chanOp ty op = some h ∧ ∀ d e,
      h d e = if op = 0 then fadd g .rne 0 d e else if op = 1 then (fmax g d e, 0) else (fmin g d e, 0)) ∧
    (∀ (ty op n : Nat), (ty, n) ∈ [(1, 8), (2, 16), (3, 32)] → ∃ h, chanOp ty op = some h ∧ ∀ d e,
      h d e = (if op = 0 then (d + e) % 2 ^ n else if op = 1 then (if toI n d < toI n e then e else d)
        else (if toI n e < toI n d then e else d), 0)) ∧
    (s.SlotReady b sl 0x78 3 u.g u.d u.a 0 → tget s.frame.channels u.a = some c → (c.xpkg = true ∨ c.cons = b) →
      exec (.chStat u) s = retires (s.sends b 1 (.a u.d
        (BitVec.ofNat 64 (c.lat * 2 ^ 16 + c.landed.countP (fun e => decide (e.1 < now))))))) ∧
    (let role (i : Instr) (ch : Nat) : Prop := exec i s = .next (s.benchFault b s.ctl.group cChRole 0 ch)
     let closed (ch : Nat) : Prop := ∀ q, tget s.frame.channels ch = some q → q.xpkg = false ∧ q.cons ≠ b
     (s.SlotReady b sl 0x78 0 t.g t.d t.a t.b → (∀ q, tget s.frame.channels t.d = some q → q.prod ≠ b) → role (.chPut t) t.d) ∧
     (s.SlotReady b sl 0x78 1 u.g u.d u.a 0 → closed u.a → role (.chGet u) u.a) ∧
     (s.SlotReady b sl 0x78 2 t.g t.d t.a t.b → closed t.a → role (.chRed t) t.a) ∧
     (s.SlotReady b sl 0x78 3 u.g u.d u.a 0 → closed u.a → role (.chStat u) u.a))

/-! ### Spline groups, the ring and remote access -/

/-- R342 to R344: SPL.GRP binds an entry to a legal descriptor of four words; SPL.RST unbinds it; SPL.LDR contributes the source's
elements, empties the result's words and makes the entry PENDING; GRP and LDR wait while the entry is PENDING. SPL.STAT gives the state.
R325 to R327, R345: RING.SET writes an entry's three words or the member count; RING.NEXT gives the next live member; RING.SKIP takes
a live member out; RING.RD reads an entry or the count. A bench reads the table as it stood when the frame began.
R326: the next member after `i` is a live one, and no live member lies between; 0x100 where none is live. A skip marks member `k`,
makes the next member its adopter and that of the members it had adopted, and changes nothing else. R342: the descriptor of a group,
which SPL.GRP refuses with SHAPE_FIELD where a field of it is not legal. -/
def Obligations.SplineAndRing : Prop :=
  (∀ (s s1 : State) (c b : Nat) (sl : SlotName) (u : Bin) (d : UnD) (bs : List Byte) (g : Group) (ps : List Part)
      (src : List Part × List Nat),
     let asid := (s.ctx c).asid.toNat
     let e (i : Nat) : Group := s.group i
     (let ra := s.src c u.a
      s.CtxReady c 0x79 0 u.g u.d u.a 0 →
        ((e u.d).asid = some asid → (e u.d).state = 1 → exec (.splGrp u) s = .next (s.park c .spline)) ∧
        ((e u.d).asid = none ∨ ((e u.d).asid = some asid ∧ (e u.d).state ≠ 1) → ra.2.readWords c ra.1.toNat 4 = .ok (bs, s1) →
          (groupDesc bs = some g →
            exec (.splGrp u) s = retires (s1.setGroup u.d { g with asid := some asid, launch := s.launchOf (s.ctx c) })) ∧
          (groupDesc bs = none → exec (.splGrp u) s = .next (s.raise c s.ctl.group cShape ra.1.toNat 0)))) ∧
     (let W (j : Nat) : Nat := leNat ((bs.drop (8 * j)).take 8)
      let size := if fld (W 0) 30 2 = 1 then 2 else 4
      let legal : Prop := 2 ≤ fld (W 0) 40 8 ∧ fld (W 0) 32 8 < fld (W 0) 40 8 ∧ fld (W 0) 30 2 ≤ 1 ∧ fld (W 0) 21 8 = 0 ∧
        1 ≤ fld (W 0) 0 21 ∧ fld (W 0) 0 21 ≤ 2 ^ 20 ∧ W 1 % size = 0 ∧ W 2 % 4 = 0 ∧ 1 ≤ fld (W 3) 32 32
      (legal → groupDesc bs = some { Group.unbound with
        gid := fld (W 0) 48 16, nmem := fld (W 0) 40 8, midx := fld (W 0) 32 8, ty := fld (W 0) 30 2, ord := fld (W 0) 29 1 == 1
        count := fld (W 0) 0 21, src := W 1, dst := W 2, tmo := fld (W 3) 32 32, sq := fld (W 3) 0 32 }) ∧
      (¬legal → groupDesc bs = none)) ∧
     (s.CtxReady c 0x79 1 d.g d.d 0 0 →
       ((e d.d).asid = none → exec (.splRst d) s = retires s) ∧
       ((e d.d).asid = some asid → exec (.splRst d) s = retires (s.setGroup d.d Group.unbound))) ∧
     (let t := s.drainAll (coreOf c)
      let q := e d.d
      s.CtxReady c 0x79 2 d.g d.d 0 0 → q.asid = some asid →
        (q.state = 1 → exec (.splLdr d) s = .next (s.park c .spline)) ∧
        (q.state ≠ 1 → t.groupDst (s.ctx c) q = .ok ps → t.groupSrc (s.ctx c) q = .ok src →
          exec (.splLdr d) s = retires (((((t.spanWalks asid q.dst ps).spanMeet asid q.src src.1).spanEmpty ps).setGroup d.d { q with
            state := 1, sent := q.sq, sq := (q.sq + 1) % 2 ^ 32, vals := src.2, launch := s.launchOf (s.ctx c)
            pas := ps.flatMap Part.wordList }).send
              (.contribute ⟨q.gid, q.sq, q.nmem, q.midx, q.ty, q.ord, q.count, q.tmo, src.2⟩)))) ∧
     (let q := e u.a
      let w : W64 := BitVec.ofNat 64 (q.state * 2 ^ 62 + q.sq)
      (s.CtxReady c 0x79 3 u.g u.d u.a 0 →
        (q.asid = none → exec (.splStat u) s = retires (s.dst c u.d 0)) ∧
        (q.asid = some asid → q.state = 2 → exec (.splStat u) s = retires ((s.acquire (coreOf c)).dst c u.d w)) ∧
        (q.asid = some asid → q.state ≠ 2 → exec (.splStat u) s = retires (s.dst c u.d w))) ∧
      (s.SlotReady b sl 0x79 3 u.g u.d u.a 0 → ∀ l, s.frame.launch = some l →
        (q.asid = none → exec (.splStat u) s = retires (s.sends b 1 (.a u.d 0))) ∧
        (q.asid = some l.asid → exec (.splStat u) s = retires (s.sends b 1 (.a u.d w)))))) ∧
  (∀ (s s1 : State) (c b : Nat) (sl : SlotName) (w : AB) (u : Bin) (t : Tri) (bs : List Byte),
     let R := s.eng.ring
     let N := s.eng.ringN
     let small (i : Nat) (v : W64) : Prop := v.toNat < 512 ∧ (isQ i = true ∨ (s.ctx c).x i = v)
     (let ra := s.src c w.a
      let rb := ra.2.src c w.b
      s.CtxReady c 0x7A 0 w.g 0 w.a w.b → small w.a ra.1 →
        (256 ≤ ra.1.toNat → exec (.ringSet w) s = retires { rb.2 with eng := { rb.2.eng with ringN := max 1 (min rb.1.toNat 256) } }) ∧
        (ra.1.toNat < 256 → rb.2.readWords c (rb.1.toNat / 8 * 8) 4 = .ok (bs, s1) → exec (.ringSet w) s = retires
          { s1 with eng := { s1.eng with ring := tset s1.eng.ring ra.1.toNat (ringImage bs) } })) ∧
     (let ra := s.src c u.a
      s.CtxReady c 0x7A 1 u.g u.d u.a 0 → small u.a ra.1 →
        exec (.ringNext u) s = retires (ra.2.dst c u.d (BitVec.ofNat 64 (ringNext R N (ra.1.toNat % 256))))) ∧
     (let a := ((s.bench b).ra u.a).toNat
      s.SlotReady b sl 0x7A 1 u.g u.d u.a 0 → a < 512 → exec (.ringNext u) s = retires (s.sends b 1
        (.a u.d (BitVec.ofNat 64 (ringNext s.frame.ringView s.frame.ringViewN (a % 256)))))) ∧
     (let ra := s.src c u.a
      let k := ra.1.toNat % 256
      s.CtxReady c 0x7A 2 u.g u.d u.a 0 → small u.a ra.1 →
        (ringLive R N k = true → exec (.ringSkip u) s = retires (({ ra.2 with eng := { ra.2.eng with ring := ringSkip R N k } }).dst
          c u.d (BitVec.ofNat 64 (fld (ringWord (ringSkip R N k) k 0).toNat 48 9)))) ∧
        (ringLive R N k = false → exec (.ringSkip u) s = retires (ra.2.dst c u.d 0x100))) ∧
     (let ra := s.src c t.a
      s.CtxReady c 0x7A 3 t.g t.d t.a t.b → small t.a ra.1 → exec (.ringRd t) s = retires (ra.2.dst c t.d
        (if 256 ≤ ra.1.toNat then BitVec.ofNat 64 N else ringWord R (ra.1.toNat % 256) t.b))) ∧
     (let a := ((s.bench b).ra t.a).toNat
      s.SlotReady b sl 0x7A 3 t.g t.d t.a t.b → a < 512 → exec (.ringRd t) s = retires (s.sends b 1 (.a t.d
        (if 256 ≤ a then BitVec.ofNat 64 s.frame.ringViewN else ringWord s.frame.ringView (a % 256) t.b))))) ∧
  (∀ (r : Ring) (n i : Nat), 0 < n → n ≤ 256 →
     (∀ d, 0 < d → d ≤ n → ringLive r n ((i + d) % n) = true → (∀ e, 0 < e → e < d → ringLive r n ((i + e) % n) = false) →
       ringNext r n i = (i + d) % n) ∧
     ((∀ d, 0 < d → d ≤ n → ringLive r n ((i + d) % n) = false) → ringNext r n i = 0x100)) ∧
  (∀ (r : Ring) (n i : Nat), ringLive r n i = true ↔ i < n ∧ fld (ringWord r i 0).toNat 63 1 = 1 ∧ fld (ringWord r i 0).toNat 62 1 = 0) ∧
  (∀ (r : Ring) (n k j : Nat), n ≤ 256 → ringLive r n k = true → j < 256 → j ≠ k →
     let next := ringNext r n k
     let adopter := if next = k then 0x100 else next
     let old := (ringWord r j 0).toNat
     ringWord (ringSkip r n k) k 0 = setFld (setFld (ringWord r k 0) 62 1 1) 48 9 adopter ∧
     (∀ w, 0 < w → ringWord (ringSkip r n k) k w = ringWord r k w ∧ ringWord (ringSkip r n k) j w = ringWord r j w) ∧
     (fld old 62 1 = 1 → fld old 48 9 = k → ringWord (ringSkip r n k) j 0 = setFld (ringWord r j 0) 48 9 adopter) ∧
     (¬(fld old 62 1 = 1 ∧ fld old 48 9 = k) → ringWord (ringSkip r n k) j 0 = ringWord r j 0))

/-- R346 to R350: a request form reads its legal request of eight words, gives the context's ticket and moves it on; a request of no
bytes completes at once (that a SEND then sends nothing is the model's choice, log 81), any other goes to its connection, a PUT or SEND
with the source's bytes; an armed one waits on its connection. RMA.WAIT gives a complete ticket's status and waits for an incomplete one.
A malformed request raises RMA_DESC, a connection that is not open for the address space CAPABILITY, and a source that cannot be
reached ends the launch. Which tag an armed request waits for, and the FADDR of a trap, are the model's readings (log 40), and so is that
the request is read at A itself where A is no multiple of 8 (log 41). -/
def Obligations.RemoteAccess : Prop :=
  ∀ (s s1 : State) (c : Nat) (u : Bin) (t : Tri) (w : WorkReq) (ps : List Part) (r0 : Unit),
    let x := s.ctx c
    let full : Prop := Config.rmaTicketLimit ≤ s.openTickets c
    let id := s.weave.nextId
    let taken (v : State) (d : Nat) (r : RmaReq) : State :=
      ((v.fresh.setReq v.weave.nextId r).modCtx c (fun y => { y with ticket := y.ticket + 1 })).dst c d (v.ctx c).ticket
    let goes (v : State) (r : RmaReq) (bytes : List Nat) : State :=
      ((v.setReq id { r with armed := none }).send
        (.rma id r.conn r.op r.aop r.raddr r.len r.opnd1 r.opnd2 r.tag bytes)).useConn r.conn
    let asks (i : Instr) (maj xx op : Nat) : Prop :=
      let ra := s.src c u.a
      let v := if op = 1 then s1 else s1.drainAll (coreOf c)
      let r := v.asReq c w none
      let q := taken v u.d r
      s.CtxReady c maj xx u.g u.d u.a 0 → preReq u.a (some op) s c = .ok r0 → ra.2.readReq c ra.1.toNat (some op) = .ok (w, s1) →
        v.weave.nextId = id → r.op = op →
        (full → exec i s = .next (s.park c .ticket)) ∧
        (¬full → w.len = 0 → exec i s = retires (q.completeReq id 0)) ∧
        (¬full → w.len ≠ 0 → (op = 1 ∨ op = 2) → exec i s = retires (goes q r [])) ∧
        (¬full → w.len ≠ 0 → (op = 0 ∨ op = 3) → q.span r.asid r.user .read r.laddr r.len = .ok ps →
          q.spanReach r.asid r.laddr ps = .ok () → q.spanGood ps = .ok () →
            exec i s = retires (goes (q.spanMeet r.asid r.laddr ps) r ((q.spanRead ps).map (·.toNat)))) ∧
        (∀ code fa info, ¬full → w.len ≠ 0 → (op = 0 ∨ op = 3) →
          q.span r.asid r.user .read r.laddr r.len = .error (.wide code fa info) → exec i s = .next
            (((s.setCtx c { x with pc := BitVec.ofNat 64 s.ctl.group }).faultLaunch (s.launchOf x)
              ⟨code, info, fa, s.ctl.group, 0, c, 0⟩).verdict .faulted))
    let refused (i : Instr) (maj xx d a b : Nat) (g : Nat) (form : Option Nat) : Prop :=
      let ra := s.src c a
      let A := ra.1.toNat
      ∀ bs s2, s.CtxReady c maj xx g d a b → ra.2.readWords c A 8 = .ok (bs, s2) →
        let w (i : Nat) : Nat := leNat ((bs.drop (8 * i)).take 8)
        let op := fld (w 0) 60 4
        let illegal : Prop := 4 < op ∨ fld (w 0) 24 20 ≠ 0 ∨ fld (w 3) 32 32 ≠ 0 ∨ w 7 ≠ 0 ∨ (∃ n, form = some n ∧ n ≠ op) ∨
          (op = 2 ∧ (fld (w 3) 0 32 ≠ 8 ∨ w 1 % 8 ≠ 0 ∨ w 2 % 8 ≠ 0))
        let shut : Prop := ∀ k, tget s2.eng.conns (fld (w 0) 0 24) = some k → k.asid ≠ (ra.2.ctx c).asid.toNat
        (illegal → exec i s = .next (s.raise c s.ctl.group cRma A 0)) ∧
        (¬illegal → shut → exec i s = .next (s.raise c s.ctl.group cCap A 0))
    refused (.rmaPut u) 0x3E 0 u.d u.a 0 u.g (some 0) ∧ refused (.rmaGet u) 0x3E 1 u.d u.a 0 u.g (some 1) ∧
    refused (.rmaAmo u) 0x3F 0 u.d u.a 0 u.g (some 2) ∧ refused (.rmaSend u) 0x3F 2 u.d u.a 0 u.g (some 3) ∧
    refused (.rmaArm t) 0x3E 3 t.d t.a t.b t.g none ∧
    asks (.rmaPut u) 0x3E 0 0 ∧ asks (.rmaGet u) 0x3E 1 1 ∧ asks (.rmaAmo u) 0x3F 0 2 ∧ asks (.rmaSend u) 0x3F 2 3 ∧
    (let ra := s.src c u.a
     let v := ra.2
     let r := v.asReq c ⟨5, 0, none, ra.1.toNat, 0, 0, 0, 0, 0, 0, false⟩ none
     s.CtxReady c 0x3E 2 u.g u.d u.a 0 → s.connOpen ra.1.toNat x.asid.toNat = true → v.weave.nextId = id →
       (full → exec (.rmaFlush u) s = .next (s.park c .ticket)) ∧
       (¬full → exec (.rmaFlush u) s = retires (goes (taken v u.d r) r []))) ∧
    (let A := (s.src c u.a).1.toNat
     s.CtxReady c 0x3E 2 u.g u.d u.a 0 → (∀ k, tget s.eng.conns A = some k → k.asid ≠ x.asid.toNat) →
       exec (.rmaFlush u) s = .next (s.raise c s.ctl.group cCap A 0)) ∧
    (let ra := s.src c t.a
     let rb := s1.src c t.b
     s.CtxReady c 0x3E 3 t.g t.d t.a t.b → preReq t.a none s c = .ok r0 → ra.2.readReq c ra.1.toNat none = .ok (w, s1) →
       (full → exec (.rmaArm t) s = .next (s.park c .ticket)) ∧
       (¬full → exec (.rmaArm t) s = retires (taken rb.2 t.d (rb.2.asReq c w (some (if w.op = 4 then w.tag else rb.1.toNat)))))) ∧
    (let ra := s.src c u.a
     let found := s.eng.reqs.find? (fun r => s.ownsReq c r.2 && r.2.ticket == ra.1.toNat)
     s.CtxReady c 0x3F 1 u.g u.d u.a 0 →
       (found = none → exec (.rmaWait u) s = retires (ra.2.dst c u.d 0xFF)) ∧
       (∀ k r, found = some (k, r) →
         (r.status = none → exec (.rmaWait u) s = .next (s.park c .ticket)) ∧
         (∀ n, r.status = some n → exec (.rmaWait u) s = retires
           ((if n = 0 ∧ (r.op = 1 ∨ r.op = 2 ∨ r.op = 4 ∨ r.op = 5) then ra.2.acquire (coreOf c) else ra.2).dst c u.d
             (BitVec.ofNat 64 n)))))

/-! ### Frame control -/

/-! ### Events of the weave plane and of its memory -/

/-- R102, R117, R137, R141, R144, R147, R148, R298, R302, R318, R337, R343, R347: an event that ends a context's wait makes the context
ready, and it issues its group again; a wait for an event, a helper or a group, whose group has issued, ends with its group (how many
groups a core then issues in a cycle is the model's reading, log 69); a yield that is over leaves the context ready for its turn; a pending replay runs its next
group. Nothing else changes, but that the end of a watermark stall is an acquire of its core (R291). -/
def Obligations.ContextWakes : Prop :=
  ∀ (s : State) (c : Nat) (x : Ctx) (w : Wait), s.ctx? c = some x →
    (∀ r, x.replay = some r → exec (.replayExecution c) s = .next (s.push [.replay c])) ∧
    (x.wait = some w → x.halted = false →
      let again : Answer := .next ((s.setCtx c { x with wait := none }).push [.issue c])
      let goesOn : Answer := .next ((s.setCtx c { x with wait := none }).push [.finish c])
      (∀ n, w = .wfe n → exec (.wfeWake c) s = goesOn) ∧
      (∀ n, w = .wfe n → n ≠ 0 → n ≤ s.waited c → exec (.wfeTimeout c) s = goesOn) ∧
      (∀ b, w = .pipe b → exec (.pipeStallResume c) s = again) ∧ (w = .join → exec (.hjoinWake c) s = goesOn) ∧
      (w = .gwait → exec (.gwaitWake c) s = goesOn) ∧ (w = .event → exec (.waitevWake c) s = goesOn) ∧
      (w = .barrier → exec (.barWaitWake c) s = again) ∧ (w = .fill ∨ w = .drain → exec (.ldsFillWake c) s = again) ∧
      (w = .watermark → exec (.watermarkStallResume c) s =
        .next (((s.acquire (coreOf c)).setCtx c { x with wait := none }).push [.issue c])) ∧ (w = .engine → exec (.engineSlotFree c) s = again) ∧
      (w = .spline → exec (.splPendingWake c) s = again) ∧ (w = .ticket → exec (.rmaWaitWake c) s = again) ∧
      (∀ l, w = .yield l → (l = [] ∨ 11 ≤ s.waited c) →
        exec (.yieldResume c) s = .next (s.setCtx c { x with wait := none, since := none })))

/-- R257, R260, R261, R263, R286, R297, R302, R313, R316, R318, R335: the oldest store of a buffer becomes visible; a weave port
performs the access that came first, a context's or an RMA.AMO of another package; a copy of a block-transfer engine performs its next part, ends its launch at an element's fault, or completes with its flags and
EVPEND.XFR (R305 to R309: element after element, each from its side's spot to the other's; one out of bounds is filled in a load, and
left alone in a store or a reduction; a linear copy in ascending address order, elements that share a word together, the fault that of the
lowest logical index). The element sizes of a reduction are log 29's deduction, the translation kept for each page log 76's, the cluster's
TLB for the engine log 42's. An eviction drops a translation, drops an L1's copies of a line, or writes an L2's line back.
R279, R280: outside boot hold and while its die's queue has room, a shoot-down joins the queue, and one that stands first reaches every
store of translations at once: no TLB of a core or cluster and no pinned store then holds a translation that it covers. It
completes, with 1 added to its counter, once no access that it covers is outstanding; when the stores of translations drop what is covered
is the model's reading (log 54). -/
def Obligations.MemoryAndShootdownEvents : Prop :=
  (∀ (s : State) (k b c cl id i line : Nat) (e : BufStore) (es : List BufStore) (cs : List PortAccess) (x : Ctx) (q : BteCopy)
      (rq : RemoteRequest),
     ((s.core k).sb = e :: es → exec (.storeBufferDrain k) s = .next ((s.modCore k (fun r => { r with sb := es })).performStore k e)) ∧
     (let t := s.setBench b { s.bench b with port := cs }
      ((s.bench b).port = .amo i rq :: cs →
        (∀ v u, t.remoteAmo i rq = .ok (v, u) →
          exec (.weavePortAccess b) s = .next (u.send (.answer rq.conn 0 ((leBytes 8 v.toNat).map (·.toNat))))) ∧
        (∀ e, t.remoteAmo i rq = .error e → exec (.weavePortAccess b) s = .next (t.send (.answer rq.conn 1 [])))) ∧
      ((s.bench b).port = .ctx c :: cs →
        (s.ctx? c = none → exec (.weavePortAccess b) s = .next t) ∧
        (s.ctx? c = some x → x.wait = some (.port b) →
          exec (.weavePortAccess b) s = .next ((t.setCtx c { x with wait := none, granted := true }).push [.finish c])) ∧
        (s.ctx? c = some x → x.wait ≠ some (.port b) → exec (.weavePortAccess b) s = .next t))) ∧
     (let cut := q.clr.cut
      let n := min cut.partSize (cut.count - q.done)
      let els := q.elemsOf cut q.done (q.done + n)
      let later := q.elemsOf cut (q.done + n) cut.count
      tget (s.cluster cl).bte id = some q → 0 < n → ∀ r fl,
        (s.bteRun cl id q cut later els 0 = (r, fl, none) → exec (.bteCopyPart cl id) s = .next ((r.setBte cl id { q with
          done := q.done + n, flags := q.flags ||| BitVec.ofNat 64 fl, counted := q.counted + (q.subtracts cut (q.done + n)).sum
          leaves := r.bteLeaves cl id }).bteNotice cl q cut n)) ∧
        (∀ code faddr info lidx, s.bteRun cl id q cut later els 0 = (r, fl, some (.elem code faddr info lidx)) →
          exec (.bteCopyPart cl id) s = .next ((r.modCluster cl (fun p => { p with bte := terase p.bte id })).faultLaunch q.launch
            ⟨code, info, faddr, q.epc, 0, q.ctx, BitVec.ofNat 64 (2 ^ 63 + min lidx 0xFFFF)⟩))) ∧
     (∀ (m i fl f : Nat) (els later : List Nat) (t u : State) (d : Spot) (e : CopyElem),
       let cut := q.clr.cut
       let th := if cut.red ≠ 0 ∧ cut.dir = 1 then 8 else fmtWidth cut.elt / 4
       let dh := if cut.mode ≠ 0 ∨ (cut.red ≠ 0 ∧ cut.dir = 0) then 8 else fmtWidth cut.elt / 4
       let odd := cut.da2 i % 2
       let tp := Spot.mem e.pa e.leaf.nc
       let code (p : Spot) (half o : Nat) : Nat := codeOf half o (u.readSpot p (spanOf half))
       let scale := if cut.scaled e.leaf then leNat (u.readSpot (.mem (scalePa e.leaf e.pa) e.leaf.nc) 1) else 127
       let step := s.bteStep cl id q cut i
       let word (j : Nat) : Nat := (if cut.dir = 0 then cut.da j else cut.ta cut.base j) / 4
       let run := s.bteRun cl id q cut later (i :: els) fl
       (s.bteRun cl id q cut later [] fl = (s, fl, none) ∧
        (s.bteStep cl id q cut i = .ok (t, f) → run = t.bteRun cl id q cut later els (fl ||| f)) ∧
        (∀ e0, s.bteStep cl id q cut i = .error e0 →
          (q.linear = none → cut.narrow = false → run = (s, fl, some e0)) ∧
          (∀ j e1, (q.linear ≠ none ∨ cut.narrow = true) → j ∈ i :: els ++ later → j < cut.count → s.bteStep cl id q cut j = .error e1 →
            (∀ k, k < j → k ∈ i :: els ++ later → ∃ v, s.bteStep cl id q cut k = .ok v) → run = (s, fl, some e1)))) ∧
       ((q.linear = none ∨ cut.skew = 0 → q.elemAt i = i) ∧
        (q.linear ≠ none → cut.skew ≠ 0 → (i < m → m < cut.count → cut.da (q.elemAt i) ≤ cut.da (q.elemAt m)) ∧
          (i < cut.count → ∃ p, p < cut.count ∧ q.elemAt p = i)) ∧
        (cut.narrow = true ↔ (if cut.red ≠ 0 then 8 else if cut.dir = 0 then dh else th) < 8) ∧
        (cut.narrow = false → q.elemsOf cut i m = (List.range (m - i)).map (fun j => q.elemAt (j + i))) ∧
        (cut.narrow = true → ∀ j, j ∈ q.elemsOf cut i m ↔ ∃ p g, p < cut.count ∧ q.elemAt p = j ∧ g ≤ p ∧ i ≤ g ∧ g < m ∧
          word (q.elemAt g) = word j ∧ ∀ r, r < g → word (q.elemAt r) ≠ word j)) ∧
       (s.bteChecked cl id q cut i = .ok e → e.idx = i ∧ e.va = cut.ta cut.base i ∧ s.engineLeaf cl id q.asid e.va = some e.leaf ∧
         e.pa = e.leaf.phys e.va ∧ e.odd = cut.ta2 cut.base i % 2) ∧
       (cut.dsp = 2 → (cut.red ≠ 0 → cut.dir ≠ 0) →
         s.bteDense cl id q cut i = .ok (.loc (localIndex cl cut.lmode (coreOf q.ctx % 8) (cut.da i)), s)) ∧
       (cut.dsp ≠ 2 → s.bteDense cl id q cut i = .ok (d, u) → ∃ l, s.engineLeaf cl id q.asid (cut.da i) = some l ∧
         d = .mem (l.phys (cut.da i)) l.nc) ∧
       (cut.inBounds i = false → (cut.dir = 1 ∨ cut.red ≠ 0 → step = .ok (s, 0)) ∧
         (cut.dir ≠ 1 → cut.red = 0 → s.bteDense cl id q cut i = .ok (d, u) → step = .ok (u.putSpot d dh odd cut.fillValue, 0))) ∧
       (cut.inBounds i = true → s.bteChecked cl id q cut i = .ok e → u.frame.flagEcc = [] →
         (s.engineFill cl id q.asid (cut.ta cut.base i) e.leaf).bteDense cl id q cut i = .ok (d, u) →
           (cut.dir = 0 → cut.red = 0 →
             let v := cut.loadValue u e.leaf (code tp th e.odd) scale
             step = .ok (u.putSpot d dh odd v.1, v.2)) ∧
           (cut.dir = 0 → cut.red ≠ 0 →
             let v := redStep cut.red (leNat (u.readSpot d 4)) (redSource cut.red (code tp th e.odd))
             step = .ok (u.writeSpot d (leBytes 4 v.1), v.2)) ∧
           (cut.dir = 1 → cut.red = 0 →
             let v := cut.storeValue u e.leaf (code d dh odd) scale (drawOf q.seed q.draw i)
             step = .ok (u.putSpot tp th e.odd v.1, v.2)) ∧
           (cut.dir = 1 → cut.red ≠ 0 →
             let v := redStep cut.red (leNat (u.readSpot tp 4)) (redSource cut.red (code d dh odd))
             step = .ok (u.writeSpot tp (leBytes 4 v.1), v.2)))) ∧
     (tget (s.cluster cl).bte id = some q → q.clr.cut.count ≤ q.done →
       let t := s.modCluster cl (fun r => { r with bte := terase r.bte id })
       (s.issuer q = false → exec (.bteCopyComplete cl id) s = .next t) ∧
       (s.issuer q = true → exec (.bteCopyComplete cl id) s = .next (t.modCtx q.ctx (fun y =>
         { y with flags := y.flags ||| BitVec.ofNat 64 q.flags.toNat, evnew := y.evnew ||| 512 })))) ∧
     (k < 1024 → exec (.translationEviction k i) s = .next (s.modCore k (fun r => { r with tlb := r.tlb.eraseIdx i }))) ∧
     (cl < 128 → exec (.translationEviction (1024 + cl) i) s = .next (s.modCluster cl (fun r => { r with tlb := r.tlb.eraseIdx i }))) ∧
     (k < 1024 → exec (.cacheLineEviction k line) s = .next (s.modCore k (fun r =>
       { r with remote := terase r.remote (line / 64 * 64), fetched := terase r.fetched (line / 64 * 64) }))) ∧
     (homeDie (line / 64 * 64) = cl → exec (.cacheLineEviction (1024 + cl) line) s =
       .next { s with mem := s.mem.writeBack (line / 64 * 64) 64 })) ∧
  (∀ (s : State) (die asid n pages : Nat) (r : Shootdown) (rest : List Shootdown),
     let q := tgetD s.eng.sdq die []
     let asks (i : Instr) (r : Shootdown) : Prop := s.bootHold = false → q.length < Config.shootdownQueue →
       ∃ t, exec i s = .next t ∧ tgetD t.eng.sdq die [] = q ++ [r] ∧ t.mem = s.mem ∧ t.weave.ctxs = s.weave.ctxs ∧
         (q = [] → (∀ k e, e ∈ (t.core k).tlb → r.covers e = false) ∧ (∀ k e, e ∈ (t.cluster k).tlb → r.covers e = false) ∧
           (∀ e, e ∈ t.frame.pinned → r.covers e = false))
     (pages ≠ 0 → asks (.shootdownRange die asid n pages) ⟨0, asid, n, (tgetD s.eng.sdva die 0).toNat / 4096 * 4096, pages⟩) ∧
     asks (.shootdownAsid die asid n) ⟨1, asid, n, 0, 0⟩ ∧ asks (.shootdownAll die n) ⟨2, 0, n, 0, 0⟩ ∧
     (q = r :: rest → s.usesOpen r = false →
       ∃ t, exec (.shootdownComplete die) s = .next t ∧ t.evctr r.ectr = s.evctr r.ectr + 1 ∧ tgetD t.eng.sdq die [] = rest ∧
         (∀ k e, e ∈ (t.core k).tlb → r.covers e = false) ∧ t.mem = s.mem))

/-! ### Events of the frame plane -/

/-- R159, R166, R170 to R173, R179 to R182, R327, R392, R397: a segment that is expanded stands ready; an entry releases its block on
each bench of its mask; a cause writes its slip-log entry and a hold ends when none remains; a hold longer than HOLDMAX raises
HOLD_TIMEOUT; a mortise opens with an empty window and closes with its latch settled, but one under HOLD that lacks a tenon holds the
frame plane with its window open, and latches when the hold ends; a frame starts with the ring as it stands; a link replay delays an
entry. -/
def Obligations.FrameTickEvents : Prop :=
  ∀ (s : State) (b e m ch due : Nat) (l : FrameLaunch) (r : Mortise) (c : Cause) (cs : List Cause),
    let F := s.frame
    ((s.bench b).halves.any (fun h => !h.2.ready && decide (h.2.readyAt ≤ s.ctl.now)) = true → F.pending = false →
      F.launch = some l → exec (.segmentReady b) s = .next (s.setBench b { s.bench b with
        halves := (s.bench b).halves.map (fun h => (h.1, if h.2.readyAt ≤ s.ctl.now then { h.2 with ready := true } else h.2)) })) ∧
    (s.releaseNow e = true → exec (.blockRelease e) s =
      .next (((List.range 256).filter (fun i => bitOf (s.entryMask e) i)).foldl (fun t i => t.startBlock e i) s)) ∧
    (s.anchorDue b = true → ∃ t, exec (.anchorLate b) s = .next t ∧
      tget t.frame.slip (F.next % 64) = some (F.fcnt, BitVec.ofNat 64 (2 ^ 56 + b * 2 ^ 47 + (s.bench b).entry % 4096 * 2 ^ 32)) ∧
      t.frame.next = (F.next % 64 + 1) % 64 ∧ t.frame.total = min (F.total + 1) (2 ^ 32 - 1) ∧
      t.frame.causes = F.causes ++ [⟨1, b, F.next % 64, b⟩] ∧ t.frame.benches = F.benches ∧ t.mem = s.mem) ∧
    (s.remoteDue = true → F.remoteSlot = none → ∃ t, exec .remoteHold s = .next t ∧
      t.frame.causes.length = F.causes.length + 1 ∧ t.frame.next = (F.next % 64 + 1) % 64 ∧ t.frame.benches = F.benches ∧
      t.frame.remoteSlot = some F.next ∧ ∃ w, tget t.frame.slip (F.next % 64) = some (F.fcnt, w) ∧ w.toNat / 2 ^ 56 = 6 ∧
        w.toNat % 2 ^ 32 = min s.demand (2 ^ 32 - 1)) ∧
    (∀ i, s.remoteDue = true → F.remoteSlot = some i → exec .remoteHold s = .next { s with frame := { F with
      causes := F.causes ++ [⟨6, 256, i, ((tget s.host.notices F.fcnt.toNat).map (·.2)).getD 0⟩] } }) ∧
    (F.held ≠ 0 → F.causes.any s.remains = false →
      exec .holdEnd s = .next { s with frame := { F with held := 0, holdSlots := [], causes := [] } }) ∧
    (F.causes = c :: cs → F.holdmax.toNat < s.holdTime → exec .holdTimeout s = .next { s with
      frame := { F with faults := F.faults ++ [⟨cHold, c.code, c.idx, 0, 2, 0, 0⟩] } }) ∧
    (F.launch = some l → l.morts[m]? = some r → ∃ t, exec (.mortiseOpen m) s = .next t ∧ m ∈ t.frame.openM ∧
      (∀ w, w ∈ t.frame.staged → w.1 ≠ m) ∧ t.mem = s.mem ∧ t.frame.benches = F.benches ∧
      (∀ i x, s.ctx? i = some x → x.asid.toNat = r.asid → (t.ctx i).evnew = x.evnew ||| 1024)) ∧
    (let closed (t : State) : Prop := m ∉ t.frame.openM ∧ (∀ w, w ∈ t.frame.staged → w.1 ≠ m) ∧ t.mem = s.mem ∧
       t.frame.benches = F.benches ∧ t.frame.latches = F.latches ++ [s.latchOf l m r]
     F.launch = some l → l.morts[m]? = some r → m ∈ F.openM →
       (r.hold = false ∨ s.allPosted m = true → ∃ t, exec (.mortiseClose m) s = .next t ∧ closed t) ∧
       (r.hold = true → s.allPosted m = false → ∃ t, exec (.mortiseClose m) s = .next t ∧ m ∈ t.frame.openM ∧
         t.frame.staged = F.staged ∧ t.frame.posts = F.posts ∧ t.frame.latches = F.latches ∧ t.frame.tenonHeld = F.tenonHeld ++ [m] ∧
         t.frame.causes = F.causes ++ [⟨4, 256, F.next % 64, m⟩] ∧ t.frame.benches = F.benches ∧ t.mem = s.mem ∧
         tget t.frame.slip (F.next % 64) = some (F.fcnt, BitVec.ofNat 64 (4 * 2 ^ 56 + 256 * 2 ^ 47 + m % 4096 * 2 ^ 32))) ∧
       (m ∈ F.tenonHeld → s.allPosted m = true → ∃ t, exec (.holdLatch m) s = .next t ∧ closed t)) ∧
    exec .frameStart s = .next { s with frame := { F with ringView := s.eng.ring, ringViewN := s.eng.ringN } } ∧
    ((ch, due) ∉ F.lateLinks → exec (.linkReplay (ch, due)) s = .next { s with frame := { F with lateLinks := F.lateLinks ++ [(ch, due)] } }) ∧
    ((ch, due) ∈ F.lateLinks → exec (.linkReplay (ch, due)) s = .next s)

/-- R81, R184, R188, R221, R224, R233, R254, R268, R269, R306, R309, R312, R320 to R324, R375: results, tiles and entries land at their ticks; a granule's request,
its slot and its re-read pass; a copy lands at its due tick; a jig's iteration is made. A slot's start reads the 4,096 bytes of its
granule, or writes the elements of a store that lie in it, in order; a granule whose data meet a correctable error are late, an
uncorrectable one ends the launch, and so does an element whose translation is gone when it is accessed, or whose page row 8 of R311
forbids: of all that the copy reaches at the tick, the element of lowest logical index is reported (R57; that each access asks again is the
model's reading, log 76; what an ECC error and a slot name, log 25). A jig's iteration has group address 0 (log 44), and element sizes
outside RAW and of reductions are log 29's deduction. A load's landing puts
the codes of its elements on every bench that receives them, a store's those of its elements in tensor SRAM; they are readable from the
landing's tick on, and memory keeps them at its end (log 46). -/
def Obligations.FrameLandings : Prop :=
  ∀ (s : State) (b ch id n j v : Nat) (c : Channel) (q : Copy) (g : Granule) (x : CopyElem) (es : List CopyElem),
    let F := s.frame
    let k := s.bench b
    let now := F.fcnt.toNat
    let starts (g : Granule) : Bool := g.slotAt == some now && !g.taken
    let faulted (t : State) (y : CopyElem × Nat × Nat × Nat) : Prop := t.mem = s.mem ∧ t.frame.benches = F.benches ∧
      t.frame.faults = F.faults ++ [⟨y.2.1, y.2.2.1, y.2.2.2, q.epc, 1, q.bench, BitVec.ofNat 64 (2 ^ 63 + min y.1.idx 0xFFFF)⟩] ∧
      tget t.frame.copies id = some { q with grans := q.grans.map (fun g => if starts g then { g with taken := true } else g) }
    let due (p : Effect → Bool) : List Pending := k.pend.filter (fun e => decide (e.at_ ≤ k.tick) && p e.eff)
    let landed (p : Effect → Bool) : Bench := (due p).foldl (fun x e => x.apply e.eff)
      { k with pend := k.pend.filter (fun e => !(decide (e.at_ ≤ k.tick) && p e.eff)) }
    (due Effect.isResult ≠ [] → exec (.resultLanding b) s = .next (s.setBench b (landed Effect.isResult))) ∧
    (due Effect.isMatrix ≠ [] → exec (.matrixResultLanding b) s =
      .next ((due Effect.isMatrix).foldl (fun t e => t.landRows b 4 0 e.ord e.eff.rowsOf) (s.setBench b (landed Effect.isMatrix)))) ∧
    (due Effect.isKeep ≠ [] → exec (.winnowCopyLanding b) s =
      .next ((due Effect.isKeep).foldl (fun t e => t.landRows b 2 e.eff.accepted e.ord e.eff.rowsOf) (s.setBench b (landed Effect.isKeep)))) ∧
    (let tiles := F.lpass.filter (fun e => e.1 == b && e.2.1 == now)
     ((due Effect.isLatch).length = 1 → (tiles = [] ∨ F.causes ≠ []) → exec (.latchLanding b) s = .next (s.setBench b (landed Effect.isLatch))) ∧
     (∀ at_ t, due Effect.isLatch = [] → tiles = [(b, at_, t)] → exec (.lpassLanding b) s = .next
       ({ s with frame := { F with lpass := F.lpass.filter (fun e => !(e.1 == b && e.2.1 == now)) } }.setBench b { k with shadow := t })) ∧
     (due Effect.isLatch ≠ [] → tiles ≠ [] → F.causes = [] → exec (.latchLanding b) s =
       .next ((s.setBench b (landed Effect.isLatch)).benchFault b 0 cMatrix 0x11 0))) ∧
    (let c1 := q.arm now k.tick
     tget F.copies id = some q → q.bench = b →
       exec (.copyGranuleRequest b id) s = .next ((c1.dueRequests k.tick).foldl (fun t j => t.request id j) (s.setCopy id c1))) ∧
    (let starts (c : Nat × Copy) : List (Nat × Nat) := ((List.range c.2.grans.length).filter (fun i => match c.2.grans[i]? with
       | some h => stackOf h.pa == n && h.slotAt == some now && !h.taken
       | none => false)).map (fun i => (c.1, i))
     let t := (F.copies.flatMap starts).foldl (fun u p => u.slotStart p.1 p.2) s
     exec (.frameSlotStart n) s = .next { t with frame := { t.frame with
       slotTaken := t.frame.slotTaken.filter (fun p => p.1 != n || decide (now < p.2)) } }) ∧
    (let met (x : CopyElem) : Bool := q.clr.cut.inGranule g.pa x || q.reaches now x
     let bytes := s.mem.rawBytes g.pa 4096
     let taken (u : State) (h : Granule) : State := u.setCopy id { q with grans := q.grans.set j h }
     let half := q.clr.cut.tHalf
     let store (u : State) (p : Nat × CopyElem) : State :=
       if p.2.pa / 4096 * 4096 = g.pa then
         u.frameWrite p.2.pa (putCode half p.2.odd (q.storeCode u p.1 p.2).1 (u.mem.rawBytes p.2.pa (spanOf half)))
       else u
     tget F.copies id = some q → q.grans[j]? = some g →
       (∀ x, q.broken s met = some x → faulted (s.slotStart id j) x) ∧
       (q.broken s met = none → g.write = true →
         (s.slotStart id j).mem = (((List.range q.elems.length).zip q.elems).foldl store s).mem) ∧
       (q.broken s met = none → g.write = false →
         (s.eccAt g.pa = none → s.slotStart id j = taken s { g with taken := true, bytes := bytes }) ∧
         (∀ i, s.eccAt g.pa = some (0, i) → (tget (s.slotStart id j).frame.copies id).bind (fun p => p.grans[j]?) =
           some { g with taken := true, bytes := bytes, late := true }))) ∧
    (let cut := q.clr.cut
     let bad (x : CopyElem) : Option (Nat × Nat) := s.elemBad cut q.elems x
     let use : Use := if cut.dir = 0 then .read else if cut.scaled x.leaf then .both else .write
     let reached : Prop := ∃ l, s.pinnedLeaf x.va = some l ∧ l.allows use true = true
     let wrong : Prop := cut.mode ≠ 0 ∧ x.leaf.typed = true ∧ (x.leaf.fmt = 0x13 ∨ fmtWidth x.leaf.fmt ≠ fmtWidth cut.elt)
     let spoilt (h : Granule) : Bool := !h.write && starts h && cut.inGranule h.pa x && (s.eccAt h.pa).any (fun e => e.1 == 1)
     (∀ p, q.broken s p = none ↔ ∀ y, y ∈ q.elems → p y = true → q.meets s y = none) ∧
     (∀ p zs f, q.elems = zs ++ x :: es → (∀ y, y ∈ zs → p y = true → q.meets s y = none) → p x = true → q.meets s x = some f →
       q.broken s p = some (x, f)) ∧
     (∀ f, bad x = some f → q.meets s x = some (f.1, f.2, x.va)) ∧
     (bad x = none → ∀ zs hs, q.grans = zs ++ g :: hs → (∀ h, h ∈ zs → spoilt h = false) → spoilt g = true →
       q.meets s x = some (cEcc, stackOf g.pa, g.pa)) ∧
     (bad x = none → (∀ h, h ∈ q.grans → spoilt h = false) → q.meets s x = none) ∧
     (q.reaches now x = true ↔ (∃ h, h ∈ q.grans ∧ starts h = true ∧ cut.inGranule h.pa x = true) ∨
       (cut.dir ≠ 0 ∧ isHbm x.pa = false ∧ q.due ≤ now ∧ q.counted = false)) ∧
     (cut.inGranule g.pa x = true ↔ x.pa / 4096 * 4096 = g.pa ∨ (cut.scaled x.leaf = true ∧ scalePa x.leaf x.pa / 4096 * 4096 = g.pa)) ∧
     (¬reached → bad x = some (cTranslation, 0)) ∧ (reached → wrong → bad x = some (cShapeFormat, 8)) ∧
     (reached → ¬wrong → bad x = none ∨ (cut.mode ≠ 0 ∧ bad x = some (cShapeAlign, 8)))) ∧
    (let cut := q.clr.cut
     let th := if cut.red ≠ 0 ∧ cut.dir = 1 then 8 else fmtWidth cut.elt / 4
     let dh := if cut.mode ≠ 0 ∨ (cut.red ≠ 0 ∧ cut.dir = 0) then 8 else fmtWidth cut.elt / 4
     let scale (x : CopyElem) : Nat := if cut.scaled x.leaf then leNat (q.sample (scalePa x.leaf x.pa) 1) else 127
     let loaded (i : Nat) : Option (Nat × Nat) := match q.elems.find? (fun x => x.idx == i) with
       | some x => some (cut.loadValue s x.leaf (codeOf th x.odd (q.sample x.pa (spanOf th))) (scale x))
       | none => if cut.red = 0 then some (cut.fillValue, 0) else none
     let put (r i v : Nat) : EndWrite := ⟨2, q.accepted, q.bench, 0, sramPa r (cut.da i),
       if cut.red = 0 then .elem dh (cut.da2 i % 2) v else .reduce cut.red (redSource cut.red v)⟩
     let own (p : Nat × CopyElem) : Option EndWrite := if isHbm p.2.pa then none
       else some ⟨2, q.accepted, q.bench, 0, p.2.pa, .elem th p.2.odd
         (cut.storeValue s p.2.leaf (q.dense.getD p.1 0) (scale p.2) (drawOf s.frameSeed q.draw p.2.idx)).1⟩
     (q.landLoad s).1.frame.ends = F.ends ++ (cut.receivers q.bench).flatMap (fun r =>
       (List.range cut.count).filterMap (fun i => (loaded i).map (fun v => put r i v.1))) ∧
     (q.landLoad s).1.mem = s.mem ∧
     (q.landStore s).1.frame.ends = F.ends ++ ((List.range q.elems.length).zip q.elems).filterMap own ∧
     (q.landStore s).1.mem = s.mem ∧
     (∀ pa m i, i < m → (q.sample pa m)[i]? = some (match q.grans.find? (fun h => !h.write && decide (h.pa ≤ pa + i) &&
         decide (pa + i < h.pa + 4096)) with
       | some h => h.bytes.getD (pa + i - h.pa) 0
       | none => ((q.src.find? (fun p => p.1 == pa + i)).map (·.2)).getD 0))) ∧
    (∀ w : EndWrite, w.cls = 2 → F.ends = [w] → F.subs = [] → F.advances = [] →
      let old := s.mem.rawBytes w.pa
      let bytes : List Byte := match w.op with
        | .bytes bs => bs
        | .elem half odd v => putCode half odd v (old (spanOf half))
        | .reduce red v => leBytes 4 (redStep red (leNat (old 4)) v).1
      s.finishWrites.mem.cells = s.mem.cells.writeBytes w.pa bytes ∧
      (∀ off m, s.sramBytes b off m = ({ s.mem with cells := s.mem.cells.writeBytes w.pa bytes }).rawBytes (sramPa b off) m)) ∧
    (let r := if q.clr.cut.dir = 0 then q.landLoad s else q.landStore s
     let gone := q.broken s (fun x => !isHbm x.pa || q.reaches now x)
     tget F.copies id = some q → q.bench = b →
     (∀ x, q.clr.cut.dir ≠ 0 → gone = some x → ∃ t, exec (.copyLanding b id) s = .next t ∧ faulted t x) ∧
     (q.clr.cut.dir = 0 ∨ gone = none → exec (.copyLanding b id) s =
       .next (((q.notices r.1).setCopy id { q with flags := r.2, counted := true }).retireCopy id))) ∧
    (tget F.copies id = some q → q.bench = b → q.grans[n]? = some g → ∃ t, exec (.eccRereadComplete b id n) s = .next t ∧
      tget t.frame.copies id = some { q with grans := q.grans.set n { g with late := false } } ∧ t.mem = s.mem ∧
      t.frame.benches = F.benches) ∧
    (tget F.channels ch = some c →
      (∀ d, exec (.channelEntryLanding ch (some (d, v))) s = .next { s with frame := { F with
        channels := tset F.channels ch { c with inbound := c.inbound ++ [(d, BitVec.ofNat 1024 (v % 2 ^ c.width))] }
        lateLinks := F.lateLinks.filter (fun l => l != (ch, d)) } }) ∧
      (∀ d w, c.inbound = [(d, w)] → c.flying = [] → d ≤ now → c.xpkg = true → c.landed.length < c.depth → ∃ t,
        exec (.channelEntryLanding ch none) s = .next t ∧
          tget t.frame.channels ch = some { c with inbound := [], landed := c.landed ++ [(now, w)] }) ∧
      (∀ d i w, c.flying = [(d, i, w)] → c.inbound = [] → d ≤ now → c.xpkg = false → c.landed.length < c.depth → ∃ t,
        exec (.channelEntryLanding ch none) s = .next t ∧
          tget t.frame.channels ch = some { c with flying := [], landed := c.landed ++ [(now, w)] }) ∧
      (∀ d i w, c.flying = [(d, i, w)] → c.inbound = [] → d ≤ now → c.xpkg = false → c.depth ≤ c.landed.length → ∃ t,
        exec (.channelEntryLanding ch none) s = .next t ∧ t.frame.faults = F.faults ++ [⟨cChFull, ch, 0, 0, 1, c.cons, 0⟩])) ∧
    (let j := k.jig
     let i := j.iter
     let made := { j with iter := i + 1, state := if j.total ≤ i + 1 then .loaded else .run }
     let t := { s.setBench b { k with jig := made } with ctl := { s.ctl with group := 0, ext := none } }
     j.state = .run → k.tick = j.start + 1 + i * j.per →
       (j.mode ≠ 0 → exec (.jigIteration b) s = .next (((t.modBench b (fun x =>
         (x.wa 30 (BitVec.ofNat 64 (j.sAt i))).wa 31 (BitVec.ofNat 64 (j.dAt i)))).push [.template b]))) ∧
       (∀ u, j.mode = 0 → t.acceptCopy b (j.template (j.sAt i) (j.dAt i)) false j.addr (j.anchor + j.due + i * j.per) none = .ok u →
         exec (.jigIteration b) s = retires u))

/-! ### Launches and queues -/

/-- R124 to R128, R165, R166, R350, R378, R382, R383, R409: a frame record is read at its queue's head and set up, or refused, and an
uncorrectable error that the reads of the record, of its ASID entry and of what it names meet ends it; a launch
whose conditions hold completes with its status (a weave launch that ends before its pre-emption does reports first that the PREEMPT found
nothing: the model's reading, log 49); a pause parks it; a weave record becomes ready, ages and outlasts its deferral;
a role halts and a stopped gang is saved. A launch's end waits for room for its entry (R412); a frame launch's results still in
flight land, and the registers of its benches stay (R157).
R111, R113, R126, R127: a dispatch step takes the ready, undeferred gangs of its die in the order of priority, readiness, queue and gang
index (then the queue's die and the record: the model's choice, log 73), and places each on the lowest-numbered cluster where it
fits that is not reserved for another, in that cluster's lowest free cores, each with a control context that enters as by a jump (R14) at
its role's entry, whose bits [1:0] are dropped: the model's choice (log 72). A step of
both dies goes down the one order; a record's gangs that both could place fall to die 0 and die 1 in turn. -/
def Obligations.LaunchEvents : Prop :=
  ∀ (s : State) (q save p id gang role die cl : Nat) (l : FrameLaunch) (w : Launch) (g : Gang) (bt : Built) (a : Candidate)
      (first : Bool) (met : List Nat),
    let F := s.frame
    let k := s.queue q
    let room (j : Queue) (n : Nat) : Prop := idxSub j.ctail j.chead + j.completions.length + n ≤ 2 ^ j.logn
    let bs := s.recordBytes q k.head
    let r := FrameRecord.ofBytes bs
    let t := s.setQueue q { k with head := (k.head + 1) % 2 ^ 32 }
    (s.nextFrame = some q →
      let at_ := s.recordAddr q k.head
      let entry := s.host.asidtb.toNat + 8 * k.asid
      let y0 := t.eccCorrect at_ 128
      let y := y0.eccCorrect entry 8
      (s.recordBad q k.head = true → exec (.frameLaunchSetup q) s = .next (t.eccComplete q k.head at_)) ∧
      (s.recordBad q k.head = false →
        (r.legal bs = true → s.eccBad entry 8 = false → s.asidValid k.asid = true → (r.align = true → s.aligned = true) →
          let z := y.corrects met
          ((s.buildFrame q k.asid k.head r).outcome = (.ok bt, met) → exec (.frameLaunchSetup q) s = .next ({ z with
            frame := { z.frame.ended true with
              benches := portsOnly z.frame.benches, launch := some bt.launch, pending := true, pinned := bt.pinned
              channels := (List.range bt.channels.length).zip bt.channels } }.armBenches bt.launch.entries)) ∧
          ((s.buildFrame q k.asid k.head r).outcome = (.error none, met) →
            exec (.frameLaunchSetup q) s = .next (z.complete q 0x01 k.head [])) ∧
          (∀ pa, (s.buildFrame q k.asid k.head r).outcome = (.error (some pa), met) →
            exec (.frameLaunchSetup q) s = .next (z.eccComplete q k.head pa))) ∧
        (r.legal bs = false → exec (.frameLaunchSetup q) s = .next (y0.complete q 0x01 k.head [])) ∧
        (r.legal bs = true → s.eccBad entry 8 = true → exec (.frameLaunchSetup q) s = .next (y0.eccComplete q k.head entry)) ∧
        (r.legal bs = true → s.eccBad entry 8 = false → s.asidValid k.asid = false →
          exec (.frameLaunchSetup q) s = .next (y.complete q 0x01 k.head [])) ∧
        (r.legal bs = true → s.eccBad entry 8 = false → s.asidValid k.asid = true → r.align = true → s.aligned = false →
          exec (.frameLaunchSetup q) s = .next (y.complete q 0x07 k.head [])))) ∧
    (F.launch = some l → F.running = true → l.nframes * l.flen ≤ F.fcnt.toNat → F.benches.all (fun b => !b.2.busy) = true →
      F.openM = [] → F.latches = [] →
        (F.pauseReq = none → F.pauseAsked = none → room (s.queue l.queue) 1 →
          let z := (F.benches.map (·.1)).foldl State.landRest s
          exec .frameLaunchComplete s = .next (({ (z.setQueue l.queue { z.queue l.queue with
              completions := (z.queue l.queue).completions ++ [(⟨0x00, l.index, [], true⟩ : Completion)] }) with
            frame := z.frame.ended false }).signal l.sctr (BitVec.ofNat 64 l.siginc)) ∧
          (∀ b, let x := tgetD (z.frame.ended false).benches b Bench.zero
            x.busy = false ∧ x.pend = [] ∧ x.a = (z.bench b).a ∧ x.v = (z.bench b).v ∧ x.g = (z.bench b).g ∧ x.h = (z.bench b).h ∧
            x.flags = (z.bench b).flags ∧ x.seqlen = (z.bench b).seqlen)) ∧
        ((F.pauseReq ≠ none ∨ F.pauseAsked ≠ none) → room (s.queue l.queue) 2 →
          ∃ u, exec .frameLaunchComplete s = .next u ∧ u.frame.running = false)) ∧
    (F.launch = some l → F.pauseReq = some (q, save, p) → s.pauseNow = true → ∃ u, exec .framePause s = .next u ∧
      u.frame.running = false ∧ (tget u.host.parked l.queue).isSome = true ∧
      ∃ cs, (u.queue q).completions = cs ++ [⟨0x04, l.index, [], false⟩]) ∧
    (F.launch = some l → F.pauseReq = some (q, save, p) → p + 4 * F.pausebnd.toNat < F.fcnt.toNat →
      exec .nopause s = .next { (s.complete q 0x05 l.index []) with frame := { F with pauseReq := none } }) ∧
    (tget s.weave.launches id = some w →
      (s.readyNow id w = true →
        exec (.launchRecordReady id) s = .next (s.setLaunch id { w with state := .ready, readyAt := s.ctl.now })) ∧
      (w.state ≠ .waiting → w.age < 3 → w.readyAt + 131072 * (w.age + 1) ≤ s.ctl.now →
        exec (.priorityAgeing id) s = .next (s.setLaunch id { w with age := w.age + 1 })) ∧
      (w.state ≠ .waiting → w.undeferred ≠ [0, 1] → w.readyAt + Config.deferralTicks ≤ s.ctl.now →
        exec (.deferralExpiry id) s = .next (s.setLaunch id { w with undeferred := [0, 1] })) ∧
      (let t := ((s.disarm id).dropLaunch id w).signal w.sctr (BitVec.ofNat 64 w.siginc)
       w.ended.length = w.ngang → w.faults = [] → s.requestsOpen id = false →
        (w.state ≠ .preempting → room (s.queue w.queue) 1 →
          exec (.weaveLaunchComplete id) s = .next (t.complete w.queue 0x00 w.index [])) ∧
        (w.state = .preempting → room (s.queue w.queue) 2 → exec (.weaveLaunchComplete id) s =
          .next ((t.complete w.queue 0x09 (t.queue w.queue).head []).complete w.queue 0x00 w.index [])))) ∧
    (let t := s.dropDeferred die
     let both := (s.dropDeferred 0).dropDeferred 1
     (die = 0 ∧ s.dispatchable 1 = false ∨ die = 1 →
       exec (.dispatchStep die) s = .next (t.considerAll die true (t.candidates die))) ∧
     let l0 := both.candidates 0
     let l1 := both.candidates 1
     (s.dispatchable 1 = true → exec (.dispatchStep 0) s = .next (both.considerBoth l0 l1 [0, 1] []
       ((l1.filter (fun c => !l0.contains c)).foldl (fun m c => insertCandidate c m) l0))) ∧
     (∀ (l0 l1 cs : List Candidate) (new turn : List Nat),
       let z := s.considerBoth l0 l1 new turn (a :: cs)
       (s.gone a = true → z = s.considerBoth l0 l1 new turn cs) ∧
       (s.gone a = false → a ∈ l0 → a ∉ l1 →
         z = (s.consider 0 (new.contains 0) a).considerBoth l0 l1 (new.erase 0) turn cs) ∧
       (s.gone a = false → a ∈ l1 → a ∉ l0 →
         z = (s.consider 1 (new.contains 1) a).considerBoth l0 l1 (new.erase 1) turn cs) ∧
       (let d := if a.launch ∈ turn then 1 else 0
        let u := s.consider d (new.contains d) a
        s.gone a = false → a ∈ l0 → a ∈ l1 → u.gone a = true → z = u.considerBoth l0 l1 (new.erase d)
          (if d = 0 then a.launch :: turn else turn.filter (fun i => i != a.launch)) cs))) ∧
    (let key (c : Candidate) : List Nat := [3 - c.prio, c.readyAt, c.queue, c.idx, c.die, c.launch]
     (s.candidates die).Pairwise (fun c d => key c ≤ key d) ∧
     ∀ c, c ∈ s.candidates die ↔ ∃ y, (c.launch, y) ∈ s.weave.launches ∧ y.waits = true ∧ bitOf y.dies die = true ∧
       s.deferred die y = false ∧ c.idx < y.ngang ∧ c.idx ∉ y.placed ∧ (y.det = true → dieOfCluster (y.home c.idx) = die) ∧
       key c = [3 - min 3 (y.prio + y.age), y.readyAt, (if y.queue < 128 then y.queue % 64 else y.queue - 128), c.idx, y.queue / 64,
         c.launch] ∧ c.prio ≤ 3) ∧
    (let tries (i : Nat) : Prop := if w.det then i = w.home a.idx else 64 * die ≤ i ∧ i < 64 * die + 64
     let open_ (i : Nat) : Prop := tries i ∧ s.fits w i = true ∧ ∀ x y z, (s.dispatcher die).reserved = some (x, y, z) →
       x = a.launch ∧ y = a.idx ∨ z ≠ i
     tget s.weave.launches a.launch = some w → a.idx ∉ w.placed → open_ cl → (∀ i, i < cl → ¬open_ i) →
       let u := s.consider die first a
       ∃ h, tget u.weave.gangs s.weave.nextId = some h ∧ h.launch = a.launch ∧ h.idx = a.idx ∧ h.cluster = cl ∧
         h.cores = (s.freeCores cl).take w.desc.entries.length ∧ (w.savedGangs.contains a.idx = false →
           h.pipes = w.desc.pipes ∧ h.bars = [] ∧ ∀ r c, h.cores[r]? = some c → u.ctx? (16 * c) = some { Ctx.zero with
             xs := (List.range 8).foldl (fun m i => tset m (10 + i) (BitVec.ofNat 64 (w.args.getD i 0))) []
             pc := BitVec.ofNat 64 (w.desc.entries.getD r 0 / 4 * 4), jumped := true, status := w.status, seed := BitVec.ofNat 64 w.seed
             asid := BitVec.ofNat 64 w.asid, gang := s.weave.nextId, role := r })) ∧
    (die < 2 → ∃ u, exec (.dispatchStep die) s = .next u ∧ u.mem.cells = s.mem.cells ∧ u.eng = s.eng ∧
      (F.flagEcc = [] → u.frame = F ∧ u.host = s.host) ∧ (∀ i gg, tget s.weave.gangs i = some gg → i < s.weave.nextId → tget u.weave.gangs i = some gg)) ∧
    (tget s.weave.gangs gang = some g →
      (s.haltsNow gang g role = true → ∃ u, exec (.roleHalt gang role) s = .next u ∧
        ∀ c, c ∈ s.roleCtxs gang role → (u.ctx c).halted = true ∧ (u.ctx c).xs = (s.ctx c).xs ∧ (u.ctx c).pc = (s.ctx c).pc) ∧
      (tget s.weave.launches g.launch = some w → s.savesNow gang g = true → ∃ u, exec (.gangSave gang) s = .next u ∧
        tget u.weave.gangs gang = none ∧ (∀ c x, u.ctx? c = some x → x.gang ≠ gang) ∧
        ∃ v, tget u.weave.launches g.launch = some v ∧ v.savedGangs = w.savedGangs ++ [g.idx]))

/-- R374, R378, R400, R408, R411 to R413: outside boot hold a doorbell moves TAIL and a weave queue's records are read; an enabled queue's configuration
does not change; an arming that finds unread entries sends its message; PREEMPT, RESUME and the destructions act on the queue's
head record or report that there is none; an entry is written where the ring has room, and opens the queue's window. What DESTROY counts as
work and its entry's fields are the model's reading (log 22); so is, in a domain, that each member saves where its own host asked, that
P is the FCNT at which the request arose, told with it, that the leader's tick is any at least HZ ahead (alone in its domain the first
at which it rests), that the leader keeps a request that comes before its launch's start, and that a RESUME finds no record while another waits for the plane (log 49). -/
def Obligations.QueueEvents : Prop :=
  ∀ (s : State) (q v save f p : Nat) (c : Completion) (cs : List Completion) (l : FrameLaunch),
    let k := s.queue q
    let moved := s.setQueue q { k with tail := v % 2 ^ 32 }
    let cfg := BitVec.ofNat 64 (fld v 63 1 * 2 ^ 63 + fld v 36 16 * 2 ^ 36 + fld v 0 16)
    let none_ (u : State) : State := u.complete q 0x09 k.head []
    let port_ := if q < 128 then q % 64 / 32 else (q - 128) / 2
    (s.bootHold = false →
      (idxSub v k.head ≤ 2 ^ k.logn →
        (k.enabled = false ∨ 128 ≤ q → exec (.queueDoorbell q v) s = .next moved) ∧
        (k.enabled = true → q < 128 → exec (.queueDoorbell q v) s = .next (moved.readRecords q (idxSub v k.head)))) ∧
      (2 ^ k.logn < idxSub v k.head → exec (.queueDoorbell q v) s = .next s) ∧
      (k.enabled = true → exec (.queueEnable q v) s = .next { s with host := { s.host with busyReply := true } }) ∧
      (k.enabled = false → v.testBit 63 = true →
        exec (.queueEnable q v) s = .next (s.setQueue q { k with cfg := cfg, head := k.tail, chead := k.tail, ctail := k.tail })) ∧
      (k.enabled = false → v.testBit 63 = false → exec (.queueEnable q v) s = .next (s.setQueue q { k with cfg := cfg })) ∧
      (k.chead = k.ctail → exec (.queueArm q v) s = .next (s.setQueue q { k with ivec := v % 2048, armed := true })) ∧
      (k.chead ≠ k.ctail → ∃ t, exec (.queueArm q v) s = .next t ∧ t.host.msi = (port_, v % 2048) :: s.host.msi ∧ (t.queue q).armed = false) ∧
      exec (.completionHeadWrite q v) s = .next (s.setQueue q { k with chead := v % 2 ^ 32 }) ∧
      (q < 128 → k.records = [] → exec (.preempt q save) s = .next (none_ s) ∧ exec (.resume q save) s = .next (none_ s)) ∧
      (∀ id rest w, q < 128 → k.records = id :: rest → tget s.weave.launches id = some w →
        ((w.state = .ready ∨ w.state = .running) → ∃ t, exec (.preempt q save) s = .next t ∧
          ∃ u, tget t.weave.launches id = some u ∧ u.save = some save ∧ (u.state = .preempting ∨ u.state = .preempted)) ∧
        (w.state = .preempted → exec (.resume q save) s =
          .next ((s.setLaunch id { w with state := .running, save := some save }).complete q 0x08 w.index []))) ∧
      (s.frame.launch = some l → l.queue = q → 128 ≤ q → s.frame.running = true → s.frame.pauseReq = none → s.frame.pauseAsked = none →
        (s.frameAligned = false → exec (.preempt q save) s = .next { s with frame := { s.frame with
          pauseReq := some (q, save, s.frame.fcnt.toNat), pauseFrom := s.frame.fcnt.toNat } }) ∧
        (s.frameAligned = true → s.isLeader = false → exec (.preempt q save) s =
          .next ({ s with frame := { s.frame with pauseAsked := some (q, save) } }.send (.preempt s.frame.fcnt.toNat save))) ∧
        (let n := s.frame.fcnt.toNat
         let z := n + s.horizon + Config.pauseChoice s.ctl.free
         let set (u : State) (at_ : Nat) : State :=
           { u with frame := { u.frame with pauseReq := some (q, save, n), pauseFrom := at_, pauseAsked := none } }
         s.frameAligned = true → s.isLeader = true →
           (s.members = 1 → exec (.preempt q save) s = .next (set s (n + s.horizon))) ∧
           (s.members ≠ 1 → exec (.preempt q save) s =
             .next ((set { s with ctl := { s.ctl with free := s.ctl.free + 1 } } z).send (.pauseAt n z)) ∧
             (s.pauseNow = true → n = s.frame.pauseFrom)))) ∧
      (s.hasWork q = true → exec (.destroy q) s = .next { (s.complete q 0x06 k.head []) with
        host := { (s.complete q 0x06 k.head []).host with busyReply := true } }) ∧
      (s.hasWork q = false → ∃ t, exec (.destroy q) s = .next t ∧ (t.queue q).enabled = false ∧
        ((q < 128 → k.records = []) → (128 ≤ q → tget s.host.parked q = none ∧ k.held = none) →
          (t.queue q).completions = k.completions ++ [⟨0x00, k.head, [], false⟩] ∧ t.mem = s.mem ∧ t.weave = s.weave ∧
            t.frame = s.frame)) ∧
      (∃ t, exec (.destroyForce q) s = .next t ∧ (t.queue q).enabled = false)) ∧
    (k.completions = c :: cs → k.room = true → ∃ t, exec (.completionEntryWrite q) s = .next t ∧
      t.mem = s.mem.putBytes false (k.cbase.toNat + 128 * (k.ctail % 2 ^ k.logn)) (c.bytes q s.frame.fcnt.toNat) ∧
      (t.queue q).completions = cs ∧ (t.queue q).ctail = (k.ctail + 1) % 2 ^ 32 ∧
      (k.armed = false → (t.queue q).window = k.window ∧ t.host.msi = s.host.msi) ∧
      (k.armed = true → k.window = false → fld k.cfg.toNat 0 16 ≠ 0 → (t.queue q).window = true ∧ t.host.msi = s.host.msi) ∧
      (k.armed = true → k.window = false → fld k.cfg.toNat 0 16 = 0 → t.host.msi = (port_, k.ivec) :: s.host.msi ∧ (t.queue q).armed = false)) ∧
    (k.window = true → ∃ t, exec (.interruptWindowClose q) s = .next t ∧ t.host.msi = (port_, k.ivec) :: s.host.msi ∧
      (t.queue q).armed = false ∧ (t.queue q).window = false ∧ t.mem = s.mem) ∧
    (s.frame.launch = some l → s.alignedRuns = true →
      exec (.preemptForward p save (some f)) s = .next { s with frame := { s.frame with
        pauseReq := some (l.queue, (match s.frame.pauseAsked with
          | some e => e.2
          | none => save), p), pauseFrom := f, pauseAsked := none } }) ∧
    (s.frame.running = false → s.isLeader = true → s.frame.pending = true → s.frameAligned = true →
      exec (.preemptForward p save none) s = .next { s with host := { s.host with asked := some save } }) ∧
    (s.bootHold = false → 128 ≤ q → (tget s.host.resuming q).isSome = true → exec (.resume q save) s = .next (none_ s))

/-! ### Fabric, host and device -/

/-- R260, R269, R297, R343, R344, R347 to R349, R402, R404, R418: an answer completes its ticket; a request of another package is
performed, under user permission (log 39), and answered, an RMA.AMO at tensor SRAM in its turn at the bench's weave port; a packet that meets no cached context is turned away, and the fetch of that context begins (its time is a free value, log 77); a SEND is
matched with the oldest armed request of its tag, which goes after the earlier stores of its role's core, or is retried within its
budget; a command to open or close a connection keeps BUSY until it ends (RES meanwhile keeps its value: the model's choice, log 77),
and answers as its row says (that of several conditions RES names 5 before 1 before 4: the model's choice, log 81); connections fail and are fetched, where an uncorrectable error fails the one whose context it meets (the model's choice, log 25); a switch adds contributions and sends the sum with the last; a result ends a group's wait. -/
def Obligations.FabricEvents : Prop :=
  ∀ (s : State) (id conn tag asid gr gid sq st : Nat) (data : List Nat) (r : RmaReq) (k : Conn) (ps : List Part) (e : SwitchEntry)
      (c : Contribution) (g : Group) (rq : RemoteRequest) (v : State) (gg : Gang) (core : Nat) (cmd : ConnCommand),
    let away (n : Nat) : State := (match tget s.eng.conns n with
      | some z => if z.fetchAt.isSome = true then s
        else s.setConn n { z with fetchAt := some (s.ctl.now + Config.contextFetchDelay s.ctl.now n) }
      | none => s).send (.retryLater n)
    let doing (opens : Bool) : State := { s with host := { s.host with
      ccstat := setFld s.host.ccstat 63 1 1
      ccCmd := some ⟨opens, asid, conn, s.host.ccdesc.readBytes 0 256, s.ctl.now + Config.connectionDelay s.ctl.now conn⟩ } }
    (tget s.eng.reqs id = some r → r.status = none → r.armed = none → r.op ≠ 4 →
      let t := s.useConn r.conn
      ((r.op = 0 ∨ r.op = 3 ∨ s.connCached r.conn = true) → st ≠ 0 → exec (.rmaCompletion id st data) s = .next (t.completeReq id st)) ∧
      ((r.op = 0 ∨ r.op = 3) → exec (.rmaCompletion id 0 data) s = .next (t.completeReq id 0)) ∧
      ((r.op = 1 ∨ r.op = 2) → s.connCached r.conn = true → data.length = r.len → t.reach r.asid r.user .write r.laddr r.len = .ok ps →
        exec (.rmaCompletion id 0 data) s =
          .next (((t.spanWalks r.asid r.laddr ps).spanPut ps (data.map (BitVec.ofNat 8))).completeReq id 0)) ∧
      ((r.op = 1 ∨ r.op = 2 ∨ r.op = 5) → s.connCached r.conn = false →
        exec (.rmaCompletion id st data) s = .next (away r.conn))) ∧
    (tget s.eng.conns rq.conn = some k →
      let t := s.useConn rq.conn
      (k.cached = false → exec (.rmaIncomingRequest rq) s = .next (away rq.conn)) ∧
      (k.cached = true → rq.op = 0 → t.reach k.asid true .write rq.addr rq.data.length = .ok ps → exec (.rmaIncomingRequest rq) s =
        .next (((t.spanWalks k.asid rq.addr ps).spanPut ps (rq.data.map (BitVec.ofNat 8))).send (.answer rq.conn 0 []))) ∧
      (k.cached = true → rq.op = 1 → t.reach k.asid true .read rq.addr rq.len = .ok ps → t.spanGood ps = .ok () →
        exec (.rmaIncomingRequest rq) s =
          .next ((t.spanMeet k.asid rq.addr ps).send (.answer rq.conn 0 ((t.spanRead ps).map (·.toNat))))) ∧
      (∀ (u : State) old new, rq.addr % 8 = 0 → u.reach k.asid true .both rq.addr 8 = .ok ps →
        (∀ z, z ∈ ps → atomicTarget z.pa rq.aop = true) → u.spanGood ps = .ok () →
        old = BitVec.ofNat 64 (leNat ((u.spanMeet k.asid rq.addr ps).spanRead ps)) →
        atomicNew rq.aop old (BitVec.ofNat 64 rq.opnd1) (BitVec.ofNat 64 rq.opnd2) = new →
          let z := u.spanMeet k.asid rq.addr ps
          let w := match new, ps with
            | some x, y :: _ => { z with mem := z.mem.putBytes (!y.leaf.nc) y.pa (leBytes 8 x.toNat) }
            | _, _ => z
          u.remoteAmo k.asid rq = .ok (old, w)) ∧
      (∀ (u : State) er, rq.addr % 8 = 0 → u.reach k.asid true .both rq.addr 8 = .error er → u.remoteAmo k.asid rq = .error er) ∧
      (let atPort (b : Nat) : Prop := rq.addr % 8 = 0 ∧ ∃ y ys off, t.span k.asid true .both rq.addr 8 = .ok (y :: ys) ∧
         regionOf y.pa = .sram b off
       k.cached = true → rq.op = 2 →
        (∀ b, atPort b → exec (.rmaIncomingRequest rq) s =
          .next (t.setBench b { t.bench b with port := (t.bench b).port ++ [.amo k.asid rq] })) ∧
        ((∀ b, ¬atPort b) →
          (∀ old w, t.remoteAmo k.asid rq = .ok (old, w) →
            exec (.rmaIncomingRequest rq) s = .next (w.send (.answer rq.conn 0 ((leBytes 8 old.toNat).map (·.toNat))))) ∧
          (∀ er, t.remoteAmo k.asid rq = .error er → exec (.rmaIncomingRequest rq) s = .next (t.send (.answer rq.conn 1 []))) ∧
          (rq.addr % 8 ≠ 0 → exec (.rmaIncomingRequest rq) s = .next (t.send (.answer rq.conn 1 []))))) ∧
      (∀ er, k.cached = true → rq.op = 0 → t.reach k.asid true .write rq.addr rq.data.length = .error er →
        exec (.rmaIncomingRequest rq) s = .next (t.send (.answer rq.conn 1 []))) ∧
      (∀ er, k.cached = true → rq.op = 1 → t.reach k.asid true .read rq.addr rq.len = .error er →
        exec (.rmaIncomingRequest rq) s = .next (t.send (.answer rq.conn 1 [])))) ∧
    (tget s.eng.conns conn = some k → k.cached = true →
      let t := s.useConn conn
      (t.eng.reqs.find? (fun z => z.2.conn == conn && z.2.armed == some tag) = none →
        exec (.rmaSendMatch conn tag data) s = .next (t.send (.sendAnswer conn tag false))) ∧
      (t.eng.reqs.find? (fun z => z.2.conn == conn && z.2.armed == some tag) = some (id, r) → r.op = 4 →
        exec (.rmaSendMatch conn tag data) s = .next ((t.send (.sendAnswer conn tag true)).placeReq id r (data.take r.len)
          (if r.len < data.length then 3 else 0))) ∧
      (t.eng.reqs.find? (fun z => z.2.conn == conn && z.2.armed == some tag) = some (id, r) → r.op ≠ 4 →
        t.weave.gangs.find? (fun z => z.2.launch == r.launch && z.2.idx == r.gidx) = some (gr, gg) → gg.cores[r.role]? = some core →
        ((if r.op = 1 then t.send (.sendAnswer conn tag true) else (t.send (.sendAnswer conn tag true)).drainAll core).startReq id =
          .ok v → exec (.rmaSendMatch conn tag data) s = .next v))) ∧
    (tget s.eng.conns conn = some k → k.cached = false → exec (.rmaSendMatch conn tag data) s = .next (away conn)) ∧
    (tget s.eng.reqs id = some r → r.op = 3 → r.status = none → r.armed = none → tget s.eng.conns r.conn = some k →
      (k.retry ≤ r.retries → exec (.rmaSendRetry id) s = .next (s.completeReq id 2)) ∧
      (r.retries < k.retry → (s.setReq id { r with retries := r.retries + 1 }).startReq id = .ok v →
        exec (.rmaSendRetry id) s = .next v)) ∧
    (tget s.eng.conns conn = some k →
      (k.cached = false → exec (.connectionContextFetch conn false) s = .next (s.endConn conn)) ∧
      (let at_ := s.spillAddr conn
       k.cached = false →
        (s.eccBad at_ 256 = false → ∃ t, exec (.connectionContextFetch conn true) s = .next t ∧ t.connCached conn = true) ∧
        (s.eccBad at_ 256 = true →
          exec (.connectionContextFetch conn true) s = .next ((s.endConn conn).life (0x10C + stackOf at_) 1))) ∧
      exec (.link conn) s = .next (s.endConn conn)) ∧
    (s.bootHold = false → s.host.ccCmd = none → exec (.connectionOpen asid conn) s = .next (doing true) ∧
      exec (.connectionClose asid conn) s = .next (doing false)) ∧
    (s.bootHold = true ∨ s.host.ccCmd.isSome = true → exec (.connectionOpen asid conn) s = .next s ∧
      exec (.connectionClose asid conn) s = .next s) ∧
    (s.host.ccCmd = some cmd →
      let z : State := { s with host := { s.host with ccCmd := none } }
      let ends (res : Nat) : State := { z with host := { z.host with ccstat := BitVec.ofNat 64 res } }
      let conn_ := tget s.eng.conns cmd.conn
      let w := leNat ((cmd.desc.drop 0x18).take 8)
      let formed : Prop := fld w 48 8 ≠ 0 ∧ 1024 ≤ fld w 32 16 ∧ fld w 32 16 ≤ 9216 ∧ ∀ x, x ∈ cmd.desc.drop 0x20 → x = 0
      (s.ctl.now < cmd.due → s.ccFinish = s) ∧
      (cmd.due ≤ s.ctl.now →
        (cmd.opens = false → (conn_ = none → s.ccFinish = ends 2) ∧
          (∀ o, conn_ = some o → (o.asid ≠ cmd.asid → s.ccFinish = ends 3) ∧
            (o.asid = cmd.asid → s.ccFinish.host.ccstat = 0 ∧ tget s.ccFinish.eng.conns cmd.conn = none))) ∧
        (cmd.opens = true → (s.host.ccspill = 0 → s.ccFinish = ends 5) ∧
          (s.host.ccspill ≠ 0 → conn_.isSome = true → s.ccFinish = ends 1) ∧
          (s.host.ccspill ≠ 0 → conn_ = none → ¬formed → s.ccFinish = ends 4) ∧
          (s.host.ccspill ≠ 0 → conn_ = none → formed → s.ccFinish.host.ccstat = 0 ∧
            ∃ n, tget s.ccFinish.eng.conns cmd.conn = some ⟨cmd.asid, cmd.desc, true, n, none⟩)))) ∧
    (let key := c.gid * 2 ^ 32 + c.seq
     let part : Nat × List W32 := (c.midx, c.vals.map (BitVec.ofNat 32))
     tget s.eng.switch key = some e →
       (e.spoiled = true → exec (.switchContribution c) s = .next (s.send (.collective c.gid c.seq 2 [c.midx] []))) ∧
       (e.spoiled = false → e.agrees c = true → e.parts.length + 1 < e.nmem → exec (.switchContribution c) s =
         .next (s.setSwitch c.gid c.seq { e with parts := e.parts ++ [part] })) ∧
       (e.spoiled = false → e.agrees c = true → e.parts.length + 1 = e.nmem → exec (.switchContribution c) s =
         .next ((s.dropSwitch c.gid c.seq).send (.collective c.gid c.seq 0 ((e.parts ++ [part]).map (·.1))
           ({ e with parts := e.parts ++ [part] } : SwitchEntry).sum)))) ∧
    (tget s.eng.switch (gid * 2 ^ 32 + sq) = some e → e.spoiled = false → e.deadline ≤ s.ctl.now → exec (.switchGroupTimeout gid sq) s =
      .next ((s.dropSwitch gid sq).send (.collective gid sq 1 (List.range e.nmem) []))) ∧
    (s.group gr = g → g.asid.isSome = true → g.state = 1 → g.gid = gid → g.sent = sq →
      exec (.splResultArrival gr gid sq data) s =
        .next ((s.putSum g.pas data).setGroup gr { g with state := 2, vals := [], pas := [] }) ∧
      exec (.groupIncomplete gr gid sq) s = .next (s.setGroup gr { g with state := 3, vals := [], pas := [] }) ∧
      exec (.collectiveOrder gr gid sq) s = .next (s.faultLaunch g.launch ⟨cOrder, sq, gr, 0, 2, 0, 0⟩) ∧
      exec (.contributionResend gr) s = .next (s.send (.contribute
        ⟨g.gid, g.sent, g.nmem, g.midx, g.ty, g.ord, g.count, g.tmo, g.vals⟩)))

/-- R44, R122, R270, R385, R401, R407, R414 to R418: outside boot hold the device's registers take their writes as their rows say; a legal
boot image ends boot hold (its contents are the event's operands: log 56); a host access reaches HBM and the registers, but for the queues of
another port, and in boot hold finds the registers that are not named there as offsets without a register; power off leaves the lifetime records alone, with the counts since the last
update where the power-down is orderly (all else returns to its reset value: log 59).
R394 to R397, R400: ALIGN_GO and ALIGN_DISSOLVE leave the package's domain, unless a frame launch runs; an alignment that obeys R394
binds its ports, one that fails reports it; the leader hears ready notices; a launch starts at its start instant; a hold notice
adds its excess at M + HZ (one that comes when that FCNT has passed, at the present one: the model's choice, log 79), and a fault notice
sets the end at the least F told, of a launch that has ended by a later fault too, or of a paused one (log 49); what ALIGN_GO clears is the model's choice (log 49), and so is
what MEMBERS of 128 or more mean to it (log 75); that a DTAG's last notice settles it for all its members is the model's reading
(log 79). R401: a clock change waits, in a domain, until every member has received its request HZ ticks before (how
receipts arrive is the model's choice, log 78). -/
def Obligations.DeviceAndAlignmentEvents : Prop :=
  (∀ (s : State) (n v t w die p off : Nat) (mb : Option Nat) (b : BootImage) (a : HostAccess),
     let h := s.host
     let off0 : Prop := s.bootHold = false
     (off0 → exec (.eventCounterWrite n v) s = .next (s.signal n (BitVec.ofNat 64 v))) ∧
     (off0 → 0 < t → t < 16 → w < 34 →
       (s.tableHeld t = false → exec (.companderTableWrite t w v) s = .next (s.setKnot t w v)) ∧
       (s.tableHeld t = true → exec (.companderTableWrite t w v) s = .next { s with host := { h with busyReply := true } })) ∧
     (off0 → exec (.pcapWrite v) s = .next { s with host := { h with pcap := BitVec.ofNat 64 (max 500 (min (v % 4096) 2800)) } }) ∧
     (off0 → fld v 56 4 ≤ 6 → exec (.frameClockRequest (v, mb)) s = .next { s with host := { h with
       fclkreq := if mb.isSome = true then h.fclkreq else BitVec.ofNat 64 (2 ^ 63) ||| BitVec.ofNat 64 (v % 2 ^ 60)
       fclkGot := h.fclkGot.filter (fun e => e.1 != mb) ++
         [(mb, v % 2 ^ 60, if s.frame.running = true then some s.frame.fcnt.toNat else none)] } }) ∧
     (off0 → 6 < fld v 56 4 → exec (.frameClockRequest (v, mb)) s = .next s) ∧
     (let n := s.frame.fcnt.toNat
      let got := (h.fclkGot.filter (fun e => e.2.1 == h.fclkreq.toNat % 2 ^ 60 && e.2.2.all (fun u => decide (u + s.horizon ≤ n)))).map (·.1)
      h.fclkreq.toNat.testBit 63 = true → s.frame.running = true → n % s.frame.flen.toNat = 0 →
        fld h.fclkreq.toNat 0 56 * s.frame.flen.toNat ≤ n → (s.aligned = true → none ∈ got ∧ s.members ≤ got.length) →
          s.clockDue = true ∧ exec .frameClockChange s = .next { s with host := { h with
            fclk := fld h.fclkreq.toNat 56 4, fclkreq := setFld h.fclkreq 63 1 0, fclkGot := [] } }) ∧
     (s.clockDue = true → s.aligned = true → ∃ u, (none, h.fclkreq.toNat % 2 ^ 60, u) ∈ h.fclkGot ∧
       ∀ m, u = some m → m + s.horizon ≤ s.frame.fcnt.toNat) ∧
     (off0 → s.launchRuns = false → exec (.registerWrite 0x100 v) s =
       .next { s with host := { h with asidtb := BitVec.ofNat 64 (fld v 15 37 * 2 ^ 15) } }) ∧
     (off0 → s.launchRuns = true → exec (.registerWrite 0x100 v) s = .next { s with host := { h with busyReply := true } }) ∧
     (off0 → ∃ u, exec (.registerWrite off v) s = .next u ∧ u.mem = s.mem ∧ u.weave = s.weave ∧ u.frame = s.frame) ∧
     (die < 2 → ∃ u, exec (.ebudgetUpdate die) s = .next u ∧ (u.dispatcher die).ebudget ≤ 3 ∧ u.mem = s.mem ∧
       u.weave.ctxs = s.weave.ctxs ∧ u.frame = s.frame) ∧
     (∃ u, exec .lifetimeRecordUpdate s = .next u ∧ u.host.lifeNow = [] ∧ u.mem = s.mem ∧ u.weave = s.weave ∧ u.frame = s.frame) ∧
     (exec .powerLoss s = .next { State.reset with
       ctl := { Ctl.reset with inbox := s.ctl.inbox, free := s.ctl.free }, host := { Hst.reset with life := h.life } }) ∧
     (∃ u, exec .orderlyPowerDown s = .next u ∧ u.mem = Mem.reset ∧ u.weave = Weave.reset ∧ u.frame = Frame.reset ∧ u.eng = Eng.reset) ∧
     (s.bootHold = true → b.present = true → b.verifies = true → b.wellFormed = true → b.pkg < 2 ^ 17 → ∃ u,
       exec (.boot b) s = .next u ∧ u.host.bootstat = BitVec.ofNat 64 (2 ^ 62 + b.pkg) ∧ u.bootHold = false ∧ u.mem = s.mem ∧
         u.host.asidtb = BitVec.ofNat 64 (fld b.asidtb 15 37 * 2 ^ 15) ∧ u.host.ports = b.ports) ∧
     (s.bootHold = true → b.present = false → exec (.boot b) s = .next { s with host := { h with
       bootstat := BitVec.ofNat 64 (2 ^ 63 + 2 ^ 56) } }) ∧
     (let u : State := { s with host := { h with busyReply := false, unsupported := false } }
      off0 → regionOf a.addr = .hbm → a.addr + a.size ≤ hbmEnd →
        (a.kind = 0 → let z := u.eccCorrect a.addr a.size
          exec (.hostAccess a) s = .next { z with host := { z.host with
            reply := BitVec.ofNat 64 (leNat (s.mem.bytes a.addr a.size)) } }) ∧
        (a.kind = 1 → exec (.hostAccess a) s = .next { u with mem := s.mem.putBytes true a.addr (leBytes a.size a.value) })) ∧
     (let u : State := { s with host := { h with busyReply := false, unsupported := false } }
      let replies (x : W64) : Answer := .next { u with host := { u.host with reply := x } }
      (s.bootHold = true → regionOf a.addr = .hbm → a.addr + a.size ≤ hbmEnd →
        (a.kind = 0 → exec (.hostAccess a) s = replies 0) ∧ (a.kind ≠ 0 → exec (.hostAccess a) s = .next u)) ∧
      (∀ o, regionOf a.addr = .device o →
        (s.bootHold = true → a.kind = 0 → o ≠ 0 → (o < 0x30000 ∨ 0x40000 ≤ o) → exec (.hostAccess a) s = replies 0) ∧
        (∀ q r, off0 → queueAt o = some (q, r) → queuePort q ≠ a.port →
          exec (.hostAccess a) s = .next { u with host := { u.host with unsupported := true } }))) ∧
     exec (.ueLinkRetrain p) s = .next (s.life (0x1D0 + p) 1) ∧
     (∃ u, exec (.portRetrain p) s = .next u ∧
       fld (tgetD u.host.splport p 0).toNat 0 16 = min (fld (tgetD h.splport p 0).toNat 0 16 + 1) 0xFFFF ∧ u.mem = s.mem)) ∧
  (∀ (s : State) (m d pkg flen nfr e port f n : Nat) (answers : List (Nat × Nat × Nat)) (routes : List (List Nat))
      (ports : List AlignedPort) (l : FrameLaunch),
     let h := s.host
     let longest := (routes.map List.sum).foldl max 0
     let hz := max 256 ((longest + 32 + 63) / 64 * 64)
     let same : Prop := ∀ a, a ∈ answers → a.2.1 + 1 = s.members ∧ a.2.2 = fld h.alignctl.toNat 0 32
     let fails : State := { s with host := { h with aligning := false, alignstat := h.alignstat ||| BitVec.ofNat 64 (2 ^ 62) } }
     (s.bootHold = false → s.frameRuns = true → exec (.alignGo m d) s = .next { s with host := { h with busyReply := true } } ∧
       exec (.alignDissolve m) s = .next { s with host := { h with busyReply := true } }) ∧
     (s.bootHold = false → s.frameRuns = false →
       (∃ t, exec (.alignGo m d) s = .next t ∧ t.host.aligning = true ∧ t.aligned = false ∧
         t.host.alignctl = BitVec.ofNat 64 (m % 128 * 2 ^ 40 + d % 2 ^ 32) ∧ t.frame = s.frame ∧ t.mem = s.mem) ∧
       (∃ t, exec (.alignDissolve m) s = .next t ∧ t.host.aligning = false ∧ t.aligned = false ∧
         t.host.alignctl = BitVec.ofNat 64 (m % 128 * 2 ^ 40) ∧ t.frame = s.frame ∧ t.mem = s.mem)) ∧
     (h.aligning = true → exec .alignmentTimeout s = .next fails) ∧
     (h.aligning = true → answers.length + 1 = s.members → (answers.map (·.1)).Nodup →
       (∀ a, a ∈ answers → a.1 ≠ s.package ∧ a.1 < 2 ^ 17) → (ports.map (·.port)).Nodup →
       (∀ p, p ∈ ports → p.port ∈ h.ports ∧ p.peer < 2 ^ 17 ∧ (p.trip + 1) / 2 ≤ longest) →
         (¬same ∨ 65536 < hz → exec (.alignmentDone answers routes ports) s = .next fails) ∧
         (same → hz ≤ 65536 → ∃ t, exec (.alignmentDone answers routes ports) s = .next t ∧ t.host.aligning = false ∧
           t.aligned = true ∧ t.horizon = hz ∧ (t.leader = s.package ∨ ∃ a, a ∈ answers ∧ a.1 = t.leader) ∧ t.leader ≤ s.package ∧
           (∀ a, a ∈ answers → t.leader ≤ a.1) ∧ t.mem = s.mem ∧ t.frame = s.frame ∧
           ∀ p, p ∈ ports → let w := (tgetD t.host.splport p.port 0).toNat
             w.testBit 63 = true ∧ w.testBit 62 = true ∧ fld w 45 17 = p.peer ∧ fld w 16 24 = (p.trip + 1) / 2 + hz + 96)) ∧
     (let all := h.ready.filter (fun x => x.1 != pkg) ++ [(pkg, d, flen, nfr)]
      let same := all.filter (fun x => x.2.1 == d)
      let rest := all.filter (fun x => x.2.1 != d)
      let agree : Prop := ∀ x, x ∈ same → x.2.2 = (flen, nfr)
      let z := ({ s with host := { h with ready := rest } } : State).send (.mismatch d)
      s.isLeader = true →
        (same.length ≠ s.members → exec (.alignReadyNotice pkg d flen nfr) s = .next { s with host := { h with ready := all } }) ∧
        (same.length = s.members → agree → exec (.alignReadyNotice pkg d flen nfr) s =
          .next (({ s with host := { h with ready := rest, startIn := some s.horizon } } : State).send (.start s.horizon))) ∧
        (same.length = s.members → ¬agree →
          (s.frame.pending = false → exec (.alignReadyNotice pkg d flen nfr) s = .next z) ∧
          (s.frame.pending = true → s.frame.launch = some l → l.align = true → l.dtag = d → s.frame.pauseReq = none →
            s.frame.pauseAsked = none → exec (.alignReadyNotice pkg d flen nfr) s =
              .next { (({ z with host := { z.host with asked := none } } : State).complete l.queue 0x07 l.index []) with
                frame := z.frame.ended true }))) ∧
     (s.frame.pending = true → s.frame.launch = some l → l.align = true →
       exec (.startInstantNotice (some n)) s = .next { s with host := { h with startIn := some n } } ∧
       (s.frame.pauseReq = none → s.frame.pauseAsked = none → exec (.startInstantNotice none) s =
         .next { (({ s with host := { h with asked := none } } : State).complete l.queue 0x07 l.index []) with frame := s.frame.ended true }) ∧
       (h.startIn = some 0 → ∃ t, exec .alignedStart s = .next t ∧ t.frame.running = true ∧ t.frame.pending = false ∧ t.frame.fcnt = 0 ∧
         t.frame.flen = BitVec.ofNat 64 l.flen ∧ t.host.startIn = none ∧ t.mem.cells = s.mem.cells ∧
         ∀ e, e ∈ t.host.fclkGot → e.2.2 = none)) ∧
     (s.alignedRuns = true →
       (let key := max (m + s.horizon) s.frame.fcnt.toNat
        ∃ t, exec (.holdNotice m e port) s = .next t ∧ t.mem = s.mem ∧ t.frame.causes = s.frame.causes ∧
          (tget h.notices key = none → tget t.host.notices key = some (e, port)) ∧
          (∀ x y, tget h.notices key = some (x, y) → tget t.host.notices key = some (x + e, y)) ∧
          (∀ i, s.frame.remoteSlot = some i → fld (tgetD t.frame.slip i (0, 0)).2.toNat 0 32 = min t.demand (2 ^ 32 - 1))) ∧
       (s.frame.endAt = none → exec (.faultNotice f port) s = .next { s with frame := { s.frame with endAt := some (f, port) } }) ∧
       (∀ x y, s.frame.endAt = some (x, y) → exec (.faultNotice f port) s = .next { s with frame := { s.frame with
         endAt := some (if f < x then (f, port) else (x, y)) } })) ∧
     (s.alignedRuns = false →
       (∀ z, s.frame.settling = some z →
         (z.at_ ≤ f → exec (.faultNotice f port) s = .next s) ∧
         (f < z.at_ → s.frame.launch = some l → ∃ t, exec (.faultNotice f port) s = .next t ∧ t.mem = (s.unwrite f).mem ∧
           t.frame.settling = some { z with code := cRemote, at_ := f } ∧ t.weave = s.weave ∧ (t.queue l.queue).completions =
             (s.queue l.queue).completions.map (fun c => if c.plane = true then
               { c with frec := (⟨cRemote, port, 0, 0, 2, 0, 0⟩ : FaultCause).record f (min (f / l.flen) l.nframes) 1 } else c))) ∧
       (s.frame.settling = none → ∃ t, exec (.faultNotice f port) s = .next t ∧ t.frame = s.frame ∧ t.mem = s.mem ∧
         ∀ q x y, tget h.parked q = some x → s.aligned = true → x.launch = some y → y.align = true → x.endAt = none →
           tget t.host.parked q = some { x with endAt := some (f, port) })))

/-! ### Encoding, the step, reset, frames, invariants -/

/-- R59, R60, R62, R63, R68: every well-formed instruction that has an encoding is what the decoder reads from its word: no bit of a
field is dropped. -/
def Obligations.DecodeEncode : Prop := ∀ (i : Instr) (w : Nat), i.wf = true → encode i = some w → decode w = .ok i

/-- R59, R60, R68, R69: every 32-bit word that decodes is well formed and is the encoding of what it decodes to, so that no two words
mean one instruction. -/
def Obligations.EncodeDecode : Prop :=  ∀ (w : Nat) (i : Instr), w < 2 ^ 32 → decode w = .ok i → i.wf = true ∧ encode i = some w

/-- Words that the manual works out from R59 to R63, R68 and R79, of every group of majors, with what they decode to; a reserved minor and
a reserved major are refused. -/
def Obligations.WordsDecode : Prop :=
  decode 0x88000000 = .ok (.addi ⟨1, 0, 0, 0, 0⟩) ∧
  decode 0x7D985003 = .ok (.bhdr ⟨0, 0x98, 1, 1, 0, 0, 0⟩) ∧
  decode 0x7D010407 = .ok (.bhdr ⟨0, 0x01, 0, 0, 0, 1, 1⟩) ∧
  decode 0x0800C340 = .ok (.addi ⟨0, 0, 3, 3, 0x40⟩) ∧
  decode 0x5000420C = .ok (.vaddF32 ⟨0, 0, 1, 2, 3⟩) ∧
  decode 0xD001051A = .ok (.vmulF32 ⟨1, 0, 4, 5, 6⟩) ∧
  decode 0x7F0226AF = .ok (.ext ⟨0x0226AF⟩) ∧
  decode 0x91024DEF = .ok (.li ⟨1, 0, 9, 0x0DEF⟩) ∧
  decode 0xA3004606 = .ok (.loopk ⟨1, 1, 6, 6⟩) ∧
  decode 0x24000000 = .ok (.loope ⟨0⟩) ∧
  decode 0x8881C701 = .ok (.addi ⟨1, 8, 7, 7, 1⟩) ∧
  decode 0xA801460A = .ok (.ldW ⟨1, 0, 5, 6, 2⟩) ∧
  decode 0xAA01C2FB = .ok (.stD ⟨1, 0, 7, 2, 62⟩) ∧
  decode 0xB801461C = .ok (.hstart ⟨1, 0, 5, 6, 7⟩) ∧
  decode 0xBB004604 = .ok (.repf ⟨1, 0, 1, 6, 0, 1⟩) ∧
  decode 0xC0086188 = .ok (.yaddF32 ⟨1, 0, 33, 33, 34⟩) ∧
  decode 0x67004003 = .ok (.viota ⟨0, 0, 1, 0⟩) ∧
  decode 0xFC0000D0 = .ok (.anchor ⟨1, 0x34⟩) ∧
  decode 0xF0014004 = .ok (.winSig ⟨1, 0, 5, 1⟩) ∧
  decode 0xB0000011 = .ok (.fenceRel ⟨1, 0, 4⟩) ∧
  decode 0xAC01460B = .ok (.ldseD ⟨1, 0, 5, 6, 2⟩) ∧
  decode 0xAF01461D = .ok (.acas ⟨1, 0, 5, 6, 7⟩) ∧
  decode 0xF501C521 = .ok (.barArrive ⟨1, 0, 7, 5, 8⟩) ∧
  decode 0xF5A01706 = .ok (.barWait ⟨1, 10, 23, 1⟩) ∧
  decode 0xF4008900 = .ok (.cpyBox ⟨1, 0, 2, 9⟩) ∧
  decode 0x6B100134 = .ok (.osmUpd ⟨0, 1, 0, 1, 13⟩) ∧
  decode 0x6881CD9F = .ok (.mmBf16 ⟨0, 8, 7, 13, 1, 7⟩) ∧
  decode 0xB206D903 = .ok (.ldl ⟨1, 0, 27, 25, 0, 3⟩) ∧
  decode 0xBD001961 = .ok (.tenonW ⟨1, 0, 25, 24⟩) ∧
  decode 0xF6000500 = .ok (.jigLoad ⟨1, 0, 5⟩) ∧
  decode 0xF9014A00 = .ok (.splGrp ⟨1, 0, 5, 10⟩) ∧
  decode 0x24000001 = .error (.reservedMinor 0x24 1) ∧
  decode 0x19000000 = .error (.reservedMajor 0x19)

/-- R23, R27, R67, R167, R168, over the model's agenda (log 4): an act of the agenda is one step. An event's step is its row's `exec`. A
context whose group is one syllable, at its PC and executable, that decodes to `i` runs `exec` of `i` with the PC past it, and ends the
group; code is read through the fetched lines, and in tensor SRAM inside an open mortise alone (R31). A slot whose word decodes to `i` runs `exec` of `i`; the bundle that a bench reaches, legal and due, runs its header and then its
slots, where none of them would trap. -/
def Obligations.StepRunsInstruction : Prop :=
  ∀ (s : State) (i : Instr) (rest : List Act),
    let t : State := { s with ctl := { s.ctl with agenda := rest } }
    let idle : State := { t with ctl := { t.ctl with cur := .none } }
    (s.ctl.agenda = .event i :: rest →
      (exec i idle ≠ .fault .noSubject → step s = exec i idle) ∧ (exec i idle = .fault .noSubject → step s = .next t)) ∧
    (∀ (c w : Nat) (g : Seg) (s1 : State) (x : Ctx), s.ctl.agenda = .issue c :: rest → t.ctx? c = some x →
      let pc := x.pc.toNat
      (t.beginGroup c pc pc).fetchGroup c pc = .ok ([(pc, w)], g, s1) → groupLegal [w] = true → decode w = .ok i →
        let u0 := s1.beginGroup c pc (s1.afterSeg c g (pc + 4))
        let u := if u0.flows c w = true then u0 else u0.modCtx c (fun y => { y with granted := true, wait := some (.pipe false) })
        step s = (match exec i { u with ctl := { u.ctl with cur := .ctx c, syl := pc } } with
          | .next v => .next ((if v.ctl.verdict = .waiting then v.modCtx c (fun y => { y with jumped := x.jumped }) else v).endGroup c)
          | r => r)) ∧
    (∀ (c pc w : Nat) (g : Seg) (s1 : State), s.segOf c pc = .ok g → s.fetchSyl c g pc = .ok (w, s1) → sOf w = true →
      s.fetchGroup c pc = .ok ([(pc, w)], g, s1)) ∧
    (∀ (c pc pa : Nat) (g : Seg) (bs : List Byte) (u u1 u2 u3 : State),
      let j := (pc - g.body) / 4
      s.codeMeet c pc 4 = .ok u1 → u1.codeMeet c (g.hdr + 0x20 + j / 8) 1 = .ok u2 → u2.codeMeet c g.hdr 32 = .ok u3 →
        s.codeLine c (pc / 64 * 64) = some (pa, bs, u) →
          (s.execBit c g j = some true → ∃ v, s.fetchSyl c g pc = .ok (leNat ((bs.drop (pc % 64)).take 4), v)) ∧
          (s.execBit c g j = some false → s.fetchSyl c g pc = .error (.cause cFetch pc 0))) ∧
    (∀ (c va m pa b o : Nat) (bs : List Byte) (u : State) (e : Stop), s.missError (coreOf c) (s.ctx c).asid.toNat va = none →
      s.codeLine c (va / 64 * 64) = some (pa, bs, u) →
        (regionOf pa = .hbm → (tget (s.core (coreOf c)).fetched pa).isSome = true ∨ u.frame.flagEcc = [] → s.codeMeet c va m = .ok u) ∧
        (regionOf pa = .sram b o → u.mortiseCheck (s.ctx c).asid.toNat b (o + va % 64) m va = .error e →
          s.codeMeet c va m = .error e)) ∧
    (∀ (b : Nat) (sl : SlotSyl), decode sl.word = .ok i →
      s.runSlot b sl = exec i { s with ctl := { s.ctl with cur := .slot b sl.name, syl := sl.addr, ext := sl.ext } }) ∧
    (∀ (b link : Nat) (h : Half) (ws : List Nat) (ss : List SlotSyl) (p : Place),
      let k := t.bench b
      let v := t.setBench b { k with pc := p.addr, half := p.half, fed := k.fed && p.half == k.half }
      let u := (v.feed b).modBench b (fun q => { q with pc := link })
      s.ctl.agenda = .bundle b :: rest → k.busy = true → k.bubble ≤ k.tick → k.examine 4 ⟨k.half, k.pc⟩ = (p, true) →
        tget k.halves p.half = some h → h.bundle p.addr = .ok ws → bundleSlots p.addr ws = some ss →
        v.anchoring (v.bench b) ss = .go → link = p.addr + 4 * ws.length →
          step s = (match u.runBundle b p.addr (u.linkOf b h link) ws ss with
            | .next z => .next (z.feedNext b)
            | r => r)) ∧
    (∀ (b n : Nat) (h o : Half), (h.next = 0 ∨ n ≠ h.body + 4 * h.nsyl → s.linkOf b h n = n) ∧
      (h.next ≠ 0 → n = h.body + 4 * h.nsyl → s.chained b (s.bench b) h.next = some o → s.linkOf b h n = o.body)) ∧
    (∀ (b addr link : Nat) (ws : List Nat) (ss : List SlotSyl) (u : State), decode (ws.getD 0 0) = .ok i →
      exec i { s with ctl := { s.ctl with cur := .header b, group := addr, syl := addr, link := link, ext := none } } = .next u →
        u.trapIn b ss = none → ss.any (fun x => isHaltSyl x.word) = false →
          s.runBundle b addr link ws ss = u.runSlots b (effectOrder ss)) ∧
    (s.ctl.agenda = [] → step s = .next (s.plan 0))

/-- R8, R12, R61, R65, R69: every syllable but EXT, of a context or of a slot of a bundle, whose form that plane or slot does not take, with a
field that names nothing its form accepts, an immediate out of its form's limits, or an EXT before a form without one, raises
ILLEGAL_ENCODING, as a word that no form decodes does; R25: a legal one whose guard reads false, SEL apart, retires without effect. -/
def Obligations.IllegalAndNullified : Prop :=
  (∀ (s : State) (c bn w : Nat) (sl : SlotName) (i : Instr), w < 2 ^ 32 → decode w = .ok i →
    let maj := fld w 24 7
    let x := fld w 0 2
    let g := fld w 20 4
    let d := fld w 14 6
    let a := fld w 8 6
    let b := fld w 2 6
    let raw := if 0x08 ≤ maj ∧ maj ≤ 0x10 then fld w 0 8 else if maj = 0x11 ∨ maj = 0x12 then fld w 0 14 else b
    let badImm : Prop := (s.ctl.ext.isSome = true ∧ takesExt maj x = false) ∨ immOk s.ctl.ext maj x raw = false
    let oddField : Prop := (maj = 0x66 ∧ x = 3 ∧ d % 2 = 1) ∨ (maj = 0x67 ∧ x = 0 ∧ (s.bench bn).width sl / 32 ≤ b) ∨
      (maj = 0x6B ∧ x < 2 ∧ d = a) ∨ (maj = 0x71 ∧ x = 2 ∧ d ≠ 0 ∧ b ≠ 0) ∨ (maj = 0x7C ∧ x = 3 ∧ a ≠ 0 ∧ b ≠ 4) ∨
      (maj = 0x7D ∧ x = 2 ∧ d = 0 ∧ a = 0 ∧ b = 0)
    maj ≠ 0x7F →
      (s.ctl.cur = .ctx c → (s.ctx? c).isSome = true →
        (legalW maj x d a b = false ∨ g = 8 ∨ badImm → exec i s = .next (s.raise c s.ctl.group 1 0 0)) ∧
        (legalW maj x d a b = true → g ≠ 8 → ¬badImm → maj ≠ 0x16 → (s.ctx c).guard g = false → exec i s = retires s)) ∧
      (s.ctl.cur = .slot bn sl →
        (legalF maj x d a b = false ∨ slotTakes sl maj x = false ∨ badImm ∨ oddField →
          exec i s = .next (s.benchFault bn s.ctl.group 1 0 0)) ∧
        (legalF maj x d a b = true → slotTakes sl maj x = true → ¬badImm → ¬oddField → maj ≠ 0x16 → (s.bench bn).rg g = false →
          exec i s = retires s))) ∧
  (∀ (s : State) (c bn w addr : Nat) (sl : SlotName) (e : DecodeError), decode w = .error e →
    let t : State := { s with ctl := { s.ctl with cur := .ctx c, syl := addr } }
    let u : State := { s with ctl := { s.ctl with cur := .slot bn sl, syl := addr } }
    s.runSyl c addr w = .next (t.raise c t.ctl.group 1 0 0) ∧
    s.runSlot bn ⟨sl, addr, s.ctl.ext, w⟩ = .next (u.benchFault bn u.ctl.group 1 0 0))

/-- R11, R12, R21, R157: x0, p0, a0 and g0 read as their constants and take no write; any other register reads back what was written,
and a write leaves every other register alone. -/
def Obligations.RegisterFiles : Prop :=
  (∀ (k : Ctx) (i j : Nat) (v : W64), k.x 0 = 0 ∧ k.setX 0 v = k ∧ (i ≠ 0 → (k.setX i v).x i = v) ∧ (j ≠ i → (k.setX i v).x j = k.x j) ∧
    (k.setX i v).ps = k.ps ∧ (k.setX i v).ys = k.ys ∧ (k.setX i v).pc = k.pc ∧ (k.setX i v).flags = k.flags) ∧
  (∀ (k : Ctx) (i j : Nat) (b : Bool), i < 8 → j < 8 → k.p 0 = true ∧ k.setP 0 b = k ∧ (i ≠ 0 → (k.setP i b).p i = b) ∧
    (j ≠ i → (k.setP i b).p j = k.p j) ∧ (k.setP i b).xs = k.xs) ∧
  (∀ (k : Ctx) (i j : Nat) (v : W256), 32 ≤ i → 32 ≤ j → (k.setY i v).y i = v ∧ (j ≠ i → (k.setY i v).y j = k.y j) ∧ (k.setY i v).xs = k.xs) ∧
  (∀ (k : Bench) (i j : Nat) (v : W64), k.ra 0 = 0 ∧ k.wa 0 v = k ∧ (i ≠ 0 → (k.wa i v).ra i = v) ∧ (j ≠ i → (k.wa i v).ra j = k.ra j)) ∧
  (∀ (k : Bench) (i j : Nat) (b : Bool), i < 16 → j < 16 → k.rg 0 = true ∧ k.wg 0 b = k ∧ (i ≠ 0 → (k.wg i b).rg i = b) ∧
    (j ≠ i → (k.wg i b).rg j = k.rg j))

/-- R26, R80 to R91, R153: a register form of a context that retires with an x, y or p destination changes that register, and may set
flags or take a draw; every other register, the PC, the special registers, every other context, every byte of memory and the rest of the package stay. -/
def Obligations.WeaveRegisterFrame : Prop :=
  ∀ (s t : State) (c d : Nat) (i : Instr) (f : Tri) (m : Imm8) (n : Imm6) (u : Bin) (l : Wide) (h : Lea) (o : BinH2),
    s.ctl.cur = .ctx c → exec i s = .next t → t.ctl.verdict = .retired →
    let k := s.ctx c
    let k' := t.ctx c
    let others : Prop := (∀ a, t.mem.byte a = s.mem.byte a ∧ t.mem.cells.read a = s.mem.cells.read a ∧
        t.mem.local_.read a = s.mem.local_.read a) ∧
      t.mem = s.mem ∧ t.frame = s.frame ∧ t.eng = s.eng ∧ t.host = s.host ∧ t.weave.gangs = s.weave.gangs ∧ t.weave.cores = s.weave.cores ∧
      (∀ e, e ≠ c → t.ctx? e = s.ctx? e) ∧
      k'.pc = k.pc ∧ k'.status = k.status ∧ k.flags &&& k'.flags = k.flags ∧ k'.firsterr = k.firsterr ∧ k'.seed = k.seed ∧
      k'.epc = k.epc ∧ k'.cause = k.cause ∧ k'.faddr = k.faddr ∧ k'.evpend = k.evpend ∧ k'.sscr = k.sscr ∧ k'.clr = k.clr ∧
      k'.ticket = k.ticket ∧ k'.asid = k.asid
    ((i ∈ [Instr.cmpEq f, .cmpLt f, .cmpLtu f, .cmpNe f, .pand f, .por f, .pxor f] ∧ d = f.d ∧ f.a < 48 ∧ f.b < 48 ∨
      i ∈ [Instr.cmpiEq n, .cmpiLt n, .cmpiLtu n, .cmpiNe n] ∧ d = n.d ∧ n.a < 48 ∨ i = .pnot u ∧ d = u.d) →
      others ∧ (∀ r, k'.x r = k.x r) ∧ (∀ r, k'.y r = k.y r) ∧ (∀ r, r < 8 → r ≠ d → k'.p r = k.p r) ∧ k'.flags = k.flags ∧
        k'.drawc = k.drawc) ∧
    ((i ∈ [Instr.add f, .sub f, .addw f, .subw f, .and_ f, .or_ f, .xor_ f, .andn f, .shl f, .shr f, .sar f, .rot f, .mul f, .mulh f,
        .mulhu f, .mulw f, .div f, .divu f, .rem f, .remu f, .min_ f, .max_ f, .minu f, .maxu f, .seq f, .slt f, .sltu f, .sne f, .sel f,
        .yaddF32 f, .ysubF32 f, .ymulF32 f, .yfmaF32 f, .yaddI32 f, .ysubI32 f, .ymulI32 f, .ymacI32 f, .yand f, .yor f, .yxor f, .ysel f,
        .yaddBf16 f, .ysubBf16 f, .ymulBf16 f, .yfmaBf16 f, .yminF32 f, .ymaxF32 f, .yminI32 f, .ymaxI32 f, .ycvtBf16F32 f, .yshf f,
        .yext f, .yins f] ∧
        d = f.d ∧ f.a < 48 ∧ f.b < 48 ∨
      i ∈ [Instr.addi m, .andi m, .ori m, .xori m, .shli m, .shri m, .sari m, .slti m, .sltiu m] ∧ d = m.d ∧ m.a < 48 ∨
      i ∈ [Instr.clz u, .ctz u, .popc u, .brev u, .ycvtI32F32 u, .ycvtF32I32 u, .yrsumF32 u, .yrmaxF32 u, .yrsumI32 u, .yrmaxI32 u,
        .ybcast u] ∧ d = u.d ∧ u.a < 48 ∨
      i = .ycvtF32Bf16 o ∧ d = o.d ∨ i ∈ [Instr.li l, .lih l] ∧ d = l.d ∨ i = .lea h ∧ d = h.d ∧ h.a < 48 ∧ h.b < 48 ∨
      i ∈ [Instr.extr n, .ins n] ∧ d = n.d ∧ n.a < 48) → d < 48 →
      others ∧ (∀ r, r ≠ d → k'.x r = k.x r) ∧ (∀ r, 32 ≤ r → r ≠ d → k'.y r = k.y r) ∧ k'.ps = k.ps)

/-- R67, R81, R188: a register form of a bench that retires only puts results on their way, and may take a draw: every register of every
bench, every byte of memory and the rest of the package stay as they are until the results land. -/
def Obligations.BenchRegisterFrame : Prop :=
  ∀ (s t : State) (b : Nat) (sl : SlotName) (i : Instr) (f : Tri) (m : Imm8) (n : Imm6) (u : Bin) (l : Wide) (h : Lea) (o : CvtR)
      (o7 : BinH7) (oh : CvtHR) (w : BinN) (gn : GuardN) (n2 : BinN2) (ud : UnD),
    s.ctl.cur = .slot b sl → exec i s = .next t → t.ctl.verdict = .retired →
    (i ∈ [Instr.add f, .sub f, .addw f, .subw f, .and_ f, .or_ f, .xor_ f, .andn f, .shl f, .shr f, .sar f, .rot f, .mul f, .mulh f,
        .mulhu f, .mulw f, .div f, .divu f, .rem f, .remu f, .min_ f, .max_ f, .minu f, .maxu f, .seq f, .slt f, .sltu f, .sne f, .sel f,
        .cmpEq f, .cmpLt f, .cmpLtu f, .cmpNe f, .pand f, .por f, .pxor f,
        .vaddF32 f, .vsubF32 f, .vmulF32 f, .vfmaF32 f, .vminF32 f, .vmaxF32 f, .vaddBf16 f, .vsubBf16 f, .vmulBf16 f, .vfmaBf16 f,
        .vminBf16 f, .vmaxBf16 f, .vaddF16 f, .vsubF16 f, .vmulF16 f, .vfmaF16 f, .vminF16 f, .vmaxF16 f,
        .vaddI32 f, .vsubI32 f, .vmulI32 f, .vmacI32 f, .vminI32 f, .vmaxI32 f, .vaddI16 f, .vsubI16 f, .vmulI16 f, .vmacI16 f,
        .vminI16 f, .vmaxI16 f, .vaddI8 f, .vsubI8 f, .vmulI8 f, .vmacI8 f, .vminI8 f, .vmaxI8 f, .vqnt f, .vdq f, .vscl f, .vcomp f,
        .vcmpEqF32 f, .vcmpLtF32 f, .vcmpLeF32 f, .vcmpNeF32 f, .vcmpEqI32 f, .vcmpLtI32 f, .vcmpLeI32 f, .vcmpNeI32 f,
        .vand f, .vor f, .vxor f, .vshuf f, .vtrn f, .vsel f, .vmerge f, .vdot4I8 f, .vdot4sI8 f, .vdot2I16 f, .vdot2sI16 f] ∨
      i ∈ [Instr.addi m, .andi m, .ori m, .xori m, .shli m, .shri m, .sari m, .slti m, .sltiu m] ∨
      i ∈ [Instr.clz u, .ctz u, .popc u, .brev u, .pnot u, .vabsF32 u, .vnegF32 u, .vabsBf16 u, .vnegBf16 u, .vabsF16 u, .vnegF16 u,
        .vabsI32 u, .vnegI32 u, .vabsI16 u, .vnegI16 u, .vabsI8 u, .vnegI8 u, .vexp2 u, .vrcp u, .vrsq u, .vlog2 u, .vnot u,
        .vrsumF32 u, .vrmaxF32 u, .vrsumI32 u, .vrmaxI32 u, .vmovv u, .vsplat u, .viota u] ∨
      i ∈ [Instr.li l, .lih l] ∨ i = .lea h ∨ i ∈ [Instr.extr n, .ins n, .cmpiEq n, .cmpiLt n, .cmpiLtu n, .cmpiNe n] ∨
      i ∈ [Instr.vcvtF32I32 o, .vcvtI32F32 o] ∨ i ∈ [Instr.vcvtF32Bf16 o7, .vcvtF32F16 o7, .vcvtI16I32 o7, .vcvtI8I16 o7] ∨
      i ∈ [Instr.vcvtBf16F32 oh, .vcvtF16F32 oh] ∨ i ∈ [Instr.vrot w, .vbcst w, .vfill w, .vmova w] ∨ i = .vmask gn ∨ i = .spsel n2 ∨
      i ∈ [Instr.vld n, .vldb n] ∨ i = .lstat ud) →
    (∀ a, t.mem.byte a = s.mem.byte a ∧ t.mem.cells.read a = s.mem.cells.read a) ∧
    t.mem = s.mem ∧ t.weave = s.weave ∧ t.eng = s.eng ∧ t.host = s.host ∧ (∀ e, e ≠ b → t.bench e = s.bench e) ∧
    (∃ es dc, t.bench b = { s.bench b with pend := (s.bench b).pend ++ es, drawc := dc })

/-- R81, R188, R224: a result that lands on a bench changes the register it was computed for, in the bits it covers, and no other: an a
register, a guard, the bits of a v register, the flags it raises, an accumulator handle, a latch. -/
def Obligations.ResultsLand : Prop :=
  ∀ (k : Bench) (j : Nat),
    (∀ i v, k.apply (.a i v) = k.wa i v) ∧ (∀ i b, k.apply (.g i b) = k.wg i b) ∧
    (∀ i lo n v, lo + n ≤ 1024 →
      let r := k.apply (.v i lo n v)
      (∀ bit, (tgetD r.v i 0).getLsbD bit = if lo ≤ bit ∧ bit < lo + n then v.getLsbD (bit - lo) else (tgetD k.v i 0).getLsbD bit) ∧
      (j ≠ i → tgetD r.v j 0 = tgetD k.v j 0) ∧ r.a = k.a ∧ r.g = k.g ∧ r.h = k.h ∧ r.flags = k.flags) ∧
    (∀ f, (k.apply (.flags f)).flags = k.flags ||| f ∧ (k.apply (.flags f)).v = k.v ∧ (k.apply (.flags f)).a = k.a) ∧
    (∀ i v, tgetD (k.apply (.seqlen i v)).seqlen i 0 = v ∧ (j ≠ i → tgetD (k.apply (.seqlen i v)).seqlen j 0 = tgetD k.seqlen j 0) ∧
      (k.apply (.seqlen i v)).v = k.v ∧ (k.apply (.seqlen i v)).a = k.a) ∧
    (∀ h mm a, tget (k.apply (.slot h mm a)).h h = some a ∧ (j ≠ h → tget (k.apply (.slot h mm a)).h j = tget k.h j)) ∧
    (∀ h, tget (k.apply (.release h)).h h = none ∧ (j ≠ h → tget (k.apply (.release h)).h j = tget k.h j)) ∧
    (∀ l, (k.apply (.latch l)).shadow = l ∧ (k.apply (.latch l)).active = k.active) ∧
    ((k.apply .swap).active = k.shadow ∧ (k.apply .swap).shadow = k.active)

/-- R28, R29, R263, R293: a store that becomes visible changes the bytes it stores and no other byte, of memory as the weave plane reads it
or of a local memory; a write that the frame plane makes changes only its own bytes of memory; setting and clearing full/empty bits changes
no byte. -/
def Obligations.StoredBytes : Prop :=
  (∀ (s : State) (k : Nat) (e : BufStore) (a : Nat), (∀ off, regionOf e.addr ≠ .device off) →
    let t := s.performStore k e
    (e.isLocal = true → t.mem.byte a = s.mem.byte a ∧
      t.mem.local_.read a = (if e.addr ≤ a ∧ a < e.addr + e.bytes.length then e.bytes.getD (a - e.addr) 0 else s.mem.local_.read a)) ∧
    (e.isLocal = false → t.mem.local_.read a = s.mem.local_.read a ∧
      t.mem.byte a = (if e.addr ≤ a ∧ a < e.addr + e.bytes.length then e.bytes.getD (a - e.addr) 0 else s.mem.byte a)) ∧
    t.frame = s.frame ∧ t.eng = s.eng ∧ t.host = s.host ∧ t.weave.ctxs = s.weave.ctxs) ∧
  (∀ (m : Mem) (pa a : Nat) (bs : List Byte),
    (m.rawPut pa bs).cells.read a = (if pa ≤ a ∧ a < pa + bs.length then bs.getD (a - pa) 0 else m.cells.read a) ∧
    (m.rawPut pa bs).dirty = m.dirty ∧ (m.rawPut pa bs).local_ = m.local_) ∧
  (∀ (m : Mem) (pa n a : Nat), (m.setFull pa n).byte a = m.byte a ∧ (m.setEmpty pa n).byte a = m.byte a)

/-- R157, R162, R416, R417: after reset the package is in boot hold with a power cap of 2,800, the frame clock request 6 with no bit
pending, every other device register of R416's table, every word of the compander tables, FCNT and the slip log 0, no shoot-down queued, no
queue enabled, no context and no launch; while boot hold lasts no register but BOOTSTAT and the lifetime records answers a read. That memory then reads as 0 and that FLEN, PAUSEBND
and HOLDMAX are 0 are the model's choices (logs 1 and 2). -/
def Obligations.ResetState : Prop :=
  let s := State.reset
  s.host.bootstat = 0x8000000000000000 ∧ s.host.pcap = 2800 ∧ s.host.fclkreq = 0x0600000000000000 ∧ s.host.asidtb = 0 ∧ s.host.cmplo = 0 ∧
  s.host.cmphi = 0 ∧ s.host.mdbase = 0 ∧ s.host.alignctl = 0 ∧ s.host.alignstat = 0 ∧ (∀ q, s.queue q = Queue.zero) ∧
  (∀ d, tgetD s.eng.sdva d 0 = 0 ∧ s.sdstat d = 0 ∧ tgetD s.eng.sdq d [] = []) ∧ (∀ p, tgetD s.host.splport p 0 = 0) ∧
  s.host.ccspill = 0 ∧ s.host.ccstat = 0 ∧ (∀ i, s.host.ccdesc.read i = 0) ∧ (∀ k w, tgetD (s.compander k) w 0 = 0) ∧
  (∀ off, off ≠ 0x08 → off ≠ 0x10 → s.devReg off = 0) ∧ (∀ off size, off ≠ 0 → off < 0x30000 → s.devRead off size = 0) ∧
  s.frame.fcnt = 0 ∧ s.frame.flen = 0 ∧ s.frame.pausebnd = 0 ∧ s.frame.holdmax = 0 ∧ s.frame.total = 0 ∧ s.frame.next = 0 ∧ s.frame.slip = [] ∧
  s.frame.running = false ∧ s.frame.launch = none ∧ (∀ b, s.bench b = Bench.zero) ∧ (∀ c, s.ctx? c = none) ∧ s.weave.launches = [] ∧
  (∀ n, s.evctr n = 0) ∧ (∀ a, s.mem.byte a = Memory.blank) ∧ (∀ a, s.mem.full a = true) ∧ s.Canonical

/-- The model's own invariant (log 1): every step keeps byte memory and the local memories in their canonical form: addresses strictly
rising, and no byte listed that reads as an unlisted one. -/
def Obligations.CanonicalKept : Prop := ∀ (s t : State), s.Canonical → step s = .next t → t.Canonical
end

