-- ==== Sys2Proof/Laws/Table.lean ====
section
/-! SUPPORT. Laws of sparse tables and of byte memory: a read after a write, what a write leaves alone, and the canonical
form, which every write keeps. -/

namespace Sys2Proof.Machine

/-! ### Tables -/

@[simp] theorem tget_tset_self {α : Type} (m : Tbl α) (k : Nat) (v : α) : tget (tset m k v) k = some v := by
  induction m with
  | nil => simp [tset, tget]
  | cons e t ih =>
    obtain ⟨j, w⟩ := e
    unfold tset
    split
    · simp [tget]
    · split
      · simp [tget]
      · simp [tget, *]

theorem tget_tset_ne {α : Type} (m : Tbl α) {k j : Nat} (v : α) (h : j ≠ k) : tget (tset m k v) j = tget m j := by
  induction m with
  | nil => simp [tset, tget, h]
  | cons e t ih =>
    obtain ⟨i, w⟩ := e
    unfold tset
    split
    · simp [tget, h]
    · split
      · subst k; simp [tget, h]
      · simp only [tget]; split <;> simp_all

/-- A table read after one write. -/
theorem tget_tset {α : Type} (m : Tbl α) (k j : Nat) (v : α) : tget (tset m k v) j = if j = k then some v else tget m j := by
  split
  · subst j; simp
  · exact tget_tset_ne m v ‹_›

@[simp] theorem tgetD_tset_self {α : Type} (m : Tbl α) (k : Nat) (v d : α) : tgetD (tset m k v) k d = v := by simp [tgetD]

theorem tgetD_tset_ne {α : Type} (m : Tbl α) {k j : Nat} (v d : α) (h : j ≠ k) : tgetD (tset m k v) j d = tgetD m j d := by
  simp [tgetD, tget_tset_ne m v h]

@[simp] theorem tget_terase_self {α : Type} (m : Tbl α) (k : Nat) : tget (terase m k) k = none := by
  induction m with
  | nil => rfl
  | cons e t ih =>
    obtain ⟨j, w⟩ := e
    unfold terase
    split
    · exact ih
    · simp [tget, *]

theorem tget_terase_ne {α : Type} (m : Tbl α) {k j : Nat} (h : j ≠ k) : tget (terase m k) j = tget m j := by
  induction m with
  | nil => rfl
  | cons e t ih =>
    obtain ⟨i, w⟩ := e
    unfold terase
    split
    · subst k; simp [tget, h, ih]
    · simp only [tget]; split <;> simp_all

@[simp] theorem tgetD_nil {α : Type} (k : Nat) (d : α) : tgetD ([] : Tbl α) k d = d := rfl

/-! ### Ascending keys -/

theorem tsortedFrom_weaken {α : Type} {lo hi : Nat} {m : Tbl α} (h : lo ≤ hi) (hs : tsortedFrom hi m = true) :
    tsortedFrom lo m = true := by
  cases m with
  | nil => rfl
  | cons e t => simp [tsortedFrom] at hs ⊢; exact ⟨by omega, hs.2⟩

theorem tsorted_of_from {α : Type} {lo : Nat} {m : Tbl α} (h : tsortedFrom lo m = true) : tsorted m = true := by
  cases m with
  | nil => rfl
  | cons e t => simp [tsortedFrom, tsorted] at *; exact h.2

theorem tset_sortedFrom {α : Type} (m : Tbl α) {lo k : Nat} (v : α) (hk : lo < k) (h : tsortedFrom lo m = true) :
    tsortedFrom lo (tset m k v) = true := by
  induction m generalizing lo with
  | nil => simp [tset, tsortedFrom, hk]
  | cons e t ih =>
    obtain ⟨j, w⟩ := e
    simp [tsortedFrom] at h
    unfold tset
    split
    · simp [tsortedFrom, *]
    · split
      · subst k; simp [tsortedFrom, *]
      · simp [tsortedFrom, h.1]; exact ih (by omega) h.2

/-- A write keeps the keys strictly rising. -/
theorem tset_sorted {α : Type} (m : Tbl α) (k : Nat) (v : α) (h : tsorted m = true) : tsorted (tset m k v) = true := by
  cases m with
  | nil => simp [tset, tsorted, tsortedFrom]
  | cons e t =>
    obtain ⟨j, w⟩ := e
    unfold tset
    split
    · simp [tsorted, tsortedFrom] at *; exact ⟨‹_›, h⟩
    · split
      · subst k; exact h
      · exact tset_sortedFrom t v (by omega) h

theorem terase_sortedFrom {α : Type} (m : Tbl α) {lo : Nat} (k : Nat) (h : tsortedFrom lo m = true) :
    tsortedFrom lo (terase m k) = true := by
  induction m generalizing lo with
  | nil => rfl
  | cons e t ih =>
    obtain ⟨j, w⟩ := e
    simp [tsortedFrom] at h
    unfold terase
    split
    · exact ih (tsortedFrom_weaken (by omega) h.2)
    · simp [tsortedFrom, h.1]; exact ih h.2

/-- Removing a key keeps the keys strictly rising. -/
theorem terase_sorted {α : Type} (m : Tbl α) (k : Nat) (h : tsorted m = true) : tsorted (terase m k) = true := by
  cases m with
  | nil => rfl
  | cons e t =>
    obtain ⟨j, w⟩ := e
    unfold terase
    split
    · exact tsorted_of_from (terase_sortedFrom t k h)
    · exact terase_sortedFrom t k h

theorem mem_tset {α : Type} {m : Tbl α} {k : Nat} {v : α} {e : Nat × α} (h : e ∈ tset m k v) : e = (k, v) ∨ e ∈ m := by
  induction m with
  | nil => simp [tset] at h; exact .inl h
  | cons f t ih =>
    obtain ⟨j, w⟩ := f
    unfold tset at h
    grind

theorem mem_terase {α : Type} {m : Tbl α} {k : Nat} {e : Nat × α} (h : e ∈ terase m k) : e ∈ m := by
  induction m with
  | nil => exact h
  | cons f t ih =>
    obtain ⟨j, w⟩ := f
    unfold terase at h
    split at h
    · exact List.mem_cons_of_mem _ (ih h)
    · simp only [List.mem_cons] at h ⊢
      rcases h with h | h
      · exact .inl h
      · exact .inr (ih h)

/-! ### Byte memory -/

@[simp] theorem Memory.read_nil (a : Nat) : Memory.read [] a = Memory.blank := rfl

/-- A byte that has just been written reads as written. -/
@[simp] theorem Memory.read_write_self (m : Memory) (a : Nat) (v : Byte) : (m.write a v).read a = v := by
  unfold Memory.write Memory.read
  split
  · simp [tgetD, *]
  · simp

/-- A write leaves every other byte alone. -/
theorem Memory.read_write_ne (m : Memory) {a b : Nat} (v : Byte) (h : b ≠ a) : (m.write a v).read b = m.read b := by
  unfold Memory.write Memory.read
  split
  · simp [tgetD, tget_terase_ne m h]
  · simp [tgetD_tset_ne m v _ h]

/-- A byte write keeps the canonical form. -/
theorem Memory.write_wf (m : Memory) (a : Nat) (v : Byte) (h : m.wf) : (m.write a v).wf := by
  obtain ⟨h1, h2⟩ := h
  rw [List.all_eq_true] at h2
  unfold Memory.write
  split
  · exact ⟨terase_sorted m a h1, List.all_eq_true.2 fun e he => h2 e (mem_terase he)⟩
  · refine ⟨tset_sorted m a v h1, List.all_eq_true.2 fun e he => ?_⟩
    rcases mem_tset he with rfl | h
    · simpa using ‹¬v = Memory.blank›
    · exact h2 e h

/-- A run of byte writes keeps the canonical form. -/
theorem Memory.writeBytes_wf (bs : List Byte) (m : Memory) (a : Nat) (h : m.wf) : (m.writeBytes a bs).wf := by
  induction bs generalizing m a with
  | nil => exact h
  | cons b bs ih => exact ih _ _ (m.write_wf a b h)

/-- A run of byte writes leaves alone every byte outside it. -/
theorem Memory.read_writeBytes_outside (bs : List Byte) (m : Memory) (a : Nat) {x : Nat} (h : x < a ∨ a + bs.length ≤ x) :
    (m.writeBytes a bs).read x = m.read x := by
  induction bs generalizing m a with
  | nil => rfl
  | cons b bs ih =>
    simp only [List.length_cons] at h
    rw [Memory.writeBytes, ih _ _ (by omega), m.read_write_ne b (by omega)]

/-- Byte `i` of a run just written reads as written. -/
theorem Memory.read_writeBytes_inside (bs : List Byte) (m : Memory) (a : Nat) {i : Nat} (h : i < bs.length) :
    (m.writeBytes a bs).read (a + i) = bs[i] := by
  induction bs generalizing m a i with
  | nil => simp at h
  | cons b bs ih =>
    cases i with
    | zero => rw [Memory.writeBytes, Memory.read_writeBytes_outside _ _ _ (by omega)]; simp
    | succ i =>
      simp only [List.length_cons] at h
      rw [Memory.writeBytes, show a + (i + 1) = a + 1 + i by omega, ih (m.write a b) (a + 1) (by omega)]; simp

@[simp] theorem Memory.readBytes_length (m : Memory) (a n : Nat) : (m.readBytes a n).length = n := by
  induction n generalizing a with
  | zero => rfl
  | succ n ih => simp [Memory.readBytes, ih]

@[simp] theorem leBytes_length (n v : Nat) : (leBytes n v).length = n := by
  induction n generalizing v with
  | zero => rfl
  | succ n ih => simp [leBytes, ih]

/-- The number that the bytes of a number form is the number, cut to them. -/
theorem leNat_leBytes (n v : Nat) : leNat (leBytes n v) = v % 256 ^ n := by
  induction n generalizing v with
  | zero => simp [leBytes, leNat, Nat.mod_one]
  | succ n ih =>
    simp only [leBytes, leNat, ih, BitVec.toNat_ofNat]
    have h : (256 : Nat) ^ (n + 1) = 256 * 256 ^ n := by rw [Nat.pow_add_one, Nat.mul_comm]
    rw [h, Nat.mod_mul]

theorem Memory.reset_wf : Memory.wf [] := by decide

end Sys2Proof.Machine
end

