-- ==== Sys2Proof/Laws/State.lean ====
section
/-! SUPPORT. What each update of the state changes and what it leaves: one lemma per update and part, per update and field of
the part it changes, and the reads after writes of the parts kept by number. -/

namespace Sys2Proof.Machine

/-! ### setCtx -/

@[simp] theorem State.setCtx_ctl (s : State) (c : Nat) (x : Ctx) : (s.setCtx c x).ctl = s.ctl := rfl
@[simp] theorem State.setCtx_mem (s : State) (c : Nat) (x : Ctx) : (s.setCtx c x).mem = s.mem := rfl
@[simp] theorem State.setCtx_frame (s : State) (c : Nat) (x : Ctx) : (s.setCtx c x).frame = s.frame := rfl
@[simp] theorem State.setCtx_eng (s : State) (c : Nat) (x : Ctx) : (s.setCtx c x).eng = s.eng := rfl
@[simp] theorem State.setCtx_host (s : State) (c : Nat) (x : Ctx) : (s.setCtx c x).host = s.host := rfl
@[simp] theorem State.setCtx_weave_cores (s : State) (c : Nat) (x : Ctx) : (s.setCtx c x).weave.cores = s.weave.cores := rfl
@[simp] theorem State.setCtx_weave_clusters (s : State) (c : Nat) (x : Ctx) : (s.setCtx c x).weave.clusters = s.weave.clusters := rfl
@[simp] theorem State.setCtx_weave_gangs (s : State) (c : Nat) (x : Ctx) : (s.setCtx c x).weave.gangs = s.weave.gangs := rfl
@[simp] theorem State.setCtx_weave_launches (s : State) (c : Nat) (x : Ctx) : (s.setCtx c x).weave.launches = s.weave.launches := rfl
@[simp] theorem State.setCtx_weave_dispatchers (s : State) (c : Nat) (x : Ctx) : (s.setCtx c x).weave.dispatchers = s.weave.dispatchers := rfl
@[simp] theorem State.setCtx_weave_evctr (s : State) (c : Nat) (x : Ctx) : (s.setCtx c x).weave.evctr = s.weave.evctr := rfl
@[simp] theorem State.setCtx_weave_nextId (s : State) (c : Nat) (x : Ctx) : (s.setCtx c x).weave.nextId = s.weave.nextId := rfl
@[simp] theorem State.setCtx_weave_left (s : State) (c : Nat) (x : Ctx) : (s.setCtx c x).weave.left = s.weave.left := rfl

/-! ### modCtx -/

@[simp] theorem State.modCtx_ctl (s : State) (c : Nat) (f : Ctx → Ctx) : (s.modCtx c f).ctl = s.ctl := rfl
@[simp] theorem State.modCtx_mem (s : State) (c : Nat) (f : Ctx → Ctx) : (s.modCtx c f).mem = s.mem := rfl
@[simp] theorem State.modCtx_frame (s : State) (c : Nat) (f : Ctx → Ctx) : (s.modCtx c f).frame = s.frame := rfl
@[simp] theorem State.modCtx_eng (s : State) (c : Nat) (f : Ctx → Ctx) : (s.modCtx c f).eng = s.eng := rfl
@[simp] theorem State.modCtx_host (s : State) (c : Nat) (f : Ctx → Ctx) : (s.modCtx c f).host = s.host := rfl
@[simp] theorem State.modCtx_weave_cores (s : State) (c : Nat) (f : Ctx → Ctx) : (s.modCtx c f).weave.cores = s.weave.cores := rfl
@[simp] theorem State.modCtx_weave_clusters (s : State) (c : Nat) (f : Ctx → Ctx) : (s.modCtx c f).weave.clusters = s.weave.clusters := rfl
@[simp] theorem State.modCtx_weave_gangs (s : State) (c : Nat) (f : Ctx → Ctx) : (s.modCtx c f).weave.gangs = s.weave.gangs := rfl
@[simp] theorem State.modCtx_weave_launches (s : State) (c : Nat) (f : Ctx → Ctx) : (s.modCtx c f).weave.launches = s.weave.launches := rfl
@[simp] theorem State.modCtx_weave_dispatchers (s : State) (c : Nat) (f : Ctx → Ctx) : (s.modCtx c f).weave.dispatchers = s.weave.dispatchers := rfl
@[simp] theorem State.modCtx_weave_evctr (s : State) (c : Nat) (f : Ctx → Ctx) : (s.modCtx c f).weave.evctr = s.weave.evctr := rfl
@[simp] theorem State.modCtx_weave_nextId (s : State) (c : Nat) (f : Ctx → Ctx) : (s.modCtx c f).weave.nextId = s.weave.nextId := rfl
@[simp] theorem State.modCtx_weave_left (s : State) (c : Nat) (f : Ctx → Ctx) : (s.modCtx c f).weave.left = s.weave.left := rfl

/-! ### dropCtx -/

@[simp] theorem State.dropCtx_ctl (s : State) (c : Nat) : (s.dropCtx c).ctl = s.ctl := rfl
@[simp] theorem State.dropCtx_mem (s : State) (c : Nat) : (s.dropCtx c).mem = s.mem := rfl
@[simp] theorem State.dropCtx_frame (s : State) (c : Nat) : (s.dropCtx c).frame = s.frame := rfl
@[simp] theorem State.dropCtx_eng (s : State) (c : Nat) : (s.dropCtx c).eng = s.eng := rfl
@[simp] theorem State.dropCtx_host (s : State) (c : Nat) : (s.dropCtx c).host = s.host := rfl
@[simp] theorem State.dropCtx_weave_cores (s : State) (c : Nat) : (s.dropCtx c).weave.cores = s.weave.cores := rfl
@[simp] theorem State.dropCtx_weave_clusters (s : State) (c : Nat) : (s.dropCtx c).weave.clusters = s.weave.clusters := rfl
@[simp] theorem State.dropCtx_weave_gangs (s : State) (c : Nat) : (s.dropCtx c).weave.gangs = s.weave.gangs := rfl
@[simp] theorem State.dropCtx_weave_launches (s : State) (c : Nat) : (s.dropCtx c).weave.launches = s.weave.launches := rfl
@[simp] theorem State.dropCtx_weave_dispatchers (s : State) (c : Nat) : (s.dropCtx c).weave.dispatchers = s.weave.dispatchers := rfl
@[simp] theorem State.dropCtx_weave_evctr (s : State) (c : Nat) : (s.dropCtx c).weave.evctr = s.weave.evctr := rfl
@[simp] theorem State.dropCtx_weave_nextId (s : State) (c : Nat) : (s.dropCtx c).weave.nextId = s.weave.nextId := rfl
@[simp] theorem State.dropCtx_weave_left (s : State) (c : Nat) : (s.dropCtx c).weave.left = s.weave.left := rfl

/-! ### setCore -/

@[simp] theorem State.setCore_ctl (s : State) (k : Nat) (x : Core) : (s.setCore k x).ctl = s.ctl := rfl
@[simp] theorem State.setCore_mem (s : State) (k : Nat) (x : Core) : (s.setCore k x).mem = s.mem := rfl
@[simp] theorem State.setCore_frame (s : State) (k : Nat) (x : Core) : (s.setCore k x).frame = s.frame := rfl
@[simp] theorem State.setCore_eng (s : State) (k : Nat) (x : Core) : (s.setCore k x).eng = s.eng := rfl
@[simp] theorem State.setCore_host (s : State) (k : Nat) (x : Core) : (s.setCore k x).host = s.host := rfl
@[simp] theorem State.setCore_weave_ctxs (s : State) (k : Nat) (x : Core) : (s.setCore k x).weave.ctxs = s.weave.ctxs := rfl
@[simp] theorem State.setCore_weave_clusters (s : State) (k : Nat) (x : Core) : (s.setCore k x).weave.clusters = s.weave.clusters := rfl
@[simp] theorem State.setCore_weave_gangs (s : State) (k : Nat) (x : Core) : (s.setCore k x).weave.gangs = s.weave.gangs := rfl
@[simp] theorem State.setCore_weave_launches (s : State) (k : Nat) (x : Core) : (s.setCore k x).weave.launches = s.weave.launches := rfl
@[simp] theorem State.setCore_weave_dispatchers (s : State) (k : Nat) (x : Core) : (s.setCore k x).weave.dispatchers = s.weave.dispatchers := rfl
@[simp] theorem State.setCore_weave_evctr (s : State) (k : Nat) (x : Core) : (s.setCore k x).weave.evctr = s.weave.evctr := rfl
@[simp] theorem State.setCore_weave_nextId (s : State) (k : Nat) (x : Core) : (s.setCore k x).weave.nextId = s.weave.nextId := rfl
@[simp] theorem State.setCore_weave_left (s : State) (k : Nat) (x : Core) : (s.setCore k x).weave.left = s.weave.left := rfl

/-! ### modCore -/

@[simp] theorem State.modCore_ctl (s : State) (k : Nat) (f : Core → Core) : (s.modCore k f).ctl = s.ctl := rfl
@[simp] theorem State.modCore_mem (s : State) (k : Nat) (f : Core → Core) : (s.modCore k f).mem = s.mem := rfl
@[simp] theorem State.modCore_frame (s : State) (k : Nat) (f : Core → Core) : (s.modCore k f).frame = s.frame := rfl
@[simp] theorem State.modCore_eng (s : State) (k : Nat) (f : Core → Core) : (s.modCore k f).eng = s.eng := rfl
@[simp] theorem State.modCore_host (s : State) (k : Nat) (f : Core → Core) : (s.modCore k f).host = s.host := rfl
@[simp] theorem State.modCore_weave_ctxs (s : State) (k : Nat) (f : Core → Core) : (s.modCore k f).weave.ctxs = s.weave.ctxs := rfl
@[simp] theorem State.modCore_weave_clusters (s : State) (k : Nat) (f : Core → Core) : (s.modCore k f).weave.clusters = s.weave.clusters := rfl
@[simp] theorem State.modCore_weave_gangs (s : State) (k : Nat) (f : Core → Core) : (s.modCore k f).weave.gangs = s.weave.gangs := rfl
@[simp] theorem State.modCore_weave_launches (s : State) (k : Nat) (f : Core → Core) : (s.modCore k f).weave.launches = s.weave.launches := rfl
@[simp] theorem State.modCore_weave_dispatchers (s : State) (k : Nat) (f : Core → Core) : (s.modCore k f).weave.dispatchers = s.weave.dispatchers := rfl
@[simp] theorem State.modCore_weave_evctr (s : State) (k : Nat) (f : Core → Core) : (s.modCore k f).weave.evctr = s.weave.evctr := rfl
@[simp] theorem State.modCore_weave_nextId (s : State) (k : Nat) (f : Core → Core) : (s.modCore k f).weave.nextId = s.weave.nextId := rfl
@[simp] theorem State.modCore_weave_left (s : State) (k : Nat) (f : Core → Core) : (s.modCore k f).weave.left = s.weave.left := rfl

/-! ### setCluster -/

@[simp] theorem State.setCluster_ctl (s : State) (k : Nat) (x : Cluster) : (s.setCluster k x).ctl = s.ctl := rfl
@[simp] theorem State.setCluster_mem (s : State) (k : Nat) (x : Cluster) : (s.setCluster k x).mem = s.mem := rfl
@[simp] theorem State.setCluster_frame (s : State) (k : Nat) (x : Cluster) : (s.setCluster k x).frame = s.frame := rfl
@[simp] theorem State.setCluster_eng (s : State) (k : Nat) (x : Cluster) : (s.setCluster k x).eng = s.eng := rfl
@[simp] theorem State.setCluster_host (s : State) (k : Nat) (x : Cluster) : (s.setCluster k x).host = s.host := rfl
@[simp] theorem State.setCluster_weave_ctxs (s : State) (k : Nat) (x : Cluster) : (s.setCluster k x).weave.ctxs = s.weave.ctxs := rfl
@[simp] theorem State.setCluster_weave_cores (s : State) (k : Nat) (x : Cluster) : (s.setCluster k x).weave.cores = s.weave.cores := rfl
@[simp] theorem State.setCluster_weave_gangs (s : State) (k : Nat) (x : Cluster) : (s.setCluster k x).weave.gangs = s.weave.gangs := rfl
@[simp] theorem State.setCluster_weave_launches (s : State) (k : Nat) (x : Cluster) : (s.setCluster k x).weave.launches = s.weave.launches := rfl
@[simp] theorem State.setCluster_weave_dispatchers (s : State) (k : Nat) (x : Cluster) : (s.setCluster k x).weave.dispatchers = s.weave.dispatchers := rfl
@[simp] theorem State.setCluster_weave_evctr (s : State) (k : Nat) (x : Cluster) : (s.setCluster k x).weave.evctr = s.weave.evctr := rfl
@[simp] theorem State.setCluster_weave_nextId (s : State) (k : Nat) (x : Cluster) : (s.setCluster k x).weave.nextId = s.weave.nextId := rfl
@[simp] theorem State.setCluster_weave_left (s : State) (k : Nat) (x : Cluster) : (s.setCluster k x).weave.left = s.weave.left := rfl

/-! ### modCluster -/

@[simp] theorem State.modCluster_ctl (s : State) (k : Nat) (f : Cluster → Cluster) : (s.modCluster k f).ctl = s.ctl := rfl
@[simp] theorem State.modCluster_mem (s : State) (k : Nat) (f : Cluster → Cluster) : (s.modCluster k f).mem = s.mem := rfl
@[simp] theorem State.modCluster_frame (s : State) (k : Nat) (f : Cluster → Cluster) : (s.modCluster k f).frame = s.frame := rfl
@[simp] theorem State.modCluster_eng (s : State) (k : Nat) (f : Cluster → Cluster) : (s.modCluster k f).eng = s.eng := rfl
@[simp] theorem State.modCluster_host (s : State) (k : Nat) (f : Cluster → Cluster) : (s.modCluster k f).host = s.host := rfl
@[simp] theorem State.modCluster_weave_ctxs (s : State) (k : Nat) (f : Cluster → Cluster) : (s.modCluster k f).weave.ctxs = s.weave.ctxs := rfl
@[simp] theorem State.modCluster_weave_cores (s : State) (k : Nat) (f : Cluster → Cluster) : (s.modCluster k f).weave.cores = s.weave.cores := rfl
@[simp] theorem State.modCluster_weave_gangs (s : State) (k : Nat) (f : Cluster → Cluster) : (s.modCluster k f).weave.gangs = s.weave.gangs := rfl
@[simp] theorem State.modCluster_weave_launches (s : State) (k : Nat) (f : Cluster → Cluster) : (s.modCluster k f).weave.launches = s.weave.launches := rfl
@[simp] theorem State.modCluster_weave_dispatchers (s : State) (k : Nat) (f : Cluster → Cluster) : (s.modCluster k f).weave.dispatchers = s.weave.dispatchers := rfl
@[simp] theorem State.modCluster_weave_evctr (s : State) (k : Nat) (f : Cluster → Cluster) : (s.modCluster k f).weave.evctr = s.weave.evctr := rfl
@[simp] theorem State.modCluster_weave_nextId (s : State) (k : Nat) (f : Cluster → Cluster) : (s.modCluster k f).weave.nextId = s.weave.nextId := rfl
@[simp] theorem State.modCluster_weave_left (s : State) (k : Nat) (f : Cluster → Cluster) : (s.modCluster k f).weave.left = s.weave.left := rfl

/-! ### setGang -/

@[simp] theorem State.setGang_ctl (s : State) (g : Nat) (x : Gang) : (s.setGang g x).ctl = s.ctl := rfl
@[simp] theorem State.setGang_mem (s : State) (g : Nat) (x : Gang) : (s.setGang g x).mem = s.mem := rfl
@[simp] theorem State.setGang_frame (s : State) (g : Nat) (x : Gang) : (s.setGang g x).frame = s.frame := rfl
@[simp] theorem State.setGang_eng (s : State) (g : Nat) (x : Gang) : (s.setGang g x).eng = s.eng := rfl
@[simp] theorem State.setGang_host (s : State) (g : Nat) (x : Gang) : (s.setGang g x).host = s.host := rfl
@[simp] theorem State.setGang_weave_ctxs (s : State) (g : Nat) (x : Gang) : (s.setGang g x).weave.ctxs = s.weave.ctxs := rfl
@[simp] theorem State.setGang_weave_cores (s : State) (g : Nat) (x : Gang) : (s.setGang g x).weave.cores = s.weave.cores := rfl
@[simp] theorem State.setGang_weave_clusters (s : State) (g : Nat) (x : Gang) : (s.setGang g x).weave.clusters = s.weave.clusters := rfl
@[simp] theorem State.setGang_weave_launches (s : State) (g : Nat) (x : Gang) : (s.setGang g x).weave.launches = s.weave.launches := rfl
@[simp] theorem State.setGang_weave_dispatchers (s : State) (g : Nat) (x : Gang) : (s.setGang g x).weave.dispatchers = s.weave.dispatchers := rfl
@[simp] theorem State.setGang_weave_evctr (s : State) (g : Nat) (x : Gang) : (s.setGang g x).weave.evctr = s.weave.evctr := rfl
@[simp] theorem State.setGang_weave_nextId (s : State) (g : Nat) (x : Gang) : (s.setGang g x).weave.nextId = s.weave.nextId := rfl
@[simp] theorem State.setGang_weave_left (s : State) (g : Nat) (x : Gang) : (s.setGang g x).weave.left = s.weave.left := rfl

/-! ### setLaunch -/

@[simp] theorem State.setLaunch_ctl (s : State) (l : Nat) (x : Launch) : (s.setLaunch l x).ctl = s.ctl := rfl
@[simp] theorem State.setLaunch_mem (s : State) (l : Nat) (x : Launch) : (s.setLaunch l x).mem = s.mem := rfl
@[simp] theorem State.setLaunch_frame (s : State) (l : Nat) (x : Launch) : (s.setLaunch l x).frame = s.frame := rfl
@[simp] theorem State.setLaunch_eng (s : State) (l : Nat) (x : Launch) : (s.setLaunch l x).eng = s.eng := rfl
@[simp] theorem State.setLaunch_host (s : State) (l : Nat) (x : Launch) : (s.setLaunch l x).host = s.host := rfl
@[simp] theorem State.setLaunch_weave_ctxs (s : State) (l : Nat) (x : Launch) : (s.setLaunch l x).weave.ctxs = s.weave.ctxs := rfl
@[simp] theorem State.setLaunch_weave_cores (s : State) (l : Nat) (x : Launch) : (s.setLaunch l x).weave.cores = s.weave.cores := rfl
@[simp] theorem State.setLaunch_weave_clusters (s : State) (l : Nat) (x : Launch) : (s.setLaunch l x).weave.clusters = s.weave.clusters := rfl
@[simp] theorem State.setLaunch_weave_gangs (s : State) (l : Nat) (x : Launch) : (s.setLaunch l x).weave.gangs = s.weave.gangs := rfl
@[simp] theorem State.setLaunch_weave_dispatchers (s : State) (l : Nat) (x : Launch) : (s.setLaunch l x).weave.dispatchers = s.weave.dispatchers := rfl
@[simp] theorem State.setLaunch_weave_evctr (s : State) (l : Nat) (x : Launch) : (s.setLaunch l x).weave.evctr = s.weave.evctr := rfl
@[simp] theorem State.setLaunch_weave_nextId (s : State) (l : Nat) (x : Launch) : (s.setLaunch l x).weave.nextId = s.weave.nextId := rfl
@[simp] theorem State.setLaunch_weave_left (s : State) (l : Nat) (x : Launch) : (s.setLaunch l x).weave.left = s.weave.left := rfl

/-! ### signal -/

@[simp] theorem State.signal_ctl (s : State) (n : Nat) (v : W64) : (s.signal n v).ctl = s.ctl := rfl
@[simp] theorem State.signal_mem (s : State) (n : Nat) (v : W64) : (s.signal n v).mem = s.mem := rfl
@[simp] theorem State.signal_frame (s : State) (n : Nat) (v : W64) : (s.signal n v).frame = s.frame := rfl
@[simp] theorem State.signal_eng (s : State) (n : Nat) (v : W64) : (s.signal n v).eng = s.eng := rfl
@[simp] theorem State.signal_host (s : State) (n : Nat) (v : W64) : (s.signal n v).host = s.host := rfl
@[simp] theorem State.signal_weave_ctxs (s : State) (n : Nat) (v : W64) : (s.signal n v).weave.ctxs = s.weave.ctxs := rfl
@[simp] theorem State.signal_weave_cores (s : State) (n : Nat) (v : W64) : (s.signal n v).weave.cores = s.weave.cores := rfl
@[simp] theorem State.signal_weave_clusters (s : State) (n : Nat) (v : W64) : (s.signal n v).weave.clusters = s.weave.clusters := rfl
@[simp] theorem State.signal_weave_gangs (s : State) (n : Nat) (v : W64) : (s.signal n v).weave.gangs = s.weave.gangs := rfl
@[simp] theorem State.signal_weave_launches (s : State) (n : Nat) (v : W64) : (s.signal n v).weave.launches = s.weave.launches := rfl
@[simp] theorem State.signal_weave_dispatchers (s : State) (n : Nat) (v : W64) : (s.signal n v).weave.dispatchers = s.weave.dispatchers := rfl
@[simp] theorem State.signal_weave_nextId (s : State) (n : Nat) (v : W64) : (s.signal n v).weave.nextId = s.weave.nextId := rfl
@[simp] theorem State.signal_weave_left (s : State) (n : Nat) (v : W64) : (s.signal n v).weave.left = s.weave.left := rfl

/-! ### fresh -/

@[simp] theorem State.fresh_ctl (s : State) : s.fresh.ctl = s.ctl := rfl
@[simp] theorem State.fresh_mem (s : State) : s.fresh.mem = s.mem := rfl
@[simp] theorem State.fresh_frame (s : State) : s.fresh.frame = s.frame := rfl
@[simp] theorem State.fresh_eng (s : State) : s.fresh.eng = s.eng := rfl
@[simp] theorem State.fresh_host (s : State) : s.fresh.host = s.host := rfl
@[simp] theorem State.fresh_weave_ctxs (s : State) : s.fresh.weave.ctxs = s.weave.ctxs := rfl
@[simp] theorem State.fresh_weave_cores (s : State) : s.fresh.weave.cores = s.weave.cores := rfl
@[simp] theorem State.fresh_weave_clusters (s : State) : s.fresh.weave.clusters = s.weave.clusters := rfl
@[simp] theorem State.fresh_weave_gangs (s : State) : s.fresh.weave.gangs = s.weave.gangs := rfl
@[simp] theorem State.fresh_weave_launches (s : State) : s.fresh.weave.launches = s.weave.launches := rfl
@[simp] theorem State.fresh_weave_dispatchers (s : State) : s.fresh.weave.dispatchers = s.weave.dispatchers := rfl
@[simp] theorem State.fresh_weave_evctr (s : State) : s.fresh.weave.evctr = s.weave.evctr := rfl

/-! ### setBench -/

@[simp] theorem State.setBench_ctl (s : State) (b : Nat) (x : Bench) : (s.setBench b x).ctl = s.ctl := rfl
@[simp] theorem State.setBench_mem (s : State) (b : Nat) (x : Bench) : (s.setBench b x).mem = s.mem := rfl
@[simp] theorem State.setBench_weave (s : State) (b : Nat) (x : Bench) : (s.setBench b x).weave = s.weave := rfl
@[simp] theorem State.setBench_eng (s : State) (b : Nat) (x : Bench) : (s.setBench b x).eng = s.eng := rfl
@[simp] theorem State.setBench_host (s : State) (b : Nat) (x : Bench) : (s.setBench b x).host = s.host := rfl
@[simp] theorem State.setBench_frame_running (s : State) (b : Nat) (x : Bench) : (s.setBench b x).frame.running = s.frame.running := rfl
@[simp] theorem State.setBench_frame_launch (s : State) (b : Nat) (x : Bench) : (s.setBench b x).frame.launch = s.frame.launch := rfl
@[simp] theorem State.setBench_frame_pending (s : State) (b : Nat) (x : Bench) : (s.setBench b x).frame.pending = s.frame.pending := rfl
@[simp] theorem State.setBench_frame_fcnt (s : State) (b : Nat) (x : Bench) : (s.setBench b x).frame.fcnt = s.frame.fcnt := rfl
@[simp] theorem State.setBench_frame_flen (s : State) (b : Nat) (x : Bench) : (s.setBench b x).frame.flen = s.frame.flen := rfl
@[simp] theorem State.setBench_frame_pausebnd (s : State) (b : Nat) (x : Bench) : (s.setBench b x).frame.pausebnd = s.frame.pausebnd := rfl
@[simp] theorem State.setBench_frame_holdmax (s : State) (b : Nat) (x : Bench) : (s.setBench b x).frame.holdmax = s.frame.holdmax := rfl
@[simp] theorem State.setBench_frame_total (s : State) (b : Nat) (x : Bench) : (s.setBench b x).frame.total = s.frame.total := rfl
@[simp] theorem State.setBench_frame_next (s : State) (b : Nat) (x : Bench) : (s.setBench b x).frame.next = s.frame.next := rfl
@[simp] theorem State.setBench_frame_slip (s : State) (b : Nat) (x : Bench) : (s.setBench b x).frame.slip = s.frame.slip := rfl
@[simp] theorem State.setBench_frame_slipsNow (s : State) (b : Nat) (x : Bench) : (s.setBench b x).frame.slipsNow = s.frame.slipsNow := rfl
@[simp] theorem State.setBench_frame_held (s : State) (b : Nat) (x : Bench) : (s.setBench b x).frame.held = s.frame.held := rfl
@[simp] theorem State.setBench_frame_heldHere (s : State) (b : Nat) (x : Bench) : (s.setBench b x).frame.heldHere = s.frame.heldHere := rfl
@[simp] theorem State.setBench_frame_holdSlots (s : State) (b : Nat) (x : Bench) : (s.setBench b x).frame.holdSlots = s.frame.holdSlots := rfl
@[simp] theorem State.setBench_frame_causes (s : State) (b : Nat) (x : Bench) : (s.setBench b x).frame.causes = s.frame.causes := rfl
@[simp] theorem State.setBench_frame_tested (s : State) (b : Nat) (x : Bench) : (s.setBench b x).frame.tested = s.frame.tested := rfl
@[simp] theorem State.setBench_frame_sub (s : State) (b : Nat) (x : Bench) : (s.setBench b x).frame.sub = s.frame.sub := rfl
@[simp] theorem State.setBench_frame_openM (s : State) (b : Nat) (x : Bench) : (s.setBench b x).frame.openM = s.frame.openM := rfl
@[simp] theorem State.setBench_frame_posts (s : State) (b : Nat) (x : Bench) : (s.setBench b x).frame.posts = s.frame.posts := rfl
@[simp] theorem State.setBench_frame_staged (s : State) (b : Nat) (x : Bench) : (s.setBench b x).frame.staged = s.frame.staged := rfl
@[simp] theorem State.setBench_frame_latches (s : State) (b : Nat) (x : Bench) : (s.setBench b x).frame.latches = s.frame.latches := rfl
@[simp] theorem State.setBench_frame_tenonHeld (s : State) (b : Nat) (x : Bench) : (s.setBench b x).frame.tenonHeld = s.frame.tenonHeld := rfl
@[simp] theorem State.setBench_frame_pinned (s : State) (b : Nat) (x : Bench) : (s.setBench b x).frame.pinned = s.frame.pinned := rfl
@[simp] theorem State.setBench_frame_channels (s : State) (b : Nat) (x : Bench) : (s.setBench b x).frame.channels = s.frame.channels := rfl
@[simp] theorem State.setBench_frame_copies (s : State) (b : Nat) (x : Bench) : (s.setBench b x).frame.copies = s.frame.copies := rfl
@[simp] theorem State.setBench_frame_lateLinks (s : State) (b : Nat) (x : Bench) : (s.setBench b x).frame.lateLinks = s.frame.lateLinks := rfl
@[simp] theorem State.setBench_frame_lpass (s : State) (b : Nat) (x : Bench) : (s.setBench b x).frame.lpass = s.frame.lpass := rfl
@[simp] theorem State.setBench_frame_slotTaken (s : State) (b : Nat) (x : Bench) : (s.setBench b x).frame.slotTaken = s.frame.slotTaken := rfl
@[simp] theorem State.setBench_frame_ringView (s : State) (b : Nat) (x : Bench) : (s.setBench b x).frame.ringView = s.frame.ringView := rfl
@[simp] theorem State.setBench_frame_ringViewN (s : State) (b : Nat) (x : Bench) : (s.setBench b x).frame.ringViewN = s.frame.ringViewN := rfl
@[simp] theorem State.setBench_frame_ends (s : State) (b : Nat) (x : Bench) : (s.setBench b x).frame.ends = s.frame.ends := rfl
@[simp] theorem State.setBench_frame_subs (s : State) (b : Nat) (x : Bench) : (s.setBench b x).frame.subs = s.frame.subs := rfl
@[simp] theorem State.setBench_frame_advances (s : State) (b : Nat) (x : Bench) : (s.setBench b x).frame.advances = s.frame.advances := rfl
@[simp] theorem State.setBench_frame_faults (s : State) (b : Nat) (x : Bench) : (s.setBench b x).frame.faults = s.frame.faults := rfl
@[simp] theorem State.setBench_frame_endAt (s : State) (b : Nat) (x : Bench) : (s.setBench b x).frame.endAt = s.frame.endAt := rfl
@[simp] theorem State.setBench_frame_pauseReq (s : State) (b : Nat) (x : Bench) : (s.setBench b x).frame.pauseReq = s.frame.pauseReq := rfl
@[simp] theorem State.setBench_frame_pauseFrom (s : State) (b : Nat) (x : Bench) : (s.setBench b x).frame.pauseFrom = s.frame.pauseFrom := rfl
@[simp] theorem State.setBench_frame_pauseAsked (s : State) (b : Nat) (x : Bench) : (s.setBench b x).frame.pauseAsked = s.frame.pauseAsked := rfl
@[simp] theorem State.setBench_frame_settling (s : State) (b : Nat) (x : Bench) : (s.setBench b x).frame.settling = s.frame.settling := rfl
@[simp] theorem State.setBench_frame_remoteSlot (s : State) (b : Nat) (x : Bench) : (s.setBench b x).frame.remoteSlot = s.frame.remoteSlot := rfl
@[simp] theorem State.setBench_frame_wrote (s : State) (b : Nat) (x : Bench) : (s.setBench b x).frame.wrote = s.frame.wrote := rfl
@[simp] theorem State.setBench_frame_flagEcc (s : State) (b : Nat) (x : Bench) : (s.setBench b x).frame.flagEcc = s.frame.flagEcc := rfl

/-! ### modBench -/

@[simp] theorem State.modBench_ctl (s : State) (b : Nat) (f : Bench → Bench) : (s.modBench b f).ctl = s.ctl := rfl
@[simp] theorem State.modBench_mem (s : State) (b : Nat) (f : Bench → Bench) : (s.modBench b f).mem = s.mem := rfl
@[simp] theorem State.modBench_weave (s : State) (b : Nat) (f : Bench → Bench) : (s.modBench b f).weave = s.weave := rfl
@[simp] theorem State.modBench_eng (s : State) (b : Nat) (f : Bench → Bench) : (s.modBench b f).eng = s.eng := rfl
@[simp] theorem State.modBench_host (s : State) (b : Nat) (f : Bench → Bench) : (s.modBench b f).host = s.host := rfl
@[simp] theorem State.modBench_frame_running (s : State) (b : Nat) (f : Bench → Bench) : (s.modBench b f).frame.running = s.frame.running := rfl
@[simp] theorem State.modBench_frame_launch (s : State) (b : Nat) (f : Bench → Bench) : (s.modBench b f).frame.launch = s.frame.launch := rfl
@[simp] theorem State.modBench_frame_pending (s : State) (b : Nat) (f : Bench → Bench) : (s.modBench b f).frame.pending = s.frame.pending := rfl
@[simp] theorem State.modBench_frame_fcnt (s : State) (b : Nat) (f : Bench → Bench) : (s.modBench b f).frame.fcnt = s.frame.fcnt := rfl
@[simp] theorem State.modBench_frame_flen (s : State) (b : Nat) (f : Bench → Bench) : (s.modBench b f).frame.flen = s.frame.flen := rfl
@[simp] theorem State.modBench_frame_pausebnd (s : State) (b : Nat) (f : Bench → Bench) : (s.modBench b f).frame.pausebnd = s.frame.pausebnd := rfl
@[simp] theorem State.modBench_frame_holdmax (s : State) (b : Nat) (f : Bench → Bench) : (s.modBench b f).frame.holdmax = s.frame.holdmax := rfl
@[simp] theorem State.modBench_frame_total (s : State) (b : Nat) (f : Bench → Bench) : (s.modBench b f).frame.total = s.frame.total := rfl
@[simp] theorem State.modBench_frame_next (s : State) (b : Nat) (f : Bench → Bench) : (s.modBench b f).frame.next = s.frame.next := rfl
@[simp] theorem State.modBench_frame_slip (s : State) (b : Nat) (f : Bench → Bench) : (s.modBench b f).frame.slip = s.frame.slip := rfl
@[simp] theorem State.modBench_frame_slipsNow (s : State) (b : Nat) (f : Bench → Bench) : (s.modBench b f).frame.slipsNow = s.frame.slipsNow := rfl
@[simp] theorem State.modBench_frame_held (s : State) (b : Nat) (f : Bench → Bench) : (s.modBench b f).frame.held = s.frame.held := rfl
@[simp] theorem State.modBench_frame_heldHere (s : State) (b : Nat) (f : Bench → Bench) : (s.modBench b f).frame.heldHere = s.frame.heldHere := rfl
@[simp] theorem State.modBench_frame_holdSlots (s : State) (b : Nat) (f : Bench → Bench) : (s.modBench b f).frame.holdSlots = s.frame.holdSlots := rfl
@[simp] theorem State.modBench_frame_causes (s : State) (b : Nat) (f : Bench → Bench) : (s.modBench b f).frame.causes = s.frame.causes := rfl
@[simp] theorem State.modBench_frame_tested (s : State) (b : Nat) (f : Bench → Bench) : (s.modBench b f).frame.tested = s.frame.tested := rfl
@[simp] theorem State.modBench_frame_sub (s : State) (b : Nat) (f : Bench → Bench) : (s.modBench b f).frame.sub = s.frame.sub := rfl
@[simp] theorem State.modBench_frame_openM (s : State) (b : Nat) (f : Bench → Bench) : (s.modBench b f).frame.openM = s.frame.openM := rfl
@[simp] theorem State.modBench_frame_posts (s : State) (b : Nat) (f : Bench → Bench) : (s.modBench b f).frame.posts = s.frame.posts := rfl
@[simp] theorem State.modBench_frame_staged (s : State) (b : Nat) (f : Bench → Bench) : (s.modBench b f).frame.staged = s.frame.staged := rfl
@[simp] theorem State.modBench_frame_latches (s : State) (b : Nat) (f : Bench → Bench) : (s.modBench b f).frame.latches = s.frame.latches := rfl
@[simp] theorem State.modBench_frame_tenonHeld (s : State) (b : Nat) (f : Bench → Bench) : (s.modBench b f).frame.tenonHeld = s.frame.tenonHeld := rfl
@[simp] theorem State.modBench_frame_pinned (s : State) (b : Nat) (f : Bench → Bench) : (s.modBench b f).frame.pinned = s.frame.pinned := rfl
@[simp] theorem State.modBench_frame_channels (s : State) (b : Nat) (f : Bench → Bench) : (s.modBench b f).frame.channels = s.frame.channels := rfl
@[simp] theorem State.modBench_frame_copies (s : State) (b : Nat) (f : Bench → Bench) : (s.modBench b f).frame.copies = s.frame.copies := rfl
@[simp] theorem State.modBench_frame_lateLinks (s : State) (b : Nat) (f : Bench → Bench) : (s.modBench b f).frame.lateLinks = s.frame.lateLinks := rfl
@[simp] theorem State.modBench_frame_lpass (s : State) (b : Nat) (f : Bench → Bench) : (s.modBench b f).frame.lpass = s.frame.lpass := rfl
@[simp] theorem State.modBench_frame_slotTaken (s : State) (b : Nat) (f : Bench → Bench) : (s.modBench b f).frame.slotTaken = s.frame.slotTaken := rfl
@[simp] theorem State.modBench_frame_ringView (s : State) (b : Nat) (f : Bench → Bench) : (s.modBench b f).frame.ringView = s.frame.ringView := rfl
@[simp] theorem State.modBench_frame_ringViewN (s : State) (b : Nat) (f : Bench → Bench) : (s.modBench b f).frame.ringViewN = s.frame.ringViewN := rfl
@[simp] theorem State.modBench_frame_ends (s : State) (b : Nat) (f : Bench → Bench) : (s.modBench b f).frame.ends = s.frame.ends := rfl
@[simp] theorem State.modBench_frame_subs (s : State) (b : Nat) (f : Bench → Bench) : (s.modBench b f).frame.subs = s.frame.subs := rfl
@[simp] theorem State.modBench_frame_advances (s : State) (b : Nat) (f : Bench → Bench) : (s.modBench b f).frame.advances = s.frame.advances := rfl
@[simp] theorem State.modBench_frame_faults (s : State) (b : Nat) (f : Bench → Bench) : (s.modBench b f).frame.faults = s.frame.faults := rfl
@[simp] theorem State.modBench_frame_endAt (s : State) (b : Nat) (f : Bench → Bench) : (s.modBench b f).frame.endAt = s.frame.endAt := rfl
@[simp] theorem State.modBench_frame_pauseReq (s : State) (b : Nat) (f : Bench → Bench) : (s.modBench b f).frame.pauseReq = s.frame.pauseReq := rfl
@[simp] theorem State.modBench_frame_pauseFrom (s : State) (b : Nat) (f : Bench → Bench) : (s.modBench b f).frame.pauseFrom = s.frame.pauseFrom := rfl
@[simp] theorem State.modBench_frame_pauseAsked (s : State) (b : Nat) (f : Bench → Bench) : (s.modBench b f).frame.pauseAsked = s.frame.pauseAsked := rfl
@[simp] theorem State.modBench_frame_settling (s : State) (b : Nat) (f : Bench → Bench) : (s.modBench b f).frame.settling = s.frame.settling := rfl
@[simp] theorem State.modBench_frame_remoteSlot (s : State) (b : Nat) (f : Bench → Bench) : (s.modBench b f).frame.remoteSlot = s.frame.remoteSlot := rfl
@[simp] theorem State.modBench_frame_wrote (s : State) (b : Nat) (f : Bench → Bench) : (s.modBench b f).frame.wrote = s.frame.wrote := rfl
@[simp] theorem State.modBench_frame_flagEcc (s : State) (b : Nat) (f : Bench → Bench) : (s.modBench b f).frame.flagEcc = s.frame.flagEcc := rfl

/-! ### faultFrame -/

@[simp] theorem State.faultFrame_ctl (s : State) (f : FaultCause) : (s.faultFrame f).ctl = s.ctl := rfl
@[simp] theorem State.faultFrame_mem (s : State) (f : FaultCause) : (s.faultFrame f).mem = s.mem := rfl
@[simp] theorem State.faultFrame_weave (s : State) (f : FaultCause) : (s.faultFrame f).weave = s.weave := rfl
@[simp] theorem State.faultFrame_eng (s : State) (f : FaultCause) : (s.faultFrame f).eng = s.eng := rfl
@[simp] theorem State.faultFrame_host (s : State) (f : FaultCause) : (s.faultFrame f).host = s.host := rfl
@[simp] theorem State.faultFrame_frame_running (s : State) (f : FaultCause) : (s.faultFrame f).frame.running = s.frame.running := rfl
@[simp] theorem State.faultFrame_frame_launch (s : State) (f : FaultCause) : (s.faultFrame f).frame.launch = s.frame.launch := rfl
@[simp] theorem State.faultFrame_frame_pending (s : State) (f : FaultCause) : (s.faultFrame f).frame.pending = s.frame.pending := rfl
@[simp] theorem State.faultFrame_frame_fcnt (s : State) (f : FaultCause) : (s.faultFrame f).frame.fcnt = s.frame.fcnt := rfl
@[simp] theorem State.faultFrame_frame_flen (s : State) (f : FaultCause) : (s.faultFrame f).frame.flen = s.frame.flen := rfl
@[simp] theorem State.faultFrame_frame_pausebnd (s : State) (f : FaultCause) : (s.faultFrame f).frame.pausebnd = s.frame.pausebnd := rfl
@[simp] theorem State.faultFrame_frame_holdmax (s : State) (f : FaultCause) : (s.faultFrame f).frame.holdmax = s.frame.holdmax := rfl
@[simp] theorem State.faultFrame_frame_total (s : State) (f : FaultCause) : (s.faultFrame f).frame.total = s.frame.total := rfl
@[simp] theorem State.faultFrame_frame_next (s : State) (f : FaultCause) : (s.faultFrame f).frame.next = s.frame.next := rfl
@[simp] theorem State.faultFrame_frame_slip (s : State) (f : FaultCause) : (s.faultFrame f).frame.slip = s.frame.slip := rfl
@[simp] theorem State.faultFrame_frame_slipsNow (s : State) (f : FaultCause) : (s.faultFrame f).frame.slipsNow = s.frame.slipsNow := rfl
@[simp] theorem State.faultFrame_frame_held (s : State) (f : FaultCause) : (s.faultFrame f).frame.held = s.frame.held := rfl
@[simp] theorem State.faultFrame_frame_heldHere (s : State) (f : FaultCause) : (s.faultFrame f).frame.heldHere = s.frame.heldHere := rfl
@[simp] theorem State.faultFrame_frame_holdSlots (s : State) (f : FaultCause) : (s.faultFrame f).frame.holdSlots = s.frame.holdSlots := rfl
@[simp] theorem State.faultFrame_frame_causes (s : State) (f : FaultCause) : (s.faultFrame f).frame.causes = s.frame.causes := rfl
@[simp] theorem State.faultFrame_frame_tested (s : State) (f : FaultCause) : (s.faultFrame f).frame.tested = s.frame.tested := rfl
@[simp] theorem State.faultFrame_frame_sub (s : State) (f : FaultCause) : (s.faultFrame f).frame.sub = s.frame.sub := rfl
@[simp] theorem State.faultFrame_frame_openM (s : State) (f : FaultCause) : (s.faultFrame f).frame.openM = s.frame.openM := rfl
@[simp] theorem State.faultFrame_frame_posts (s : State) (f : FaultCause) : (s.faultFrame f).frame.posts = s.frame.posts := rfl
@[simp] theorem State.faultFrame_frame_staged (s : State) (f : FaultCause) : (s.faultFrame f).frame.staged = s.frame.staged := rfl
@[simp] theorem State.faultFrame_frame_latches (s : State) (f : FaultCause) : (s.faultFrame f).frame.latches = s.frame.latches := rfl
@[simp] theorem State.faultFrame_frame_tenonHeld (s : State) (f : FaultCause) : (s.faultFrame f).frame.tenonHeld = s.frame.tenonHeld := rfl
@[simp] theorem State.faultFrame_frame_pinned (s : State) (f : FaultCause) : (s.faultFrame f).frame.pinned = s.frame.pinned := rfl
@[simp] theorem State.faultFrame_frame_channels (s : State) (f : FaultCause) : (s.faultFrame f).frame.channels = s.frame.channels := rfl
@[simp] theorem State.faultFrame_frame_copies (s : State) (f : FaultCause) : (s.faultFrame f).frame.copies = s.frame.copies := rfl
@[simp] theorem State.faultFrame_frame_lateLinks (s : State) (f : FaultCause) : (s.faultFrame f).frame.lateLinks = s.frame.lateLinks := rfl
@[simp] theorem State.faultFrame_frame_lpass (s : State) (f : FaultCause) : (s.faultFrame f).frame.lpass = s.frame.lpass := rfl
@[simp] theorem State.faultFrame_frame_slotTaken (s : State) (f : FaultCause) : (s.faultFrame f).frame.slotTaken = s.frame.slotTaken := rfl
@[simp] theorem State.faultFrame_frame_ringView (s : State) (f : FaultCause) : (s.faultFrame f).frame.ringView = s.frame.ringView := rfl
@[simp] theorem State.faultFrame_frame_ringViewN (s : State) (f : FaultCause) : (s.faultFrame f).frame.ringViewN = s.frame.ringViewN := rfl
@[simp] theorem State.faultFrame_frame_ends (s : State) (f : FaultCause) : (s.faultFrame f).frame.ends = s.frame.ends := rfl
@[simp] theorem State.faultFrame_frame_subs (s : State) (f : FaultCause) : (s.faultFrame f).frame.subs = s.frame.subs := rfl
@[simp] theorem State.faultFrame_frame_advances (s : State) (f : FaultCause) : (s.faultFrame f).frame.advances = s.frame.advances := rfl
@[simp] theorem State.faultFrame_frame_benches (s : State) (f : FaultCause) : (s.faultFrame f).frame.benches = s.frame.benches := rfl
@[simp] theorem State.faultFrame_frame_endAt (s : State) (f : FaultCause) : (s.faultFrame f).frame.endAt = s.frame.endAt := rfl
@[simp] theorem State.faultFrame_frame_pauseReq (s : State) (f : FaultCause) : (s.faultFrame f).frame.pauseReq = s.frame.pauseReq := rfl
@[simp] theorem State.faultFrame_frame_pauseFrom (s : State) (f : FaultCause) : (s.faultFrame f).frame.pauseFrom = s.frame.pauseFrom := rfl
@[simp] theorem State.faultFrame_frame_pauseAsked (s : State) (f : FaultCause) : (s.faultFrame f).frame.pauseAsked = s.frame.pauseAsked := rfl
@[simp] theorem State.faultFrame_frame_settling (s : State) (f : FaultCause) : (s.faultFrame f).frame.settling = s.frame.settling := rfl
@[simp] theorem State.faultFrame_frame_remoteSlot (s : State) (f : FaultCause) : (s.faultFrame f).frame.remoteSlot = s.frame.remoteSlot := rfl
@[simp] theorem State.faultFrame_frame_wrote (s : State) (f : FaultCause) : (s.faultFrame f).frame.wrote = s.frame.wrote := rfl
@[simp] theorem State.faultFrame_frame_flagEcc (s : State) (f : FaultCause) : (s.faultFrame f).frame.flagEcc = s.frame.flagEcc := rfl

/-! ### setQueue -/

@[simp] theorem State.setQueue_ctl (s : State) (q : Nat) (x : Queue) : (s.setQueue q x).ctl = s.ctl := rfl
@[simp] theorem State.setQueue_mem (s : State) (q : Nat) (x : Queue) : (s.setQueue q x).mem = s.mem := rfl
@[simp] theorem State.setQueue_weave (s : State) (q : Nat) (x : Queue) : (s.setQueue q x).weave = s.weave := rfl
@[simp] theorem State.setQueue_frame (s : State) (q : Nat) (x : Queue) : (s.setQueue q x).frame = s.frame := rfl
@[simp] theorem State.setQueue_eng (s : State) (q : Nat) (x : Queue) : (s.setQueue q x).eng = s.eng := rfl
@[simp] theorem State.setQueue_host_bootstat (s : State) (q : Nat) (x : Queue) : (s.setQueue q x).host.bootstat = s.host.bootstat := rfl
@[simp] theorem State.setQueue_host_pcap (s : State) (q : Nat) (x : Queue) : (s.setQueue q x).host.pcap = s.host.pcap := rfl
@[simp] theorem State.setQueue_host_fclkreq (s : State) (q : Nat) (x : Queue) : (s.setQueue q x).host.fclkreq = s.host.fclkreq := rfl
@[simp] theorem State.setQueue_host_fclk (s : State) (q : Nat) (x : Queue) : (s.setQueue q x).host.fclk = s.host.fclk := rfl
@[simp] theorem State.setQueue_host_fclkGot (s : State) (q : Nat) (x : Queue) : (s.setQueue q x).host.fclkGot = s.host.fclkGot := rfl
@[simp] theorem State.setQueue_host_asidtb (s : State) (q : Nat) (x : Queue) : (s.setQueue q x).host.asidtb = s.host.asidtb := rfl
@[simp] theorem State.setQueue_host_cmplo (s : State) (q : Nat) (x : Queue) : (s.setQueue q x).host.cmplo = s.host.cmplo := rfl
@[simp] theorem State.setQueue_host_cmphi (s : State) (q : Nat) (x : Queue) : (s.setQueue q x).host.cmphi = s.host.cmphi := rfl
@[simp] theorem State.setQueue_host_mdbase (s : State) (q : Nat) (x : Queue) : (s.setQueue q x).host.mdbase = s.host.mdbase := rfl
@[simp] theorem State.setQueue_host_alignctl (s : State) (q : Nat) (x : Queue) : (s.setQueue q x).host.alignctl = s.host.alignctl := rfl
@[simp] theorem State.setQueue_host_alignstat (s : State) (q : Nat) (x : Queue) : (s.setQueue q x).host.alignstat = s.host.alignstat := rfl
@[simp] theorem State.setQueue_host_aligning (s : State) (q : Nat) (x : Queue) : (s.setQueue q x).host.aligning = s.host.aligning := rfl
@[simp] theorem State.setQueue_host_ports (s : State) (q : Nat) (x : Queue) : (s.setQueue q x).host.ports = s.host.ports := rfl
@[simp] theorem State.setQueue_host_splport (s : State) (q : Nat) (x : Queue) : (s.setQueue q x).host.splport = s.host.splport := rfl
@[simp] theorem State.setQueue_host_ccspill (s : State) (q : Nat) (x : Queue) : (s.setQueue q x).host.ccspill = s.host.ccspill := rfl
@[simp] theorem State.setQueue_host_ccstat (s : State) (q : Nat) (x : Queue) : (s.setQueue q x).host.ccstat = s.host.ccstat := rfl
@[simp] theorem State.setQueue_host_ccdesc (s : State) (q : Nat) (x : Queue) : (s.setQueue q x).host.ccdesc = s.host.ccdesc := rfl
@[simp] theorem State.setQueue_host_ccCmd (s : State) (q : Nat) (x : Queue) : (s.setQueue q x).host.ccCmd = s.host.ccCmd := rfl
@[simp] theorem State.setQueue_host_lifeNow (s : State) (q : Nat) (x : Queue) : (s.setQueue q x).host.lifeNow = s.host.lifeNow := rfl
@[simp] theorem State.setQueue_host_life (s : State) (q : Nat) (x : Queue) : (s.setQueue q x).host.life = s.host.life := rfl
@[simp] theorem State.setQueue_host_msi (s : State) (q : Nat) (x : Queue) : (s.setQueue q x).host.msi = s.host.msi := rfl
@[simp] theorem State.setQueue_host_ready (s : State) (q : Nat) (x : Queue) : (s.setQueue q x).host.ready = s.host.ready := rfl
@[simp] theorem State.setQueue_host_startIn (s : State) (q : Nat) (x : Queue) : (s.setQueue q x).host.startIn = s.host.startIn := rfl
@[simp] theorem State.setQueue_host_notices (s : State) (q : Nat) (x : Queue) : (s.setQueue q x).host.notices = s.host.notices := rfl
@[simp] theorem State.setQueue_host_parked (s : State) (q : Nat) (x : Queue) : (s.setQueue q x).host.parked = s.host.parked := rfl
@[simp] theorem State.setQueue_host_resuming (s : State) (q : Nat) (x : Queue) : (s.setQueue q x).host.resuming = s.host.resuming := rfl
@[simp] theorem State.setQueue_host_busyReply (s : State) (q : Nat) (x : Queue) : (s.setQueue q x).host.busyReply = s.host.busyReply := rfl
@[simp] theorem State.setQueue_host_unsupported (s : State) (q : Nat) (x : Queue) : (s.setQueue q x).host.unsupported = s.host.unsupported := rfl
@[simp] theorem State.setQueue_host_reply (s : State) (q : Nat) (x : Queue) : (s.setQueue q x).host.reply = s.host.reply := rfl

/-! ### life -/

@[simp] theorem State.life_ctl (s : State) (w n : Nat) : (s.life w n).ctl = s.ctl := rfl
@[simp] theorem State.life_mem (s : State) (w n : Nat) : (s.life w n).mem = s.mem := rfl
@[simp] theorem State.life_weave (s : State) (w n : Nat) : (s.life w n).weave = s.weave := rfl
@[simp] theorem State.life_frame (s : State) (w n : Nat) : (s.life w n).frame = s.frame := rfl
@[simp] theorem State.life_eng (s : State) (w n : Nat) : (s.life w n).eng = s.eng := rfl
@[simp] theorem State.life_host_queues (s : State) (w n : Nat) : (s.life w n).host.queues = s.host.queues := rfl
@[simp] theorem State.life_host_bootstat (s : State) (w n : Nat) : (s.life w n).host.bootstat = s.host.bootstat := rfl
@[simp] theorem State.life_host_pcap (s : State) (w n : Nat) : (s.life w n).host.pcap = s.host.pcap := rfl
@[simp] theorem State.life_host_fclkreq (s : State) (w n : Nat) : (s.life w n).host.fclkreq = s.host.fclkreq := rfl
@[simp] theorem State.life_host_fclk (s : State) (w n : Nat) : (s.life w n).host.fclk = s.host.fclk := rfl
@[simp] theorem State.life_host_fclkGot (s : State) (w n : Nat) : (s.life w n).host.fclkGot = s.host.fclkGot := rfl
@[simp] theorem State.life_host_asidtb (s : State) (w n : Nat) : (s.life w n).host.asidtb = s.host.asidtb := rfl
@[simp] theorem State.life_host_cmplo (s : State) (w n : Nat) : (s.life w n).host.cmplo = s.host.cmplo := rfl
@[simp] theorem State.life_host_cmphi (s : State) (w n : Nat) : (s.life w n).host.cmphi = s.host.cmphi := rfl
@[simp] theorem State.life_host_mdbase (s : State) (w n : Nat) : (s.life w n).host.mdbase = s.host.mdbase := rfl
@[simp] theorem State.life_host_alignctl (s : State) (w n : Nat) : (s.life w n).host.alignctl = s.host.alignctl := rfl
@[simp] theorem State.life_host_alignstat (s : State) (w n : Nat) : (s.life w n).host.alignstat = s.host.alignstat := rfl
@[simp] theorem State.life_host_aligning (s : State) (w n : Nat) : (s.life w n).host.aligning = s.host.aligning := rfl
@[simp] theorem State.life_host_ports (s : State) (w n : Nat) : (s.life w n).host.ports = s.host.ports := rfl
@[simp] theorem State.life_host_splport (s : State) (w n : Nat) : (s.life w n).host.splport = s.host.splport := rfl
@[simp] theorem State.life_host_ccspill (s : State) (w n : Nat) : (s.life w n).host.ccspill = s.host.ccspill := rfl
@[simp] theorem State.life_host_ccstat (s : State) (w n : Nat) : (s.life w n).host.ccstat = s.host.ccstat := rfl
@[simp] theorem State.life_host_ccdesc (s : State) (w n : Nat) : (s.life w n).host.ccdesc = s.host.ccdesc := rfl
@[simp] theorem State.life_host_ccCmd (s : State) (w n : Nat) : (s.life w n).host.ccCmd = s.host.ccCmd := rfl
@[simp] theorem State.life_host_life (s : State) (w n : Nat) : (s.life w n).host.life = s.host.life := rfl
@[simp] theorem State.life_host_msi (s : State) (w n : Nat) : (s.life w n).host.msi = s.host.msi := rfl
@[simp] theorem State.life_host_ready (s : State) (w n : Nat) : (s.life w n).host.ready = s.host.ready := rfl
@[simp] theorem State.life_host_startIn (s : State) (w n : Nat) : (s.life w n).host.startIn = s.host.startIn := rfl
@[simp] theorem State.life_host_notices (s : State) (w n : Nat) : (s.life w n).host.notices = s.host.notices := rfl
@[simp] theorem State.life_host_parked (s : State) (w n : Nat) : (s.life w n).host.parked = s.host.parked := rfl
@[simp] theorem State.life_host_resuming (s : State) (w n : Nat) : (s.life w n).host.resuming = s.host.resuming := rfl
@[simp] theorem State.life_host_busyReply (s : State) (w n : Nat) : (s.life w n).host.busyReply = s.host.busyReply := rfl
@[simp] theorem State.life_host_unsupported (s : State) (w n : Nat) : (s.life w n).host.unsupported = s.host.unsupported := rfl
@[simp] theorem State.life_host_reply (s : State) (w n : Nat) : (s.life w n).host.reply = s.host.reply := rfl

/-! ### setGroup -/

@[simp] theorem State.setGroup_ctl (s : State) (g : Nat) (x : Group) : (s.setGroup g x).ctl = s.ctl := rfl
@[simp] theorem State.setGroup_mem (s : State) (g : Nat) (x : Group) : (s.setGroup g x).mem = s.mem := rfl
@[simp] theorem State.setGroup_weave (s : State) (g : Nat) (x : Group) : (s.setGroup g x).weave = s.weave := rfl
@[simp] theorem State.setGroup_frame (s : State) (g : Nat) (x : Group) : (s.setGroup g x).frame = s.frame := rfl
@[simp] theorem State.setGroup_host (s : State) (g : Nat) (x : Group) : (s.setGroup g x).host = s.host := rfl
@[simp] theorem State.setGroup_eng_switch (s : State) (g : Nat) (x : Group) : (s.setGroup g x).eng.switch = s.eng.switch := rfl
@[simp] theorem State.setGroup_eng_ring (s : State) (g : Nat) (x : Group) : (s.setGroup g x).eng.ring = s.eng.ring := rfl
@[simp] theorem State.setGroup_eng_ringN (s : State) (g : Nat) (x : Group) : (s.setGroup g x).eng.ringN = s.eng.ringN := rfl
@[simp] theorem State.setGroup_eng_companders (s : State) (g : Nat) (x : Group) : (s.setGroup g x).eng.companders = s.eng.companders := rfl
@[simp] theorem State.setGroup_eng_reqs (s : State) (g : Nat) (x : Group) : (s.setGroup g x).eng.reqs = s.eng.reqs := rfl
@[simp] theorem State.setGroup_eng_conns (s : State) (g : Nat) (x : Group) : (s.setGroup g x).eng.conns = s.eng.conns := rfl
@[simp] theorem State.setGroup_eng_sdva (s : State) (g : Nat) (x : Group) : (s.setGroup g x).eng.sdva = s.eng.sdva := rfl
@[simp] theorem State.setGroup_eng_sdstat (s : State) (g : Nat) (x : Group) : (s.setGroup g x).eng.sdstat = s.eng.sdstat := rfl
@[simp] theorem State.setGroup_eng_sdq (s : State) (g : Nat) (x : Group) : (s.setGroup g x).eng.sdq = s.eng.sdq := rfl
@[simp] theorem State.setGroup_eng_outbox (s : State) (g : Nat) (x : Group) : (s.setGroup g x).eng.outbox = s.eng.outbox := rfl

/-! ### push -/

@[simp] theorem State.push_mem (s : State) (as : List Act) : (s.push as).mem = s.mem := rfl
@[simp] theorem State.push_weave (s : State) (as : List Act) : (s.push as).weave = s.weave := rfl
@[simp] theorem State.push_frame (s : State) (as : List Act) : (s.push as).frame = s.frame := rfl
@[simp] theorem State.push_eng (s : State) (as : List Act) : (s.push as).eng = s.eng := rfl
@[simp] theorem State.push_host (s : State) (as : List Act) : (s.push as).host = s.host := rfl
@[simp] theorem State.push_ctl_cur (s : State) (as : List Act) : (s.push as).ctl.cur = s.ctl.cur := rfl
@[simp] theorem State.push_ctl_group (s : State) (as : List Act) : (s.push as).ctl.group = s.ctl.group := rfl
@[simp] theorem State.push_ctl_syl (s : State) (as : List Act) : (s.push as).ctl.syl = s.ctl.syl := rfl
@[simp] theorem State.push_ctl_link (s : State) (as : List Act) : (s.push as).ctl.link = s.ctl.link := rfl
@[simp] theorem State.push_ctl_ext (s : State) (as : List Act) : (s.push as).ctl.ext = s.ctl.ext := rfl
@[simp] theorem State.push_ctl_verdict (s : State) (as : List Act) : (s.push as).ctl.verdict = s.ctl.verdict := rfl
@[simp] theorem State.push_ctl_inbox (s : State) (as : List Act) : (s.push as).ctl.inbox = s.ctl.inbox := rfl
@[simp] theorem State.push_ctl_now (s : State) (as : List Act) : (s.push as).ctl.now = s.ctl.now := rfl
@[simp] theorem State.push_ctl_free (s : State) (as : List Act) : (s.push as).ctl.free = s.ctl.free := rfl

/-! ### pushEvent -/

@[simp] theorem State.pushEvent_mem (s : State) (i : Instr) : (s.pushEvent i).mem = s.mem := rfl
@[simp] theorem State.pushEvent_weave (s : State) (i : Instr) : (s.pushEvent i).weave = s.weave := rfl
@[simp] theorem State.pushEvent_frame (s : State) (i : Instr) : (s.pushEvent i).frame = s.frame := rfl
@[simp] theorem State.pushEvent_eng (s : State) (i : Instr) : (s.pushEvent i).eng = s.eng := rfl
@[simp] theorem State.pushEvent_host (s : State) (i : Instr) : (s.pushEvent i).host = s.host := rfl
@[simp] theorem State.pushEvent_ctl_cur (s : State) (i : Instr) : (s.pushEvent i).ctl.cur = s.ctl.cur := rfl
@[simp] theorem State.pushEvent_ctl_group (s : State) (i : Instr) : (s.pushEvent i).ctl.group = s.ctl.group := rfl
@[simp] theorem State.pushEvent_ctl_syl (s : State) (i : Instr) : (s.pushEvent i).ctl.syl = s.ctl.syl := rfl
@[simp] theorem State.pushEvent_ctl_link (s : State) (i : Instr) : (s.pushEvent i).ctl.link = s.ctl.link := rfl
@[simp] theorem State.pushEvent_ctl_ext (s : State) (i : Instr) : (s.pushEvent i).ctl.ext = s.ctl.ext := rfl
@[simp] theorem State.pushEvent_ctl_verdict (s : State) (i : Instr) : (s.pushEvent i).ctl.verdict = s.ctl.verdict := rfl
@[simp] theorem State.pushEvent_ctl_inbox (s : State) (i : Instr) : (s.pushEvent i).ctl.inbox = s.ctl.inbox := rfl
@[simp] theorem State.pushEvent_ctl_now (s : State) (i : Instr) : (s.pushEvent i).ctl.now = s.ctl.now := rfl
@[simp] theorem State.pushEvent_ctl_free (s : State) (i : Instr) : (s.pushEvent i).ctl.free = s.ctl.free := rfl

/-! ### verdict -/

@[simp] theorem State.verdict_mem (s : State) (v : Verdict) : (s.verdict v).mem = s.mem := rfl
@[simp] theorem State.verdict_weave (s : State) (v : Verdict) : (s.verdict v).weave = s.weave := rfl
@[simp] theorem State.verdict_frame (s : State) (v : Verdict) : (s.verdict v).frame = s.frame := rfl
@[simp] theorem State.verdict_eng (s : State) (v : Verdict) : (s.verdict v).eng = s.eng := rfl
@[simp] theorem State.verdict_host (s : State) (v : Verdict) : (s.verdict v).host = s.host := rfl
@[simp] theorem State.verdict_ctl_cur (s : State) (v : Verdict) : (s.verdict v).ctl.cur = s.ctl.cur := rfl
@[simp] theorem State.verdict_ctl_group (s : State) (v : Verdict) : (s.verdict v).ctl.group = s.ctl.group := rfl
@[simp] theorem State.verdict_ctl_syl (s : State) (v : Verdict) : (s.verdict v).ctl.syl = s.ctl.syl := rfl
@[simp] theorem State.verdict_ctl_link (s : State) (v : Verdict) : (s.verdict v).ctl.link = s.ctl.link := rfl
@[simp] theorem State.verdict_ctl_ext (s : State) (v : Verdict) : (s.verdict v).ctl.ext = s.ctl.ext := rfl
@[simp] theorem State.verdict_ctl_agenda (s : State) (v : Verdict) : (s.verdict v).ctl.agenda = s.ctl.agenda := rfl
@[simp] theorem State.verdict_ctl_inbox (s : State) (v : Verdict) : (s.verdict v).ctl.inbox = s.ctl.inbox := rfl
@[simp] theorem State.verdict_ctl_now (s : State) (v : Verdict) : (s.verdict v).ctl.now = s.ctl.now := rfl
@[simp] theorem State.verdict_ctl_free (s : State) (v : Verdict) : (s.verdict v).ctl.free = s.ctl.free := rfl

/-! ### drew -/

@[simp] theorem State.drew_mem (s : State) : s.drew.mem = s.mem := rfl
@[simp] theorem State.drew_weave (s : State) : s.drew.weave = s.weave := rfl
@[simp] theorem State.drew_frame (s : State) : s.drew.frame = s.frame := rfl
@[simp] theorem State.drew_eng (s : State) : s.drew.eng = s.eng := rfl
@[simp] theorem State.drew_host (s : State) : s.drew.host = s.host := rfl
@[simp] theorem State.drew_ctl_cur (s : State) : s.drew.ctl.cur = s.ctl.cur := rfl
@[simp] theorem State.drew_ctl_group (s : State) : s.drew.ctl.group = s.ctl.group := rfl
@[simp] theorem State.drew_ctl_syl (s : State) : s.drew.ctl.syl = s.ctl.syl := rfl
@[simp] theorem State.drew_ctl_link (s : State) : s.drew.ctl.link = s.ctl.link := rfl
@[simp] theorem State.drew_ctl_ext (s : State) : s.drew.ctl.ext = s.ctl.ext := rfl
@[simp] theorem State.drew_ctl_verdict (s : State) : s.drew.ctl.verdict = s.ctl.verdict := rfl
@[simp] theorem State.drew_ctl_agenda (s : State) : s.drew.ctl.agenda = s.ctl.agenda := rfl
@[simp] theorem State.drew_ctl_inbox (s : State) : s.drew.ctl.inbox = s.ctl.inbox := rfl
@[simp] theorem State.drew_ctl_now (s : State) : s.drew.ctl.now = s.ctl.now := rfl

/-! ### retire -/

@[simp] theorem State.retire_mem (s : State) : s.retire.mem = s.mem := rfl
@[simp] theorem State.retire_weave (s : State) : s.retire.weave = s.weave := rfl
@[simp] theorem State.retire_frame (s : State) : s.retire.frame = s.frame := rfl
@[simp] theorem State.retire_eng (s : State) : s.retire.eng = s.eng := rfl
@[simp] theorem State.retire_host (s : State) : s.retire.host = s.host := rfl
@[simp] theorem State.retire_ctl_cur (s : State) : s.retire.ctl.cur = s.ctl.cur := rfl
@[simp] theorem State.retire_ctl_group (s : State) : s.retire.ctl.group = s.ctl.group := rfl
@[simp] theorem State.retire_ctl_syl (s : State) : s.retire.ctl.syl = s.ctl.syl := rfl
@[simp] theorem State.retire_ctl_link (s : State) : s.retire.ctl.link = s.ctl.link := rfl
@[simp] theorem State.retire_ctl_agenda (s : State) : s.retire.ctl.agenda = s.ctl.agenda := rfl
@[simp] theorem State.retire_ctl_inbox (s : State) : s.retire.ctl.inbox = s.ctl.inbox := rfl
@[simp] theorem State.retire_ctl_now (s : State) : s.retire.ctl.now = s.ctl.now := rfl
@[simp] theorem State.retire_ctl_free (s : State) : s.retire.ctl.free = s.ctl.free := rfl

/-! ### modFrame and modHost -/

@[simp] theorem State.modFrame_ctl (s : State) (f : Frame → Frame) : (s.modFrame f).ctl = s.ctl := rfl
@[simp] theorem State.modFrame_mem (s : State) (f : Frame → Frame) : (s.modFrame f).mem = s.mem := rfl
@[simp] theorem State.modFrame_weave (s : State) (f : Frame → Frame) : (s.modFrame f).weave = s.weave := rfl
@[simp] theorem State.modFrame_eng (s : State) (f : Frame → Frame) : (s.modFrame f).eng = s.eng := rfl
@[simp] theorem State.modFrame_host (s : State) (f : Frame → Frame) : (s.modFrame f).host = s.host := rfl
@[simp] theorem State.modFrame_frame (s : State) (f : Frame → Frame) : (s.modFrame f).frame = f s.frame := rfl
@[simp] theorem State.modHost_ctl (s : State) (f : Hst → Hst) : (s.modHost f).ctl = s.ctl := rfl
@[simp] theorem State.modHost_mem (s : State) (f : Hst → Hst) : (s.modHost f).mem = s.mem := rfl
@[simp] theorem State.modHost_weave (s : State) (f : Hst → Hst) : (s.modHost f).weave = s.weave := rfl
@[simp] theorem State.modHost_frame (s : State) (f : Hst → Hst) : (s.modHost f).frame = s.frame := rfl
@[simp] theorem State.modHost_eng (s : State) (f : Hst → Hst) : (s.modHost f).eng = s.eng := rfl
@[simp] theorem State.modHost_host (s : State) (f : Hst → Hst) : (s.modHost f).host = f s.host := rfl

/-! ### Reads after writes -/

@[simp] theorem State.ctx_setCtx (s : State) (k : Nat) (x : Ctx) : (s.setCtx k x).ctx k = x := by
  simp [State.ctx, State.setCtx]
theorem State.ctx_setCtx_ne (s : State) {k j : Nat} (x : Ctx) (h : j ≠ k) : (s.setCtx k x).ctx j = s.ctx j := by
  simp [State.ctx, State.setCtx, tgetD_tset_ne _ _ _ h]
@[simp] theorem State.core_setCore (s : State) (k : Nat) (x : Core) : (s.setCore k x).core k = x := by
  simp [State.core, State.setCore]
theorem State.core_setCore_ne (s : State) {k j : Nat} (x : Core) (h : j ≠ k) : (s.setCore k x).core j = s.core j := by
  simp [State.core, State.setCore, tgetD_tset_ne _ _ _ h]
@[simp] theorem State.cluster_setCluster (s : State) (k : Nat) (x : Cluster) : (s.setCluster k x).cluster k = x := by
  simp [State.cluster, State.setCluster]
theorem State.cluster_setCluster_ne (s : State) {k j : Nat} (x : Cluster) (h : j ≠ k) : (s.setCluster k x).cluster j = s.cluster j := by
  simp [State.cluster, State.setCluster, tgetD_tset_ne _ _ _ h]
@[simp] theorem State.bench_setBench (s : State) (k : Nat) (x : Bench) : (s.setBench k x).bench k = x := by
  simp [State.bench, State.setBench]
theorem State.bench_setBench_ne (s : State) {k j : Nat} (x : Bench) (h : j ≠ k) : (s.setBench k x).bench j = s.bench j := by
  simp [State.bench, State.setBench, tgetD_tset_ne _ _ _ h]
@[simp] theorem State.queue_setQueue (s : State) (k : Nat) (x : Queue) : (s.setQueue k x).queue k = x := by
  simp [State.queue, State.setQueue]
theorem State.queue_setQueue_ne (s : State) {k j : Nat} (x : Queue) (h : j ≠ k) : (s.setQueue k x).queue j = s.queue j := by
  simp [State.queue, State.setQueue, tgetD_tset_ne _ _ _ h]
@[simp] theorem State.group_setGroup (s : State) (k : Nat) (x : Group) : (s.setGroup k x).group k = x := by
  simp [State.group, State.setGroup]
theorem State.group_setGroup_ne (s : State) {k j : Nat} (x : Group) (h : j ≠ k) : (s.setGroup k x).group j = s.group j := by
  simp [State.group, State.setGroup, tgetD_tset_ne _ _ _ h]
@[simp] theorem State.ctx?_setCtx (s : State) (c : Nat) (x : Ctx) : (s.setCtx c x).ctx? c = some x := by
  simp [State.ctx?, State.setCtx]
theorem State.ctx?_setCtx_ne (s : State) {c d : Nat} (x : Ctx) (h : d ≠ c) : (s.setCtx c x).ctx? d = s.ctx? d := by
  simp [State.ctx?, State.setCtx, tget_tset_ne _ _ h]
@[simp] theorem State.ctx?_dropCtx (s : State) (c : Nat) : (s.dropCtx c).ctx? c = none := by simp [State.ctx?, State.dropCtx]
theorem State.ctx_of_ctx? {s : State} {c : Nat} {x : Ctx} (h : s.ctx? c = some x) : s.ctx c = x := by
  unfold State.ctx? at h; simp [State.ctx, tgetD, h]
@[simp] theorem State.ctx_modCtx (s : State) (c : Nat) (f : Ctx → Ctx) : (s.modCtx c f).ctx c = f (s.ctx c) := by
  simp [State.modCtx]
theorem State.ctx_modCtx_ne (s : State) {c d : Nat} (f : Ctx → Ctx) (h : d ≠ c) : (s.modCtx c f).ctx d = s.ctx d := by
  simp [State.modCtx, State.ctx_setCtx_ne s _ h]
@[simp] theorem State.bench_modBench (s : State) (b : Nat) (f : Bench → Bench) : (s.modBench b f).bench b = f (s.bench b) := by
  simp [State.modBench]
theorem State.bench_modBench_ne (s : State) {b d : Nat} (f : Bench → Bench) (h : d ≠ b) : (s.modBench b f).bench d = s.bench d := by
  simp [State.modBench, State.bench_setBench_ne s _ h]
@[simp] theorem State.evctr_signal (s : State) (n : Nat) (v : W64) : (s.signal n v).evctr n = s.evctr n + v := by
  simp [State.evctr, State.signal]
theorem State.evctr_signal_ne (s : State) {n m : Nat} (v : W64) (h : m ≠ n) : (s.signal n v).evctr m = s.evctr m := by
  simp [State.evctr, State.signal, tgetD_tset_ne _ _ _ h]

/-! ### Registers of a context -/

@[simp] theorem Ctx.x_zero (c : Ctx) : c.x 0 = 0 := by simp [Ctx.x]
@[simp] theorem Ctx.setX_zero (c : Ctx) (v : W64) : c.setX 0 v = c := by simp [Ctx.setX]
theorem Ctx.x_setX (c : Ctx) (i j : Nat) (v : W64) : (c.setX i v).x j = if j = i ∧ i ≠ 0 then v else c.x j := by
  by_cases hi : i = 0
  · simp [hi]
  · by_cases hj : j = 0
    · subst hj; simp [Ne.symm hi]
    · by_cases h : j = i
      · subst h; simp [Ctx.x, Ctx.setX, hi]
      · simp [Ctx.x, Ctx.setX, hi, hj, h, tgetD_tset_ne]
@[simp] theorem Ctx.p_zero (c : Ctx) : c.p 0 = true := by simp [Ctx.p]
@[simp] theorem Ctx.setP_zero (c : Ctx) (b : Bool) : c.setP 0 b = c := by simp [Ctx.setP]

/-! ### Lifetime of a syllable -/

@[simp] theorem State.retire_verdict (s : State) : s.retire.ctl.verdict = .retired := rfl
@[simp] theorem State.retire_ext (s : State) : s.retire.ctl.ext = none := rfl
@[simp] theorem State.retire_ctx (s : State) (c : Nat) : s.retire.ctx c = s.ctx c := rfl
@[simp] theorem State.retire_bench (s : State) (b : Nat) : s.retire.bench b = s.bench b := rfl

/-! ### What a context leaves, and the slot that issued last -/

@[simp] theorem State.keepLeft_ctl (s : State) (c : Nat) (x : Ctx) : (s.keepLeft c x).ctl = s.ctl := rfl
@[simp] theorem State.keepLeft_mem (s : State) (c : Nat) (x : Ctx) : (s.keepLeft c x).mem = s.mem := rfl
@[simp] theorem State.keepLeft_frame (s : State) (c : Nat) (x : Ctx) : (s.keepLeft c x).frame = s.frame := rfl
@[simp] theorem State.keepLeft_eng (s : State) (c : Nat) (x : Ctx) : (s.keepLeft c x).eng = s.eng := rfl
@[simp] theorem State.keepLeft_host (s : State) (c : Nat) (x : Ctx) : (s.keepLeft c x).host = s.host := rfl
@[simp] theorem State.keepLeft_weave_ctxs (s : State) (c : Nat) (x : Ctx) : (s.keepLeft c x).weave.ctxs = s.weave.ctxs := rfl
@[simp] theorem State.keepLeft_weave_cores (s : State) (c : Nat) (x : Ctx) : (s.keepLeft c x).weave.cores = s.weave.cores := rfl
@[simp] theorem State.keepLeft_weave_clusters (s : State) (c : Nat) (x : Ctx) : (s.keepLeft c x).weave.clusters = s.weave.clusters := rfl
@[simp] theorem State.keepLeft_weave_gangs (s : State) (c : Nat) (x : Ctx) : (s.keepLeft c x).weave.gangs = s.weave.gangs := rfl
@[simp] theorem State.keepLeft_weave_launches (s : State) (c : Nat) (x : Ctx) : (s.keepLeft c x).weave.launches = s.weave.launches := rfl
@[simp] theorem State.keepLeft_weave_dispatchers (s : State) (c : Nat) (x : Ctx) : (s.keepLeft c x).weave.dispatchers = s.weave.dispatchers := rfl
@[simp] theorem State.keepLeft_weave_evctr (s : State) (c : Nat) (x : Ctx) : (s.keepLeft c x).weave.evctr = s.weave.evctr := rfl
@[simp] theorem State.keepLeft_weave_nextId (s : State) (c : Nat) (x : Ctx) : (s.keepLeft c x).weave.nextId = s.weave.nextId := rfl
theorem State.keepLeft_left (s : State) (c : Nat) (x : Ctx) : tget (s.keepLeft c x).weave.left c = some x := tget_tset_self _ _ _

@[simp] theorem State.tookSlot_ctl (s : State) (c : Nat) : (s.tookSlot c).ctl = s.ctl := rfl
@[simp] theorem State.tookSlot_mem (s : State) (c : Nat) : (s.tookSlot c).mem = s.mem := rfl
@[simp] theorem State.tookSlot_frame (s : State) (c : Nat) : (s.tookSlot c).frame = s.frame := rfl
@[simp] theorem State.tookSlot_eng (s : State) (c : Nat) : (s.tookSlot c).eng = s.eng := rfl
@[simp] theorem State.tookSlot_host (s : State) (c : Nat) : (s.tookSlot c).host = s.host := rfl
@[simp] theorem State.tookSlot_weave_clusters (s : State) (c : Nat) : (s.tookSlot c).weave.clusters = s.weave.clusters := rfl
@[simp] theorem State.tookSlot_weave_gangs (s : State) (c : Nat) : (s.tookSlot c).weave.gangs = s.weave.gangs := rfl
@[simp] theorem State.tookSlot_weave_launches (s : State) (c : Nat) : (s.tookSlot c).weave.launches = s.weave.launches := rfl
@[simp] theorem State.tookSlot_weave_dispatchers (s : State) (c : Nat) : (s.tookSlot c).weave.dispatchers = s.weave.dispatchers := rfl
@[simp] theorem State.tookSlot_weave_left (s : State) (c : Nat) : (s.tookSlot c).weave.left = s.weave.left := rfl
@[simp] theorem State.tookSlot_weave_evctr (s : State) (c : Nat) : (s.tookSlot c).weave.evctr = s.weave.evctr := rfl
@[simp] theorem State.tookSlot_weave_nextId (s : State) (c : Nat) : (s.tookSlot c).weave.nextId = s.weave.nextId := rfl

/-- The order in which timeouts fall leaves none out and adds none. -/
theorem tellersFirst_perm (tells : Nat → Nat → Bool) (n : Nat) (l : List Nat) : (tellersFirst tells n l).Perm l := by
  induction n generalizing l with
  | zero => rw [tellersFirst]
  | succ n ih =>
    cases l with
    | nil => simp [tellersFirst]
    | cons c l =>
      rw [tellersFirst]
      have hd : ((c :: l).find? (fun d => (c :: l).all (fun e => e == d || !tells e d))).getD c ∈ c :: l := by
        cases h : (c :: l).find? (fun d => (c :: l).all (fun e => e == d || !tells e d)) with
        | none => simp
        | some d => simpa using List.mem_of_find?_eq_some h
      exact ((ih _).cons _).trans (List.perm_cons_erase hd).symm

end Sys2Proof.Machine
end

