-- ==== Sys2Proof/Laws/Memory.lean ====
section
/-! SUPPORT. What the operations on physical memory can do: the byte that is read after them, and that byte memory and the local memories
keep their canonical form. -/

namespace Sys2Proof.Machine

/-- Both byte memories of a package are canonical. -/
def Mem.Canonical (m : Mem) : Prop := m.cells.wf ∧ m.local_.wf

theorem State.canonical_iff (s : State) : s.Canonical ↔ s.mem.Canonical := Iff.rfl
theorem State.Canonical.of_mem {s t : State} (h : s.Canonical) (e : t.mem = s.mem) : t.Canonical := by
  rw [State.canonical_iff, e]; exact h

theorem Mem.reset_canonical : Mem.Canonical Mem.reset := ⟨Memory.reset_wf, Memory.reset_wf⟩

/-- A filter keeps the canonical form. -/
theorem Memory.filter_wf (m : Memory) (p : Host.Cell → Bool) (h : m.wf) : Memory.wf (m.filter p) := by
  obtain ⟨h1, h2⟩ := h
  refine ⟨?_, List.all_eq_true.2 fun e he => List.all_eq_true.1 h2 e (List.mem_filter.1 he).1⟩
  have key : ∀ (lo : Nat) (l : Memory), tsortedFrom lo l = true → tsortedFrom lo (l.filter p) = true := by
    intro lo l
    induction l generalizing lo with
    | nil => intro _; rfl
    | cons e t ih =>
      intro hs
      simp only [tsortedFrom, Bool.and_eq_true, decide_eq_true_eq] at hs
      rw [List.filter_cons]
      split
      · simp only [tsortedFrom, Bool.and_eq_true, decide_eq_true_eq]; exact ⟨hs.1, ih _ hs.2⟩
      · exact tsortedFrom_weaken (by omega) (ih _ hs.2)
  cases m with
  | nil => rfl
  | cons e t =>
    rw [List.filter_cons]
    split
    · exact key _ t h1
    · exact tsorted_of_from (key _ t h1)

/-! ### One byte -/

theorem Mem.put_canonical (m : Mem) (b : Bool) (pa : Nat) (v : Byte) (h : m.Canonical) : (m.put b pa v).Canonical := by
  unfold Mem.put
  split
  · exact h
  · exact ⟨Memory.write_wf _ _ _ h.1, h.2⟩

@[simp] theorem Mem.put_byte_self (m : Mem) (b : Bool) (pa : Nat) (v : Byte) : (m.put b pa v).byte pa = v := by
  unfold Mem.put Mem.byte
  split <;> simp

theorem Mem.put_byte_ne (m : Mem) (b : Bool) {pa a : Nat} (v : Byte) (h : a ≠ pa) : (m.put b pa v).byte a = m.byte a := by
  unfold Mem.put Mem.byte
  split
  · simp only [tget_tset_ne m.dirty v h]
  · simp only [tget_terase_ne m.dirty h, Memory.read_write_ne m.cells v h]

@[simp] theorem Mem.put_local (m : Mem) (b : Bool) (pa : Nat) (v : Byte) : (m.put b pa v).local_ = m.local_ := by
  unfold Mem.put; split <;> rfl
@[simp] theorem Mem.put_empties (m : Mem) (b : Bool) (pa : Nat) (v : Byte) : (m.put b pa v).empties = m.empties := by
  unfold Mem.put; split <;> rfl

/-! ### Runs of bytes -/

theorem Mem.putBytes_canonical (bs : List Byte) (m : Mem) (b : Bool) (pa : Nat) (h : m.Canonical) : (m.putBytes b pa bs).Canonical := by
  induction bs generalizing m pa with
  | nil => exact h
  | cons v bs ih => exact ih _ _ (m.put_canonical b pa v h)

theorem Mem.putBytes_byte_outside (bs : List Byte) (m : Mem) (b : Bool) (pa : Nat) {a : Nat} (h : a < pa ∨ pa + bs.length ≤ a) :
    (m.putBytes b pa bs).byte a = m.byte a := by
  induction bs generalizing m pa with
  | nil => rfl
  | cons v bs ih =>
    simp only [List.length_cons] at h
    rw [Mem.putBytes, ih _ _ (by omega), m.put_byte_ne b v (by omega)]

theorem Mem.putBytes_byte_inside (bs : List Byte) (m : Mem) (b : Bool) (pa : Nat) {i : Nat} (h : i < bs.length) :
    (m.putBytes b pa bs).byte (pa + i) = bs[i] := by
  induction bs generalizing m pa i with
  | nil => simp at h
  | cons v bs ih =>
    cases i with
    | zero => rw [Mem.putBytes, Mem.putBytes_byte_outside _ _ _ _ (by omega)]; simp
    | succ i =>
      simp only [List.length_cons] at h
      rw [Mem.putBytes, show pa + (i + 1) = pa + 1 + i by omega, ih (m.put b pa v) (pa + 1) (by omega)]; simp

@[simp] theorem Mem.putBytes_local (bs : List Byte) (m : Mem) (b : Bool) (pa : Nat) : (m.putBytes b pa bs).local_ = m.local_ := by
  induction bs generalizing m pa with
  | nil => rfl
  | cons v bs ih => rw [Mem.putBytes, ih, Mem.put_local]

theorem Mem.rawPut_canonical (m : Mem) (pa : Nat) (bs : List Byte) (h : m.Canonical) : (m.rawPut pa bs).Canonical :=
  ⟨Memory.writeBytes_wf bs m.cells pa h.1, h.2⟩

theorem Mem.discard_frame (n : Nat) (m : Mem) (pa : Nat) :
    (m.discard pa n).cells = m.cells ∧ (m.discard pa n).local_ = m.local_ ∧ (m.discard pa n).empties = m.empties := by
  induction n generalizing m pa with
  | zero => exact ⟨rfl, rfl, rfl⟩
  | succ n ih => exact ih _ _

theorem Mem.discard_canonical (n : Nat) (m : Mem) (pa : Nat) (h : m.Canonical) : (m.discard pa n).Canonical := by
  obtain ⟨e1, e2, -⟩ := m.discard_frame n pa
  exact ⟨e1 ▸ h.1, e2 ▸ h.2⟩

/-- Writing back keeps the canonical form. -/
theorem Mem.writeBack_canonical (n : Nat) (m : Mem) (pa : Nat) (h : m.Canonical) : (m.writeBack pa n).Canonical := by
  induction n generalizing m pa with
  | zero => exact h
  | succ n ih =>
    unfold Mem.writeBack
    split
    · exact ih _ _ ⟨Memory.write_wf _ _ _ h.1, h.2⟩
    · exact ih _ _ h

/-- Writing back changes no byte that L2 presents. -/
theorem Mem.writeBack_byte (n : Nat) (m : Mem) (pa a : Nat) : (m.writeBack pa n).byte a = m.byte a := by
  induction n generalizing m pa with
  | zero => rfl
  | succ n ih =>
    unfold Mem.writeBack
    split
    · rename_i v hv
      rw [ih]
      unfold Mem.byte
      by_cases e : a = pa
      · subst e; simp [hv]
      · simp only [tget_terase_ne m.dirty e, Memory.read_write_ne m.cells v e]
    · exact ih _ _

/-! ### Full/empty bits -/

theorem Mem.setFull_frame (n : Nat) (m : Mem) (pa : Nat) :
    (m.setFull pa n).cells = m.cells ∧ (m.setFull pa n).local_ = m.local_ ∧ (m.setFull pa n).dirty = m.dirty := by
  induction n generalizing m pa with
  | zero => exact ⟨rfl, rfl, rfl⟩
  | succ n ih => exact ih _ _

theorem Mem.setEmpty_frame (n : Nat) (m : Mem) (pa : Nat) :
    (m.setEmpty pa n).cells = m.cells ∧ (m.setEmpty pa n).local_ = m.local_ ∧ (m.setEmpty pa n).dirty = m.dirty := by
  induction n generalizing m pa with
  | zero => exact ⟨rfl, rfl, rfl⟩
  | succ n ih => exact ih _ _

theorem Mem.setFull_canonical (n : Nat) (m : Mem) (pa : Nat) (h : m.Canonical) : (m.setFull pa n).Canonical := by
  obtain ⟨e1, e2, -⟩ := m.setFull_frame n pa
  exact ⟨e1 ▸ h.1, e2 ▸ h.2⟩

theorem Mem.setEmpty_canonical (n : Nat) (m : Mem) (pa : Nat) (h : m.Canonical) : (m.setEmpty pa n).Canonical := by
  obtain ⟨e1, e2, -⟩ := m.setEmpty_frame n pa
  exact ⟨e1 ▸ h.1, e2 ▸ h.2⟩

theorem Mem.enginePut_canonical (m : Mem) (b : Bool) (pa : Nat) (bs : List Byte) (h : m.Canonical) : (m.enginePut b pa bs).Canonical :=
  Mem.setFull_canonical _ _ _ (Mem.putBytes_canonical bs m b pa h)

/-! ### Stores that become visible -/

theorem State.storeLine_mem (s : State) (k pa : Nat) (bs : List Byte) (nc : Bool) :
    (s.storeLine k pa bs nc).mem = s.mem.putBytes (!nc) pa bs := by
  unfold State.storeLine
  dsimp only
  split
  · split <;> rfl
  · rfl

theorem State.deviceStore_mem (s : State) (off size v : Nat) : (s.deviceStore off size v).mem = s.mem := by
  unfold State.deviceStore
  split
  · split <;> rfl
  · split <;> rfl

/-- A buffered store that becomes visible keeps the canonical form. -/
theorem State.performStore_canonical (s : State) (k : Nat) (e : BufStore) (h : s.Canonical) : (s.performStore k e).Canonical := by
  unfold State.performStore
  split
  · exact ⟨h.1, Memory.writeBytes_wf _ _ _ h.2⟩
  · split
    · exact h.of_mem (s.deviceStore_mem _ _ _)
    · rw [State.canonical_iff, State.storeLine_mem]
      exact Mem.putBytes_canonical _ _ _ _ h
    · exact Mem.putBytes_canonical e.bytes s.mem false e.addr h

theorem State.drainOne_canonical (s : State) (k : Nat) (h : s.Canonical) : (s.drainOne k).Canonical := by
  unfold State.drainOne
  split
  · exact h
  · exact State.performStore_canonical _ _ _ h

theorem State.drainN_canonical (n : Nat) (s : State) (k : Nat) (h : s.Canonical) : (s.drainN k n).Canonical := by
  induction n generalizing s with
  | zero => exact h
  | succ n ih => exact ih _ (s.drainOne_canonical k h)

theorem State.drainAll_canonical (s : State) (k : Nat) (h : s.Canonical) : (s.drainAll k).Canonical := s.drainN_canonical _ k h

end Sys2Proof.Machine
end

