-- ==== Sys2Proof/Laws/Wrap.lean ====
section
/-! SUPPORT. What the wrappers of syllables do: a syllable that is ready runs its body, one whose guard reads false retires without
effect, one that its encoding rules out raises ILLEGAL_ENCODING. -/

namespace Sys2Proof.Machine

variable {s : State} {c b maj x g d a bb : Nat} {sl : SlotName} {sel : Bool}

theorem Ctx.guard_ne_eight {k : Ctx} (h : k.guard g = true) : g ≠ 8 := by
  rintro rfl
  simp [Ctx.guard] at h

/-! ### Weave plane -/

theorem onCtx_ready (h : s.CtxReady c maj x g d a b) (pre : Run Unit) (body : State → Run State) :
    s.onCtx c maj x g d a b sel pre body = finishW s c (pre >>= fun _ => body s) := by
  obtain ⟨-, hl, hf, hg, he, hi, sg, hs, hp⟩ := h
  obtain ⟨k, hk⟩ := Option.isSome_iff_exists.1 hl
  have hc : s.ctx c = k := State.ctx_of_ctx? hk
  rw [hc] at hg
  have h8 := Ctx.guard_ne_eight hg
  simp only [legalW, hs] at hf
  have hx : (s.ctl.ext.isSome && !takesExt maj x) = false := by
    cases h : s.ctl.ext.isSome <;> simp_all
  simp [State.onCtx, hk, hs, hf, h8, hx, hi, hg, hp, Bind.bind, Except.bind, gated]

theorem both_ctx (h : s.CtxReady c maj x g d a b) (pre : State → Nat → Run Unit) (wb : Nat → State → Run State)
    (fb : Nat → SlotName → State → Run State) :
    both maj x g d a b pre wb fb s = finishW s c (pre s c >>= fun _ => wb c s) := by
  simp [both, h.here, onCtx_ready h]

theorem weave_ctx (h : s.CtxReady c maj x g d a b) (pre : State → Nat → Run Unit) (body : Nat → State → Run State) :
    weave maj x g d a b pre body s = finishW s c (pre s c >>= fun _ => body c s) := by
  simp [weave, h.here, onCtx_ready h]

/-- A form without a test before its pipes retires with its body's state. -/
theorem both_ctx_ok (h : s.CtxReady c maj x g d a b) {wb : Nat → State → Run State} {fb : Nat → SlotName → State → Run State} {t : State}
    (hb : wb c s = .ok t) : both maj x g d a b noPre wb fb s = retires t := by
  simp [both_ctx h, noPre, Bind.bind, Except.bind, hb, finishW, retires]

theorem weave_ctx_ok (h : s.CtxReady c maj x g d a b) {body : Nat → State → Run State} {t : State} (hb : body c s = .ok t) :
    weave maj x g d a b noPre body s = retires t := by
  simp [weave_ctx h, noPre, Bind.bind, Except.bind, hb, finishW, retires]

theorem both_ctx_pre_ok (h : s.CtxReady c maj x g d a b) {pre : State → Nat → Run Unit} {wb : Nat → State → Run State}
    {fb : Nat → SlotName → State → Run State} {t : State} (hp : pre s c = .ok ()) (hb : wb c s = .ok t) :
    both maj x g d a b pre wb fb s = retires t := by
  simp [both_ctx h, hp, Bind.bind, Except.bind, hb, finishW, retires]

theorem weave_ctx_pre_ok (h : s.CtxReady c maj x g d a b) {pre : State → Nat → Run Unit} {body : Nat → State → Run State} {t : State}
    (hp : pre s c = .ok ()) (hb : body c s = .ok t) : weave maj x g d a b pre body s = retires t := by
  simp [weave_ctx h, hp, Bind.bind, Except.bind, hb, finishW, retires]

/-! ### Frame plane -/

theorem onSlot_ready (h : s.SlotReady b sl maj x g d a bb) (body : State → Run State) :
    s.onSlot b sl maj x g d a bb sel body = finishF' s b (body s) := by
  obtain ⟨-, hf, ht, hg, he, hi⟩ := h
  have hx : (s.ctl.ext.isSome && !takesExt maj x) = false := by
    cases h : s.ctl.ext.isSome <;> simp_all
  unfold legalF at hf
  unfold State.onSlot
  cases hs : sigF maj x with
  | none => simp [hs] at hf
  | some sg =>
    rw [hs] at hf
    have hf' : sg.ok d a bb = true := hf
    simp only [hf', ht, hx, hi, hg]
    simp

theorem both_slot (h : s.SlotReady b sl maj x g d a bb) (pre : State → Nat → Run Unit) (wb : Nat → State → Run State)
    (fb : Nat → SlotName → State → Run State) : both maj x g d a bb pre wb fb s = finishF' s b (fb b sl s) := by
  simp [both, h.here, onSlot_ready h]

theorem frame_slot (h : s.SlotReady b sl maj x g d a bb) (body : Nat → SlotName → State → Run State) :
    frame maj x g d a bb body s = finishF' s b (body b sl s) := by
  simp [frame, h.here, onSlot_ready h]

theorem both_slot_ok (h : s.SlotReady b sl maj x g d a bb) {pre : State → Nat → Run Unit} {wb : Nat → State → Run State}
    {fb : Nat → SlotName → State → Run State} {t : State} (hb : fb b sl s = .ok t) :
    both maj x g d a bb pre wb fb s = retires t := by
  simp [both_slot h, hb, finishF', retires]

theorem frame_slot_ok (h : s.SlotReady b sl maj x g d a bb) {body : Nat → SlotName → State → Run State} {t : State}
    (hb : body b sl s = .ok t) : frame maj x g d a bb body s = retires t := by
  simp [frame_slot h, hb, finishF', retires]

end Sys2Proof.Machine
end

