-- ==== Sys2Proof/Laws/Operands.lean ====
section
/-! SUPPORT. What the shared operations of the planes can do: reading and writing an operand, raising a cause, folding a syllable's outcome
back, and the wrappers of both planes. A proof about a form cites these and does not unfold them. -/

namespace Sys2Proof.Machine

/-! ### Operands -/

theorem State.src_reg {s : State} {c i : Nat} (h : isQ i = false) : s.src c i = ((s.ctx c).x i, s) := by simp [State.src, h]
theorem State.dst_reg {s : State} {c i : Nat} {v : W64} (h : isQ i = false) : s.dst c i v = s.modCtx c (fun x => x.setX i v) := by
  simp [State.dst, h]
theorem isQ_of_lt {i : Nat} (h : i < 48) : isQ i = false := by simp [isQ]; omega

theorem Ctx.x_setX_self (k : Ctx) {i : Nat} (v : W64) (h : i ≠ 0) : (k.setX i v).x i = v := by simp [Ctx.setX, Ctx.x, h]
theorem Ctx.x_setX_ne (k : Ctx) {i j : Nat} (v : W64) (h : j ≠ i) : (k.setX i v).x j = k.x j := by
  unfold Ctx.setX
  split
  · rfl
  · simp only [Ctx.x, tgetD_tset_ne k.xs v _ h]
theorem Ctx.x_setY (k : Ctx) (i j : Nat) (v : W256) : (k.setY i v).x j = k.x j := rfl

@[simp] theorem Bench.ra_zero (k : Bench) : k.ra 0 = 0 := rfl
@[simp] theorem Bench.wa_zero (k : Bench) (v : W64) : k.wa 0 v = k := rfl
theorem Bench.ra_wa_self (k : Bench) {i : Nat} (v : W64) (h : i ≠ 0) : (k.wa i v).ra i = v := by simp [Bench.wa, Bench.ra, h]
theorem Bench.ra_wa_ne (k : Bench) {i j : Nat} (v : W64) (h : j ≠ i) : (k.wa i v).ra j = k.ra j := by
  unfold Bench.wa
  split
  · rfl
  · simp only [Bench.ra, tgetD_tset_ne k.a v _ h]

/-! ### Causes -/

/-- A raised cause traps a user context that has a trap vector, or ends its launch: in either case memory, the frame plane, the engines and
the host side stay, and every other context does. -/
theorem State.raise_frame (s : State) (c epc code faddr info : Nat) :
    (s.raise c epc code faddr info).mem = s.mem ∧ (s.raise c epc code faddr info).frame = s.frame ∧
    (s.raise c epc code faddr info).eng = s.eng ∧ (s.raise c epc code faddr info).host = s.host ∧
    (∀ e, e ≠ c → (s.raise c epc code faddr info).ctx? e = s.ctx? e) ∧
    ((s.raise c epc code faddr info).ctl.verdict = .trapped ∨ (s.raise c epc code faddr info).ctl.verdict = .faulted) := by
  unfold State.raise State.faultLaunch
  dsimp only
  split
  · exact ⟨rfl, rfl, rfl, rfl, fun e he => tget_tset_ne _ _ he, .inl rfl⟩
  · split
    · exact ⟨rfl, rfl, rfl, rfl, fun e he => tget_tset_ne _ _ he, .inr rfl⟩
    · exact ⟨rfl, rfl, rfl, rfl, fun e he => tget_tset_ne _ _ he, .inr rfl⟩

/-- A bench's cause is added to those of its launch, and nothing else changes. -/
theorem State.benchFault_eq (s : State) (b epc code faddr info : Nat) :
    s.benchFault b epc code faddr info =
      { s with frame := { s.frame with faults := s.frame.faults ++ [⟨code, info, faddr, epc, 1, b, 0⟩] }
               ctl := { s.ctl with verdict := .faulted } } := rfl

/-- A cause found at an element is taken as any other; FIRSTERR is what sets it apart. -/
theorem State.raiseAt_verdict (s : State) (c epc code faddr info lidx : Nat) :
    (s.raiseAt c epc code faddr info lidx).ctl.verdict = .trapped ∨ (s.raiseAt c epc code faddr info lidx).ctl.verdict = .faulted := by
  unfold State.raiseAt
  dsimp only
  split
  · exact .inl rfl
  · exact .inr rfl

/-! ### Outcomes -/

/-- A gated syllable takes effect only when its pipes are ready and its own outcome is an effect. -/
theorem gated_ok {g : Run Unit} {popped : Bool} {r : Run State} {u : State} (h : gated g popped r = .ok u) :
    g = .ok () ∧ r = .ok u := by
  unfold gated at h
  split at h
  · exact ⟨rfl, h⟩
  · split at h
    · cases h
    · cases h
    · split at h <;> cases h
  · cases h
@[simp] theorem gated_ready (popped : Bool) (r : Run State) : gated (.ok ()) popped r = r := rfl

/-- A syllable of a context that retires did so with its body's state. -/
theorem finishW_retired {s t : State} {c : Nat} {r : Run State} (h : finishW s c r = .next t) (hv : t.ctl.verdict = .retired) :
    ∃ u, r = .ok u ∧ t = u.retire := by
  unfold finishW at h
  split at h
  · rename_i u; exact ⟨u, rfl, (Host.Outcome.next.inj h).symm⟩
  · obtain rfl := Host.Outcome.next.inj h
    rcases (s.raise_frame c s.ctl.group _ _ _).2.2.2.2.2 with e | e <;> rw [e] at hv <;> cases hv
  · obtain rfl := Host.Outcome.next.inj h; cases hv
  · obtain rfl := Host.Outcome.next.inj h
    rcases s.raiseAt_verdict c s.ctl.group _ _ _ _ with e | e <;> rw [e] at hv <;> cases hv
  · obtain rfl := Host.Outcome.next.inj h; cases hv

/-- A slot's syllable that retires did so with its body's state; a frame syllable never waits. -/
theorem finishF_retired {s t : State} {b : Nat} {r : Run State} (h : finishF' s b r = .next t) (hv : t.ctl.verdict = .retired) :
    (∃ u, r = .ok u ∧ t = u.retire) ∨ (∃ w, r = .error (.wait w) ∧ t = s.retire) := by
  unfold finishF' at h
  split at h
  · rename_i u; exact .inl ⟨u, rfl, (Host.Outcome.next.inj h).symm⟩
  · obtain rfl := Host.Outcome.next.inj h; cases hv
  · obtain rfl := Host.Outcome.next.inj h; cases hv
  · obtain rfl := Host.Outcome.next.inj h; cases hv
  · rename_i w; exact .inr ⟨w, rfl, (Host.Outcome.next.inj h).symm⟩

/-- A syllable of a live context that retires was nullified by its guard, or its own effect was made. -/
theorem onCtx_retired {s t : State} {c maj x g d a b : Nat} {sel : Bool} {pre : Run Unit} {body : State → Run State}
    (hx : (s.ctx? c).isSome) (h : s.onCtx c maj x g d a b sel pre body = .next t) (hv : t.ctl.verdict = .retired) :
    (sel = false ∧ (s.ctx c).guard g = false ∧ t = s.retire) ∨
    (pre = .ok () ∧ legalW maj x d a b = true ∧ ∃ u, body s = .ok u ∧ t = u.retire) := by
  unfold State.onCtx at h
  split at h
  · rename_i hn; simp [hn] at hx
  · rename_i xc hx
    have hc : s.ctx c = xc := State.ctx_of_ctx? hx
    split at h
    · obtain ⟨u, hu, -⟩ := finishW_retired h hv; cases hu
    · rename_i sg hs
      split at h
      · obtain ⟨u, hu, -⟩ := finishW_retired h hv; cases hu
      · rename_i hl
        split at h
        · rename_i hg
          simp only [Bool.and_eq_true, Bool.not_eq_true'] at hg
          exact .inl ⟨hg.1, hc ▸ hg.2, (Host.Outcome.next.inj h).symm⟩
        · obtain ⟨u, hu, ht⟩ := finishW_retired h hv
          refine .inr ?_
          have hl' : legalW maj x d a b = true := by
            unfold legalW; rw [hs]; revert hl; cases hq : sg.ok d a b <;> simp [hq]
          cases hp : pre with
          | error e => rw [hp] at hu; cases hu
          | ok _ =>
            rw [hp] at hu
            exact ⟨rfl, hl', u, (gated_ok hu).2, ht⟩

/-- A slot's syllable that retires was nullified by its guard, or its own effect was made. -/
theorem onSlot_retired {s t : State} {b maj x g d a bb : Nat} {sl : SlotName} {sel : Bool} {body : State → Run State}
    (h : s.onSlot b sl maj x g d a bb sel body = .next t) (hv : t.ctl.verdict = .retired) :
    t = s.retire ∨ (legalF maj x d a bb = true ∧ ∃ u, body s = .ok u ∧ t = u.retire) := by
  unfold State.onSlot at h
  split at h
  · rcases finishF_retired h hv with ⟨u, hu, -⟩ | ⟨w, hw, -⟩
    · cases hu
    · cases hw
  · rename_i sg hs
    split at h
    · rcases finishF_retired h hv with ⟨u, hu, -⟩ | ⟨w, hw, -⟩
      · cases hu
      · cases hw
    · rename_i hl
      split at h
      · exact .inl (Host.Outcome.next.inj h).symm
      · have hl' : legalF maj x d a bb = true := by
          unfold legalF; rw [hs]; revert hl; cases hq : sg.ok d a bb <;> simp [hq]
        rcases finishF_retired h hv with ⟨u, hu, ht⟩ | ⟨w, -, ht⟩
        · exact .inr ⟨hl', u, hu, ht⟩
        · exact .inl ht

end Sys2Proof.Machine
end

