-- ==== Sys2Proof/Laws/PerInstr.lean ====
section
/-! SUPPORT. Encoding and decoding, instruction by instruction: `RoundTrip.Statement i` says that the word of a well-formed `i` decodes to
`i`. One lemma per field layout reads the fields back from a word; one lemma per constructor applies it. -/

namespace Sys2Proof.Laws

theorem decode_eq {m x w : Nat} (h1 : fld w 24 7 = m) (h2 : fld w 0 2 = x) : decode w = decodeFields m x w := by
  simp only [decode, h1, h2]

theorem decode_major {m w : Nat} (h1 : fld w 24 7 = m) : decode w = decodeFields m (fld w 0 2) w := by
  simp only [decode, h1]

/-! ### Field layouts -/

theorem tri_word {m x w : Nat} {f : Tri} (e : m * 16777216 + x + f.bits = w) (h : f.wf = true) (hm : m < 128) (hx : x < 4) :
    fld w 24 7 = m ∧ fld w 0 2 = x ∧ Tri.get w = f := by
  obtain ⟨s, g, d, a, b⟩ := f
  simp only [Tri.wf, Bool.and_eq_true, decide_eq_true_eq] at h
  simp only [Tri.bits] at e
  simp only [fld, Tri.get]
  exact ⟨by omega, by omega, by simp only [Tri.mk.injEq]; refine ⟨?_, ?_, ?_, ?_, ?_⟩ <;> omega⟩

theorem bin_word {m x w : Nat} {f : Bin} (e : m * 16777216 + x + f.bits = w) (h : f.wf = true) (hm : m < 128) (hx : x < 4) :
    fld w 24 7 = m ∧ fld w 0 2 = x ∧ Bin.get w = f ∧ (fld w 2 6 == 0) = true := by
  obtain ⟨s, g, d, a⟩ := f
  simp only [Bin.wf, Bool.and_eq_true, decide_eq_true_eq] at h
  simp only [Bin.bits] at e
  simp only [fld, Bin.get]
  exact ⟨by omega, by omega, by simp only [Bin.mk.injEq]; refine ⟨?_, ?_, ?_, ?_⟩ <;> omega, by simp only [beq_iff_eq]; omega⟩

theorem imm8_word {m w : Nat} {f : Imm8} (e : m * 16777216 + f.bits = w) (h : f.wf = true) (hm : m < 128) :
    fld w 24 7 = m ∧ Imm8.get w = f := by
  obtain ⟨s, g, d, a, i⟩ := f
  simp only [Imm8.wf, Bool.and_eq_true, decide_eq_true_eq] at h
  simp only [Imm8.bits] at e
  simp only [fld, Imm8.get]
  exact ⟨by omega, by simp only [Imm8.mk.injEq]; refine ⟨?_, ?_, ?_, ?_, ?_⟩ <;> omega⟩

theorem wide_word {m w : Nat} {f : Wide} (e : m * 16777216 + f.bits = w) (h : f.wf = true) (hm : m < 128) :
    fld w 24 7 = m ∧ Wide.get w = f := by
  obtain ⟨s, g, d, i⟩ := f
  simp only [Wide.wf, Bool.and_eq_true, decide_eq_true_eq] at h
  simp only [Wide.bits] at e
  simp only [fld, Wide.get]
  exact ⟨by omega, by simp only [Wide.mk.injEq]; refine ⟨?_, ?_, ?_, ?_⟩ <;> omega⟩

theorem imm6_word {m x w : Nat} {f : Imm6} (e : m * 16777216 + x + f.bits = w) (h : f.wf = true) (hm : m < 128) (hx : x < 4) :
    fld w 24 7 = m ∧ fld w 0 2 = x ∧ Imm6.get w = f := by
  obtain ⟨s, g, d, a, i⟩ := f
  simp only [Imm6.wf, Bool.and_eq_true, decide_eq_true_eq] at h
  simp only [Imm6.bits] at e
  simp only [fld, Imm6.get]
  exact ⟨by omega, by omega, by simp only [Imm6.mk.injEq]; refine ⟨?_, ?_, ?_, ?_, ?_⟩ <;> omega⟩

theorem lea_word {m w : Nat} {f : Lea} (e : m * 16777216 + f.bits = w) (h : f.wf = true) (hm : m < 128) :
    fld w 24 7 = m ∧ Lea.get w = f := by
  obtain ⟨s, g, d, a, b, c⟩ := f
  simp only [Lea.wf, Bool.and_eq_true, decide_eq_true_eq] at h
  simp only [Lea.bits] at e
  simp only [fld, Lea.get]
  exact ⟨by omega, by simp only [Lea.mk.injEq]; refine ⟨?_, ?_, ?_, ?_, ?_, ?_⟩ <;> omega⟩

theorem jump_word {m w : Nat} {f : Jump} (e : m * 16777216 + f.bits = w) (h : f.wf = true) (hm : m < 128) :
    fld w 24 7 = m ∧ Jump.get w = f := by
  obtain ⟨s, g, i⟩ := f
  simp only [Jump.wf, Bool.and_eq_true, decide_eq_true_eq] at h
  simp only [Jump.bits] at e
  simp only [fld, Jump.get]
  exact ⟨by omega, by simp only [Jump.mk.injEq]; refine ⟨?_, ?_, ?_⟩ <;> omega⟩

theorem una_word {m x w : Nat} {f : UnA} (e : m * 16777216 + x + f.bits = w) (h : f.wf = true) (hm : m < 128) (hx : x < 4) :
    fld w 24 7 = m ∧ fld w 0 2 = x ∧ UnA.get w = f ∧ (fld w 2 6 == 0 && fld w 14 6 == 0) = true := by
  obtain ⟨s, g, a⟩ := f
  simp only [UnA.wf, Bool.and_eq_true, decide_eq_true_eq] at h
  simp only [UnA.bits] at e
  simp only [fld, UnA.get]
  exact ⟨by omega, by omega, by simp only [UnA.mk.injEq]; refine ⟨?_, ?_, ?_⟩ <;> omega, by simp only [Bool.and_eq_true, beq_iff_eq]; omega⟩

theorem loopk_word {m w : Nat} {f : Loopk} (e : m * 16777216 + f.bits = w) (h : f.wf = true) (hm : m < 128) :
    fld w 24 7 = m ∧ Loopk.get w = f ∧ (fld w 17 7 == 0) = true := by
  obtain ⟨s, d, a, i⟩ := f
  simp only [Loopk.wf, Bool.and_eq_true, decide_eq_true_eq] at h
  simp only [Loopk.bits] at e
  simp only [fld, Loopk.get]
  exact ⟨by omega, by simp only [Loopk.mk.injEq]; refine ⟨?_, ?_, ?_, ?_⟩ <;> omega, by simp only [beq_iff_eq]; omega⟩

theorem bare_word {m x w : Nat} {f : Bare} (e : m * 16777216 + x + f.bits = w) (h : f.wf = true) (hm : m < 128) (hx : x < 4) :
    fld w 24 7 = m ∧ fld w 0 2 = x ∧ Bare.get w = f ∧ (fld w 2 22 == 0) = true := by
  obtain ⟨s⟩ := f
  simp only [Bare.wf, decide_eq_true_eq] at h
  simp only [Bare.bits] at e
  simp only [fld, Bare.get]
  exact ⟨by omega, by omega, by simp only [Bare.mk.injEq]; omega, by simp only [beq_iff_eq]; omega⟩

theorem aimm_word {m x w : Nat} {f : AImm} (e : m * 16777216 + x + f.bits = w) (h : f.wf = true) (hm : m < 128) (hx : x < 4) :
    fld w 24 7 = m ∧ fld w 0 2 = x ∧ AImm.get w = f ∧ (fld w 14 6 == 0) = true := by
  obtain ⟨s, g, a, i⟩ := f
  simp only [AImm.wf, Bool.and_eq_true, decide_eq_true_eq] at h
  simp only [AImm.bits] at e
  simp only [fld, AImm.get]
  exact ⟨by omega, by omega, by simp only [AImm.mk.injEq]; refine ⟨?_, ?_, ?_, ?_⟩ <;> omega, by simp only [beq_iff_eq]; omega⟩

theorem unb_word {m x w : Nat} {f : UnB} (e : m * 16777216 + x + f.bits = w) (h : f.wf = true) (hm : m < 128) (hx : x < 4) :
    fld w 24 7 = m ∧ fld w 0 2 = x ∧ UnB.get w = f ∧ (fld w 8 12 == 0) = true := by
  obtain ⟨s, g, b⟩ := f
  simp only [UnB.wf, Bool.and_eq_true, decide_eq_true_eq] at h
  simp only [UnB.bits] at e
  simp only [fld, UnB.get]
  exact ⟨by omega, by omega, by simp only [UnB.mk.injEq]; refine ⟨?_, ?_, ?_⟩ <;> omega, by simp only [beq_iff_eq]; omega⟩

theorem local_word {m w : Nat} {f : Local} (e : m * 16777216 + f.bits = w) (h : f.wf = true) (hm : m < 128) :
    fld w 24 7 = m ∧ Local.get w = f := by
  obtain ⟨s, g, d, a, i, m⟩ := f
  simp only [Local.wf, Bool.and_eq_true, decide_eq_true_eq] at h
  simp only [Local.bits] at e
  simp only [fld, Local.get]
  exact ⟨by omega, by simp only [Local.mk.injEq]; refine ⟨?_, ?_, ?_, ?_, ?_, ?_⟩ <;> omega⟩

theorem und_word {m x w : Nat} {f : UnD} (e : m * 16777216 + x + f.bits = w) (h : f.wf = true) (hm : m < 128) (hx : x < 4) :
    fld w 24 7 = m ∧ fld w 0 2 = x ∧ UnD.get w = f ∧ (fld w 2 12 == 0) = true := by
  obtain ⟨s, g, d⟩ := f
  simp only [UnD.wf, Bool.and_eq_true, decide_eq_true_eq] at h
  simp only [UnD.bits] at e
  simp only [fld, UnD.get]
  exact ⟨by omega, by omega, by simp only [UnD.mk.injEq]; refine ⟨?_, ?_, ?_⟩ <;> omega, by simp only [beq_iff_eq]; omega⟩

theorem ab_word {m x w : Nat} {f : AB} (e : m * 16777216 + x + f.bits = w) (h : f.wf = true) (hm : m < 128) (hx : x < 4) :
    fld w 24 7 = m ∧ fld w 0 2 = x ∧ AB.get w = f ∧ (fld w 14 6 == 0) = true := by
  obtain ⟨s, g, a, b⟩ := f
  simp only [AB.wf, Bool.and_eq_true, decide_eq_true_eq] at h
  simp only [AB.bits] at e
  simp only [fld, AB.get]
  exact ⟨by omega, by omega, by simp only [AB.mk.injEq]; refine ⟨?_, ?_, ?_, ?_⟩ <;> omega, by simp only [beq_iff_eq]; omega⟩

theorem repf_word {m x w : Nat} {f : Repf} (e : m * 16777216 + x + f.bits = w) (h : f.wf = true) (hm : m < 128) (hx : x < 4) :
    fld w 24 7 = m ∧ fld w 0 2 = x ∧ Repf.get w = f ∧ (fld w 17 3 == 0) = true := by
  obtain ⟨s, g, f, a, l, t⟩ := f
  simp only [Repf.wf, Bool.and_eq_true, decide_eq_true_eq] at h
  simp only [Repf.bits] at e
  simp only [fld, Repf.get]
  exact ⟨by omega, by omega, by simp only [Repf.mk.injEq]; refine ⟨?_, ?_, ?_, ?_, ?_, ?_⟩ <;> omega, by simp only [beq_iff_eq]; omega⟩

theorem nul_word {m x w : Nat} {f : Nul} (e : m * 16777216 + x + f.bits = w) (h : f.wf = true) (hm : m < 128) (hx : x < 4) :
    fld w 24 7 = m ∧ fld w 0 2 = x ∧ Nul.get w = f ∧ (fld w 2 18 == 0) = true := by
  obtain ⟨s, g⟩ := f
  simp only [Nul.wf, Bool.and_eq_true, decide_eq_true_eq] at h
  simp only [Nul.bits] at e
  simp only [fld, Nul.get]
  exact ⟨by omega, by omega, by simp only [Nul.mk.injEq]; refine ⟨?_, ?_⟩ <;> omega, by simp only [beq_iff_eq]; omega⟩

theorem binh2_word {m x w : Nat} {f : BinH2} (e : m * 16777216 + x + f.bits = w) (h : f.wf = true) (hm : m < 128) (hx : x < 4) :
    fld w 24 7 = m ∧ fld w 0 2 = x ∧ BinH2.get w = f ∧ (fld w 3 5 == 0) = true := by
  obtain ⟨s, g, d, a, h⟩ := f
  simp only [BinH2.wf, Bool.and_eq_true, decide_eq_true_eq] at h
  simp only [BinH2.bits] at e
  simp only [fld, BinH2.get]
  exact ⟨by omega, by omega, by simp only [BinH2.mk.injEq]; refine ⟨?_, ?_, ?_, ?_, ?_⟩ <;> omega, by simp only [beq_iff_eq]; omega⟩

theorem binh7_word {m x w : Nat} {f : BinH7} (e : m * 16777216 + x + f.bits = w) (h : f.wf = true) (hm : m < 128) (hx : x < 4) :
    fld w 24 7 = m ∧ fld w 0 2 = x ∧ BinH7.get w = f ∧ (fld w 2 5 == 0) = true := by
  obtain ⟨s, g, d, a, h⟩ := f
  simp only [BinH7.wf, Bool.and_eq_true, decide_eq_true_eq] at h
  simp only [BinH7.bits] at e
  simp only [fld, BinH7.get]
  exact ⟨by omega, by omega, by simp only [BinH7.mk.injEq]; refine ⟨?_, ?_, ?_, ?_, ?_⟩ <;> omega, by simp only [beq_iff_eq]; omega⟩

theorem cvthr_word {m x w : Nat} {f : CvtHR} (e : m * 16777216 + x + f.bits = w) (h : f.wf = true) (hm : m < 128) (hx : x < 4) :
    fld w 24 7 = m ∧ fld w 0 2 = x ∧ CvtHR.get w = f ∧ (fld w 5 2 == 0) = true := by
  obtain ⟨s, g, d, a, h, r⟩ := f
  simp only [CvtHR.wf, Bool.and_eq_true, decide_eq_true_eq] at h
  simp only [CvtHR.bits] at e
  simp only [fld, CvtHR.get]
  exact ⟨by omega, by omega, by simp only [CvtHR.mk.injEq]; refine ⟨?_, ?_, ?_, ?_, ?_, ?_⟩ <;> omega, by simp only [beq_iff_eq]; omega⟩

theorem cvtr_word {m x w : Nat} {f : CvtR} (e : m * 16777216 + x + f.bits = w) (h : f.wf = true) (hm : m < 128) (hx : x < 4) :
    fld w 24 7 = m ∧ fld w 0 2 = x ∧ CvtR.get w = f ∧ (fld w 5 3 == 0) = true := by
  obtain ⟨s, g, d, a, r⟩ := f
  simp only [CvtR.wf, Bool.and_eq_true, decide_eq_true_eq] at h
  simp only [CvtR.bits] at e
  simp only [fld, CvtR.get]
  exact ⟨by omega, by omega, by simp only [CvtR.mk.injEq]; refine ⟨?_, ?_, ?_, ?_, ?_⟩ <;> omega, by simp only [beq_iff_eq]; omega⟩

theorem binn_word {m x w : Nat} {f : BinN} (e : m * 16777216 + x + f.bits = w) (h : f.wf = true) (hm : m < 128) (hx : x < 4) :
    fld w 24 7 = m ∧ fld w 0 2 = x ∧ BinN.get w = f := by
  obtain ⟨s, g, d, a, n⟩ := f
  simp only [BinN.wf, Bool.and_eq_true, decide_eq_true_eq] at h
  simp only [BinN.bits] at e
  simp only [fld, BinN.get]
  exact ⟨by omega, by omega, by simp only [BinN.mk.injEq]; refine ⟨?_, ?_, ?_, ?_, ?_⟩ <;> omega⟩

theorem guardn_word {m x w : Nat} {f : GuardN} (e : m * 16777216 + x + f.bits = w) (h : f.wf = true) (hm : m < 128) (hx : x < 4) :
    fld w 24 7 = m ∧ fld w 0 2 = x ∧ GuardN.get w = f ∧ (fld w 18 2 == 0) = true := by
  obtain ⟨s, g, d, a, n⟩ := f
  simp only [GuardN.wf, Bool.and_eq_true, decide_eq_true_eq] at h
  simp only [GuardN.bits] at e
  simp only [fld, GuardN.get]
  exact ⟨by omega, by omega, by simp only [GuardN.mk.injEq]; refine ⟨?_, ?_, ?_, ?_, ?_⟩ <;> omega, by simp only [beq_iff_eq]; omega⟩

theorem mm_word {m x w : Nat} {f : Mm} (e : m * 16777216 + x + f.bits = w) (h : f.wf = true) (hm : m < 128) (hx : x < 4) :
    fld w 24 7 = m ∧ fld w 0 2 = x ∧ Mm.get w = f ∧ (fld w 5 2 == 0 && fld w 18 2 == 0) = true := by
  obtain ⟨s, g, d, a, n, k⟩ := f
  simp only [Mm.wf, Bool.and_eq_true, decide_eq_true_eq] at h
  simp only [Mm.bits] at e
  simp only [fld, Mm.get]
  exact ⟨by omega, by omega, by simp only [Mm.mk.injEq]; refine ⟨?_, ?_, ?_, ?_, ?_, ?_⟩ <;> omega, by simp only [Bool.and_eq_true, beq_iff_eq]; omega⟩

theorem binn2_word {m x w : Nat} {f : BinN2} (e : m * 16777216 + x + f.bits = w) (h : f.wf = true) (hm : m < 128) (hx : x < 4) :
    fld w 24 7 = m ∧ fld w 0 2 = x ∧ BinN2.get w = f ∧ (fld w 3 5 == 0) = true := by
  obtain ⟨s, g, d, a, n⟩ := f
  simp only [BinN2.wf, Bool.and_eq_true, decide_eq_true_eq] at h
  simp only [BinN2.bits] at e
  simp only [fld, BinN2.get]
  exact ⟨by omega, by omega, by simp only [BinN2.mk.injEq]; refine ⟨?_, ?_, ?_, ?_, ?_⟩ <;> omega, by simp only [beq_iff_eq]; omega⟩

theorem handled_word {m x w : Nat} {f : HandleD} (e : m * 16777216 + x + f.bits = w) (h : f.wf = true) (hm : m < 128) (hx : x < 4) :
    fld w 24 7 = m ∧ fld w 0 2 = x ∧ HandleD.get w = f ∧ (fld w 2 12 == 0 && fld w 18 2 == 0) = true := by
  obtain ⟨s, g, d⟩ := f
  simp only [HandleD.wf, Bool.and_eq_true, decide_eq_true_eq] at h
  simp only [HandleD.bits] at e
  simp only [fld, HandleD.get]
  exact ⟨by omega, by omega, by simp only [HandleD.mk.injEq]; refine ⟨?_, ?_, ?_⟩ <;> omega, by simp only [Bool.and_eq_true, beq_iff_eq]; omega⟩

theorem handlerd_word {m x w : Nat} {f : HandleRd} (e : m * 16777216 + x + f.bits = w) (h : f.wf = true) (hm : m < 128) (hx : x < 4) :
    fld w 24 7 = m ∧ fld w 0 2 = x ∧ HandleRd.get w = f ∧ (fld w 12 2 == 0) = true := by
  obtain ⟨s, g, d, a, b⟩ := f
  simp only [HandleRd.wf, Bool.and_eq_true, decide_eq_true_eq] at h
  simp only [HandleRd.bits] at e
  simp only [fld, HandleRd.get]
  exact ⟨by omega, by omega, by simp only [HandleRd.mk.injEq]; refine ⟨?_, ?_, ?_, ?_, ?_⟩ <;> omega, by simp only [beq_iff_eq]; omega⟩

theorem handleab_word {m x w : Nat} {f : HandleAB} (e : m * 16777216 + x + f.bits = w) (h : f.wf = true) (hm : m < 128) (hx : x < 4) :
    fld w 24 7 = m ∧ fld w 0 2 = x ∧ HandleAB.get w = f ∧ (fld w 18 2 == 0) = true := by
  obtain ⟨s, g, d, a, b⟩ := f
  simp only [HandleAB.wf, Bool.and_eq_true, decide_eq_true_eq] at h
  simp only [HandleAB.bits] at e
  simp only [fld, HandleAB.get]
  exact ⟨by omega, by omega, by simp only [HandleAB.mk.injEq]; refine ⟨?_, ?_, ?_, ?_, ?_⟩ <;> omega, by simp only [beq_iff_eq]; omega⟩

theorem osmupd_word {m x w : Nat} {f : OsmUpd} (e : m * 16777216 + x + f.bits = w) (h : f.wf = true) (hm : m < 128) (hx : x < 4) :
    fld w 24 7 = m ∧ fld w 0 2 = x ∧ OsmUpd.get w = f ∧ (fld w 12 2 == 0 && fld w 18 2 == 0) = true := by
  obtain ⟨s, g, d, a, b⟩ := f
  simp only [OsmUpd.wf, Bool.and_eq_true, decide_eq_true_eq] at h
  simp only [OsmUpd.bits] at e
  simp only [fld, OsmUpd.get]
  exact ⟨by omega, by omega, by simp only [OsmUpd.mk.injEq]; refine ⟨?_, ?_, ?_, ?_, ?_⟩ <;> omega, by simp only [Bool.and_eq_true, beq_iff_eq]; omega⟩

theorem osmmrg_word {m x w : Nat} {f : OsmMrg} (e : m * 16777216 + x + f.bits = w) (h : f.wf = true) (hm : m < 128) (hx : x < 4) :
    fld w 24 7 = m ∧ fld w 0 2 = x ∧ OsmMrg.get w = f ∧ (fld w 2 6 == 0 && fld w 12 2 == 0 && fld w 18 2 == 0) = true := by
  obtain ⟨s, g, d, a⟩ := f
  simp only [OsmMrg.wf, Bool.and_eq_true, decide_eq_true_eq] at h
  simp only [OsmMrg.bits] at e
  simp only [fld, OsmMrg.get]
  exact ⟨by omega, by omega, by simp only [OsmMrg.mk.injEq]; refine ⟨?_, ?_, ?_, ?_⟩ <;> omega, by simp only [Bool.and_eq_true, beq_iff_eq]; omega⟩

theorem lload_word {m x w : Nat} {f : Lload} (e : m * 16777216 + x + f.bits = w) (h : f.wf = true) (hm : m < 128) (hx : x < 4) :
    fld w 24 7 = m ∧ fld w 0 2 = x ∧ Lload.get w = f ∧ (fld w 5 3 == 0 && fld w 14 6 == 0) = true := by
  obtain ⟨s, g, a, k⟩ := f
  simp only [Lload.wf, Bool.and_eq_true, decide_eq_true_eq] at h
  simp only [Lload.bits] at e
  simp only [fld, Lload.get]
  exact ⟨by omega, by omega, by simp only [Lload.mk.injEq]; refine ⟨?_, ?_, ?_, ?_⟩ <;> omega, by simp only [Bool.and_eq_true, beq_iff_eq]; omega⟩

theorem db_word {m x w : Nat} {f : DB} (e : m * 16777216 + x + f.bits = w) (h : f.wf = true) (hm : m < 128) (hx : x < 4) :
    fld w 24 7 = m ∧ fld w 0 2 = x ∧ DB.get w = f ∧ (fld w 8 6 == 0) = true := by
  obtain ⟨s, g, d, b⟩ := f
  simp only [DB.wf, Bool.and_eq_true, decide_eq_true_eq] at h
  simp only [DB.bits] at e
  simp only [fld, DB.get]
  exact ⟨by omega, by omega, by simp only [DB.mk.injEq]; refine ⟨?_, ?_, ?_, ?_⟩ <;> omega, by simp only [beq_iff_eq]; omega⟩

theorem barwait_word {m x w : Nat} {f : BarWait} (e : m * 16777216 + x + f.bits = w) (h : f.wf = true) (hm : m < 128) (hx : x < 4) :
    fld w 24 7 = m ∧ fld w 0 2 = x ∧ BarWait.get w = f ∧ (fld w 3 5 == 0 && fld w 14 6 == 0) = true := by
  obtain ⟨s, g, a, p⟩ := f
  simp only [BarWait.wf, Bool.and_eq_true, decide_eq_true_eq] at h
  simp only [BarWait.bits] at e
  simp only [fld, BarWait.get]
  exact ⟨by omega, by omega, by simp only [BarWait.mk.injEq]; refine ⟨?_, ?_, ?_, ?_⟩ <;> omega, by simp only [Bool.and_eq_true, beq_iff_eq]; omega⟩

theorem bartest_word {m x w : Nat} {f : BarTest} (e : m * 16777216 + x + f.bits = w) (h : f.wf = true) (hm : m < 128) (hx : x < 4) :
    fld w 24 7 = m ∧ fld w 0 2 = x ∧ BarTest.get w = f ∧ (fld w 3 5 == 0) = true := by
  obtain ⟨s, g, d, a, p⟩ := f
  simp only [BarTest.wf, Bool.and_eq_true, decide_eq_true_eq] at h
  simp only [BarTest.bits] at e
  simp only [fld, BarTest.get]
  exact ⟨by omega, by omega, by simp only [BarTest.mk.injEq]; refine ⟨?_, ?_, ?_, ?_, ?_⟩ <;> omega, by simp only [beq_iff_eq]; omega⟩

theorem anchor_word {m x w : Nat} {f : Anchor} (e : m * 16777216 + x + f.bits = w) (h : f.wf = true) (hm : m < 128) (hx : x < 4) :
    fld w 24 7 = m ∧ fld w 0 2 = x ∧ Anchor.get w = f ∧ (fld w 8 16 == 0) = true := by
  obtain ⟨s, i⟩ := f
  simp only [Anchor.wf, Bool.and_eq_true, decide_eq_true_eq] at h
  simp only [Anchor.bits] at e
  simp only [fld, Anchor.get]
  exact ⟨by omega, by omega, by simp only [Anchor.mk.injEq]; refine ⟨?_, ?_⟩ <;> omega, by simp only [beq_iff_eq]; omega⟩

theorem dimm_word {m x w : Nat} {f : DImm} (e : m * 16777216 + x + f.bits = w) (h : f.wf = true) (hm : m < 128) (hx : x < 4) :
    fld w 24 7 = m ∧ fld w 0 2 = x ∧ DImm.get w = f ∧ (fld w 8 6 == 0) = true := by
  obtain ⟨s, g, d, i⟩ := f
  simp only [DImm.wf, Bool.and_eq_true, decide_eq_true_eq] at h
  simp only [DImm.bits] at e
  simp only [fld, DImm.get]
  exact ⟨by omega, by omega, by simp only [DImm.mk.injEq]; refine ⟨?_, ?_, ?_, ?_⟩ <;> omega, by simp only [beq_iff_eq]; omega⟩

theorem seqlwr_word {m x w : Nat} {f : SeqlWr} (e : m * 16777216 + x + f.bits = w) (h : f.wf = true) (hm : m < 128) (hx : x < 4) :
    fld w 24 7 = m ∧ fld w 0 2 = x ∧ SeqlWr.get w = f ∧ (fld w 2 6 == 0 && fld w 17 3 == 0) = true := by
  obtain ⟨s, g, d, a⟩ := f
  simp only [SeqlWr.wf, Bool.and_eq_true, decide_eq_true_eq] at h
  simp only [SeqlWr.bits] at e
  simp only [fld, SeqlWr.get]
  exact ⟨by omega, by omega, by simp only [SeqlWr.mk.injEq]; refine ⟨?_, ?_, ?_, ?_⟩ <;> omega, by simp only [Bool.and_eq_true, beq_iff_eq]; omega⟩

theorem seqlrd_word {m x w : Nat} {f : SeqlRd} (e : m * 16777216 + x + 4 + f.bits = w) (h : f.wf = true) (hm : m < 128) (hx : x < 4) :
    fld w 24 7 = m ∧ fld w 0 2 = x ∧ SeqlRd.get w = f ∧ (fld w 2 6 == 1 && fld w 11 3 == 0) = true := by
  obtain ⟨s, g, d, a⟩ := f
  simp only [SeqlRd.wf, Bool.and_eq_true, decide_eq_true_eq] at h
  simp only [SeqlRd.bits] at e
  simp only [fld, SeqlRd.get]
  exact ⟨by omega, by omega, by simp only [SeqlRd.mk.injEq]; refine ⟨?_, ?_, ?_, ?_⟩ <;> omega, by simp only [Bool.and_eq_true, beq_iff_eq]; omega⟩

theorem pause_word {m x w : Nat} {f : Pause} (e : m * 16777216 + x + f.bits = w) (h : f.wf = true) (hm : m < 128) (hx : x < 4) :
    fld w 24 7 = m ∧ fld w 0 2 = x ∧ Pause.get w = f ∧ (fld w 20 4 == 0) = true := by
  obtain ⟨s, c⟩ := f
  simp only [Pause.wf, Bool.and_eq_true, decide_eq_true_eq] at h
  simp only [Pause.bits] at e
  simp only [fld, Pause.get]
  exact ⟨by omega, by omega, by simp only [Pause.mk.injEq]; refine ⟨?_, ?_⟩ <;> omega, by simp only [beq_iff_eq]; omega⟩

theorem bhdr_word {m x w : Nat} {f : Bhdr} (e : m * 16777216 + x + f.bits = w) (h : f.wf = true) (hm : m < 128) (hx : x < 4) :
    fld w 24 7 = m ∧ fld w 0 2 = x ∧ Bhdr.get w = f := by
  obtain ⟨s, p, w, v, k, n, x⟩ := f
  simp only [Bhdr.wf, Bool.and_eq_true, decide_eq_true_eq] at h
  simp only [Bhdr.bits] at e
  simp only [fld, Bhdr.get]
  exact ⟨by omega, by omega, by simp only [Bhdr.mk.injEq]; refine ⟨?_, ?_, ?_, ?_, ?_, ?_, ?_⟩ <;> omega⟩

theorem trapimm_word {m x w : Nat} {f : TrapImm} (e : m * 16777216 + x + f.bits = w) (h : f.wf = true) (hm : m < 128) (hx : x < 4) :
    fld w 24 7 = m ∧ fld w 0 2 = x ∧ TrapImm.get w = f ∧ (fld w 8 12 == 0) = true := by
  obtain ⟨s, g, i⟩ := f
  simp only [TrapImm.wf, Bool.and_eq_true, decide_eq_true_eq] at h
  simp only [TrapImm.bits] at e
  simp only [fld, TrapImm.get]
  exact ⟨by omega, by omega, by simp only [TrapImm.mk.injEq]; refine ⟨?_, ?_, ?_⟩ <;> omega, by simp only [beq_iff_eq]; omega⟩

theorem extimm_word {m w : Nat} {f : ExtImm} (e : m * 16777216 + f.bits = w) (h : f.wf = true) (hm : m < 128) :
    fld w 24 7 = m ∧ ExtImm.get w = f ∧ (fld w 31 1 == 0) = true := by
  obtain ⟨i⟩ := f
  simp only [ExtImm.wf, decide_eq_true_eq] at h
  simp only [ExtImm.bits] at e
  simp only [fld, ExtImm.get]
  exact ⟨by omega, by simp only [ExtImm.mk.injEq]; omega, by simp only [beq_iff_eq]; omega⟩

/-! ### Instructions -/

/-- The word of a well-formed instruction decodes to it. -/
def RoundTrip.Statement (i : Instr) : Prop := ∀ w, i.wf = true → encode i = some w → decode w = .ok i

theorem RoundTrip.segmentReady (a0 : Nat) : Statement (.segmentReady a0) := fun _ _ h => nomatch h

theorem RoundTrip.blockRelease (a0 : Nat) : Statement (.blockRelease a0) := fun _ _ h => nomatch h

theorem RoundTrip.anchorLate (a0 : Nat) : Statement (.anchorLate a0) := fun _ _ h => nomatch h

theorem RoundTrip.holdEnd : Statement (.holdEnd) := fun _ _ h => nomatch h

theorem RoundTrip.holdTimeout : Statement (.holdTimeout) := fun _ _ h => nomatch h

theorem RoundTrip.resultLanding (a0 : Nat) : Statement (.resultLanding a0) := fun _ _ h => nomatch h

theorem RoundTrip.matrixResultLanding (a0 : Nat) : Statement (.matrixResultLanding a0) := fun _ _ h => nomatch h

theorem RoundTrip.latchLanding (a0 : Nat) : Statement (.latchLanding a0) := fun _ _ h => nomatch h

theorem RoundTrip.copyGranuleRequest (a0 : Nat) (a1 : Nat) : Statement (.copyGranuleRequest a0 a1) := fun _ _ h => nomatch h

theorem RoundTrip.frameSlotStart (a0 : Nat) : Statement (.frameSlotStart a0) := fun _ _ h => nomatch h

theorem RoundTrip.copyLanding (a0 : Nat) (a1 : Nat) : Statement (.copyLanding a0 a1) := fun _ _ h => nomatch h

theorem RoundTrip.eccRereadComplete (a0 : Nat) (a1 : Nat) (a2 : Nat) : Statement (.eccRereadComplete a0 a1 a2) := fun _ _ h => nomatch h

theorem RoundTrip.channelEntryLanding (a0 : Nat) (a1 : Option (Nat × Nat)) : Statement (.channelEntryLanding a0 a1) := fun _ _ h => nomatch h

theorem RoundTrip.lpassLanding (a0 : Nat) : Statement (.lpassLanding a0) := fun _ _ h => nomatch h

theorem RoundTrip.winnowCopyLanding (a0 : Nat) : Statement (.winnowCopyLanding a0) := fun _ _ h => nomatch h

theorem RoundTrip.jigIteration (a0 : Nat) : Statement (.jigIteration a0) := fun _ _ h => nomatch h

theorem RoundTrip.mortiseOpen (a0 : Nat) : Statement (.mortiseOpen a0) := fun _ _ h => nomatch h

theorem RoundTrip.mortiseClose (a0 : Nat) : Statement (.mortiseClose a0) := fun _ _ h => nomatch h

theorem RoundTrip.holdLatch (a0 : Nat) : Statement (.holdLatch a0) := fun _ _ h => nomatch h

theorem RoundTrip.frameLaunchSetup (a0 : Nat) : Statement (.frameLaunchSetup a0) := fun _ _ h => nomatch h

theorem RoundTrip.frameLaunchComplete : Statement (.frameLaunchComplete) := fun _ _ h => nomatch h

theorem RoundTrip.framePause : Statement (.framePause) := fun _ _ h => nomatch h

theorem RoundTrip.nopause : Statement (.nopause) := fun _ _ h => nomatch h

theorem RoundTrip.launchRecordReady (a0 : Nat) : Statement (.launchRecordReady a0) := fun _ _ h => nomatch h

theorem RoundTrip.dispatchStep (a0 : Nat) : Statement (.dispatchStep a0) := fun _ _ h => nomatch h

theorem RoundTrip.priorityAgeing (a0 : Nat) : Statement (.priorityAgeing a0) := fun _ _ h => nomatch h

theorem RoundTrip.deferralExpiry (a0 : Nat) : Statement (.deferralExpiry a0) := fun _ _ h => nomatch h

theorem RoundTrip.weaveLaunchComplete (a0 : Nat) : Statement (.weaveLaunchComplete a0) := fun _ _ h => nomatch h

theorem RoundTrip.storeBufferDrain (a0 : Nat) : Statement (.storeBufferDrain a0) := fun _ _ h => nomatch h

theorem RoundTrip.weavePortAccess (a0 : Nat) : Statement (.weavePortAccess a0) := fun _ _ h => nomatch h

theorem RoundTrip.wfeWake (a0 : Nat) : Statement (.wfeWake a0) := fun _ _ h => nomatch h

theorem RoundTrip.wfeTimeout (a0 : Nat) : Statement (.wfeTimeout a0) := fun _ _ h => nomatch h

theorem RoundTrip.yieldResume (a0 : Nat) : Statement (.yieldResume a0) := fun _ _ h => nomatch h

theorem RoundTrip.pipeStallResume (a0 : Nat) : Statement (.pipeStallResume a0) := fun _ _ h => nomatch h

theorem RoundTrip.hjoinWake (a0 : Nat) : Statement (.hjoinWake a0) := fun _ _ h => nomatch h

theorem RoundTrip.gwaitWake (a0 : Nat) : Statement (.gwaitWake a0) := fun _ _ h => nomatch h

theorem RoundTrip.waitevWake (a0 : Nat) : Statement (.waitevWake a0) := fun _ _ h => nomatch h

theorem RoundTrip.barWaitWake (a0 : Nat) : Statement (.barWaitWake a0) := fun _ _ h => nomatch h

theorem RoundTrip.ldsFillWake (a0 : Nat) : Statement (.ldsFillWake a0) := fun _ _ h => nomatch h

theorem RoundTrip.watermarkStallResume (a0 : Nat) : Statement (.watermarkStallResume a0) := fun _ _ h => nomatch h

theorem RoundTrip.engineSlotFree (a0 : Nat) : Statement (.engineSlotFree a0) := fun _ _ h => nomatch h

theorem RoundTrip.splPendingWake (a0 : Nat) : Statement (.splPendingWake a0) := fun _ _ h => nomatch h

theorem RoundTrip.rmaWaitWake (a0 : Nat) : Statement (.rmaWaitWake a0) := fun _ _ h => nomatch h

theorem RoundTrip.replayExecution (a0 : Nat) : Statement (.replayExecution a0) := fun _ _ h => nomatch h

theorem RoundTrip.bteCopyPart (a0 : Nat) (a1 : Nat) : Statement (.bteCopyPart a0 a1) := fun _ _ h => nomatch h

theorem RoundTrip.bteCopyComplete (a0 : Nat) (a1 : Nat) : Statement (.bteCopyComplete a0 a1) := fun _ _ h => nomatch h

theorem RoundTrip.rmaCompletion (a0 : Nat) (a1 : Nat) (a2 : (List Nat)) : Statement (.rmaCompletion a0 a1 a2) := fun _ _ h => nomatch h

theorem RoundTrip.rmaIncomingRequest (a0 : RemoteRequest) : Statement (.rmaIncomingRequest a0) := fun _ _ h => nomatch h

theorem RoundTrip.rmaSendMatch (a0 : Nat) (a1 : Nat) (a2 : (List Nat)) : Statement (.rmaSendMatch a0 a1 a2) := fun _ _ h => nomatch h

theorem RoundTrip.rmaSendRetry (a0 : Nat) : Statement (.rmaSendRetry a0) := fun _ _ h => nomatch h

theorem RoundTrip.connectionContextFetch (a0 : Nat) (a1 : Bool) : Statement (.connectionContextFetch a0 a1) := fun _ _ h => nomatch h

theorem RoundTrip.switchContribution (a0 : Contribution) : Statement (.switchContribution a0) := fun _ _ h => nomatch h

theorem RoundTrip.switchGroupTimeout (a0 : Nat) (a1 : Nat) : Statement (.switchGroupTimeout a0 a1) := fun _ _ h => nomatch h

theorem RoundTrip.splResultArrival (a0 : Nat) (a1 : Nat) (a2 : Nat) (a3 : (List Nat)) : Statement (.splResultArrival a0 a1 a2 a3) := fun _ _ h => nomatch h

theorem RoundTrip.collectiveOrder (a0 : Nat) (a1 : Nat) (a2 : Nat) : Statement (.collectiveOrder a0 a1 a2) := fun _ _ h => nomatch h

theorem RoundTrip.shootdownRange (a0 : Nat) (a1 : Nat) (a2 : Nat) (a3 : Nat) : Statement (.shootdownRange a0 a1 a2 a3) := fun _ _ h => nomatch h

theorem RoundTrip.shootdownAsid (a0 : Nat) (a1 : Nat) (a2 : Nat) : Statement (.shootdownAsid a0 a1 a2) := fun _ _ h => nomatch h

theorem RoundTrip.shootdownAll (a0 : Nat) (a1 : Nat) : Statement (.shootdownAll a0 a1) := fun _ _ h => nomatch h

theorem RoundTrip.shootdownComplete (a0 : Nat) : Statement (.shootdownComplete a0) := fun _ _ h => nomatch h

theorem RoundTrip.eventCounterWrite (a0 : Nat) (a1 : Nat) : Statement (.eventCounterWrite a0 a1) := fun _ _ h => nomatch h

theorem RoundTrip.queueDoorbell (a0 : Nat) (a1 : Nat) : Statement (.queueDoorbell a0 a1) := fun _ _ h => nomatch h

theorem RoundTrip.queueEnable (a0 : Nat) (a1 : Nat) : Statement (.queueEnable a0 a1) := fun _ _ h => nomatch h

theorem RoundTrip.queueArm (a0 : Nat) (a1 : Nat) : Statement (.queueArm a0 a1) := fun _ _ h => nomatch h

theorem RoundTrip.completionHeadWrite (a0 : Nat) (a1 : Nat) : Statement (.completionHeadWrite a0 a1) := fun _ _ h => nomatch h

theorem RoundTrip.preempt (a0 : Nat) (a1 : Nat) : Statement (.preempt a0 a1) := fun _ _ h => nomatch h

theorem RoundTrip.resume (a0 : Nat) (a1 : Nat) : Statement (.resume a0 a1) := fun _ _ h => nomatch h

theorem RoundTrip.destroy (a0 : Nat) : Statement (.destroy a0) := fun _ _ h => nomatch h

theorem RoundTrip.destroyForce (a0 : Nat) : Statement (.destroyForce a0) := fun _ _ h => nomatch h

theorem RoundTrip.roleHalt (a0 : Nat) (a1 : Nat) : Statement (.roleHalt a0 a1) := fun _ _ h => nomatch h

theorem RoundTrip.gangSave (a0 : Nat) : Statement (.gangSave a0) := fun _ _ h => nomatch h

theorem RoundTrip.completionEntryWrite (a0 : Nat) : Statement (.completionEntryWrite a0) := fun _ _ h => nomatch h

theorem RoundTrip.interruptWindowClose (a0 : Nat) : Statement (.interruptWindowClose a0) := fun _ _ h => nomatch h

theorem RoundTrip.connectionOpen (a0 : Nat) (a1 : Nat) : Statement (.connectionOpen a0 a1) := fun _ _ h => nomatch h

theorem RoundTrip.connectionClose (a0 : Nat) (a1 : Nat) : Statement (.connectionClose a0 a1) := fun _ _ h => nomatch h

theorem RoundTrip.companderTableWrite (a0 : Nat) (a1 : Nat) (a2 : Nat) : Statement (.companderTableWrite a0 a1 a2) := fun _ _ h => nomatch h

theorem RoundTrip.pcapWrite (a0 : Nat) : Statement (.pcapWrite a0) := fun _ _ h => nomatch h

theorem RoundTrip.frameClockRequest (a0 : Nat × Option Nat) : Statement (.frameClockRequest a0) := fun _ _ h => nomatch h

theorem RoundTrip.frameClockChange : Statement (.frameClockChange) := fun _ _ h => nomatch h

theorem RoundTrip.registerWrite (a0 : Nat) (a1 : Nat) : Statement (.registerWrite a0 a1) := fun _ _ h => nomatch h

theorem RoundTrip.ebudgetUpdate (a0 : Nat) : Statement (.ebudgetUpdate a0) := fun _ _ h => nomatch h

theorem RoundTrip.lifetimeRecordUpdate : Statement (.lifetimeRecordUpdate) := fun _ _ h => nomatch h

theorem RoundTrip.orderlyPowerDown : Statement (.orderlyPowerDown) := fun _ _ h => nomatch h

theorem RoundTrip.boot (a0 : BootImage) : Statement (.boot a0) := fun _ _ h => nomatch h

theorem RoundTrip.alignGo (a0 : Nat) (a1 : Nat) : Statement (.alignGo a0 a1) := fun _ _ h => nomatch h

theorem RoundTrip.alignDissolve (a0 : Nat) : Statement (.alignDissolve a0) := fun _ _ h => nomatch h

theorem RoundTrip.alignmentTimeout : Statement (.alignmentTimeout) := fun _ _ h => nomatch h

theorem RoundTrip.alignReadyNotice (a0 : Nat) (a1 : Nat) (a2 : Nat) (a3 : Nat) : Statement (.alignReadyNotice a0 a1 a2 a3) := fun _ _ h => nomatch h

theorem RoundTrip.startInstantNotice (a0 : Option Nat) : Statement (.startInstantNotice a0) := fun _ _ h => nomatch h

theorem RoundTrip.alignedStart : Statement (.alignedStart) := fun _ _ h => nomatch h

theorem RoundTrip.holdNotice (a0 : Nat) (a1 : Nat) (a2 : Nat) : Statement (.holdNotice a0 a1 a2) := fun _ _ h => nomatch h

theorem RoundTrip.remoteHold : Statement (.remoteHold) := fun _ _ h => nomatch h

theorem RoundTrip.faultNotice (a0 : Nat) (a1 : Nat) : Statement (.faultNotice a0 a1) := fun _ _ h => nomatch h

theorem RoundTrip.preemptForward (a0 : Nat) (a1 : Nat) (a2 : Option Nat) : Statement (.preemptForward a0 a1 a2) := fun _ _ h => nomatch h

theorem RoundTrip.linkReplay (a0 : Nat × Nat) : Statement (.linkReplay a0) := fun _ _ h => nomatch h

theorem RoundTrip.portRetrain (a0 : Nat) : Statement (.portRetrain a0) := fun _ _ h => nomatch h

theorem RoundTrip.illegalEncoding (a0 : Nat) : Statement (.illegalEncoding a0) := fun _ _ h => nomatch h

theorem RoundTrip.fetchNonexec (a0 : Nat) : Statement (.fetchNonexec a0) := fun _ _ h => nomatch h

theorem RoundTrip.link (a0 : Nat) : Statement (.link a0) := fun _ _ h => nomatch h

theorem RoundTrip.powerLoss : Statement (.powerLoss) := fun _ _ h => nomatch h

theorem RoundTrip.hostAccess (a0 : HostAccess) : Statement (.hostAccess a0) := fun _ _ h => nomatch h

theorem RoundTrip.contributionResend (a0 : Nat) : Statement (.contributionResend a0) := fun _ _ h => nomatch h

theorem RoundTrip.groupIncomplete (a0 : Nat) (a1 : Nat) (a2 : Nat) : Statement (.groupIncomplete a0 a1 a2) := fun _ _ h => nomatch h

theorem RoundTrip.translationEviction (a0 : Nat) (a1 : Nat) : Statement (.translationEviction a0 a1) := fun _ _ h => nomatch h

theorem RoundTrip.cacheLineEviction (a0 : Nat) (a1 : Nat) : Statement (.cacheLineEviction a0 a1) := fun _ _ h => nomatch h

theorem RoundTrip.alignmentDone (a0 : List (Nat × Nat × Nat)) (a1 : List (List Nat)) (a2 : (List AlignedPort)) : Statement (.alignmentDone a0 a1 a2) := fun _ _ h => nomatch h

theorem RoundTrip.ueLinkRetrain (a0 : Nat) : Statement (.ueLinkRetrain a0) := fun _ _ h => nomatch h

theorem RoundTrip.frameStart : Statement (.frameStart) := fun _ _ h => nomatch h

theorem RoundTrip.add (f : Tri) : Statement (.add f) := fun w hw h =>
  have ⟨h1, h2, hg⟩ := tri_word (m := 0) (x := 0) (Option.some.inj h) hw (by decide) (by decide)
  (decode_eq h1 h2).trans (congrArg (fun q => Except.ok (Instr.add q)) hg)

theorem RoundTrip.sub (f : Tri) : Statement (.sub f) := fun w hw h =>
  have ⟨h1, h2, hg⟩ := tri_word (m := 0) (x := 1) (Option.some.inj h) hw (by decide) (by decide)
  (decode_eq h1 h2).trans (congrArg (fun q => Except.ok (Instr.sub q)) hg)

theorem RoundTrip.addw (f : Tri) : Statement (.addw f) := fun w hw h =>
  have ⟨h1, h2, hg⟩ := tri_word (m := 0) (x := 2) (Option.some.inj h) hw (by decide) (by decide)
  (decode_eq h1 h2).trans (congrArg (fun q => Except.ok (Instr.addw q)) hg)

theorem RoundTrip.subw (f : Tri) : Statement (.subw f) := fun w hw h =>
  have ⟨h1, h2, hg⟩ := tri_word (m := 0) (x := 3) (Option.some.inj h) hw (by decide) (by decide)
  (decode_eq h1 h2).trans (congrArg (fun q => Except.ok (Instr.subw q)) hg)

theorem RoundTrip.and_ (f : Tri) : Statement (.and_ f) := fun w hw h =>
  have ⟨h1, h2, hg⟩ := tri_word (m := 1) (x := 0) (Option.some.inj h) hw (by decide) (by decide)
  (decode_eq h1 h2).trans (congrArg (fun q => Except.ok (Instr.and_ q)) hg)

theorem RoundTrip.or_ (f : Tri) : Statement (.or_ f) := fun w hw h =>
  have ⟨h1, h2, hg⟩ := tri_word (m := 1) (x := 1) (Option.some.inj h) hw (by decide) (by decide)
  (decode_eq h1 h2).trans (congrArg (fun q => Except.ok (Instr.or_ q)) hg)

theorem RoundTrip.xor_ (f : Tri) : Statement (.xor_ f) := fun w hw h =>
  have ⟨h1, h2, hg⟩ := tri_word (m := 1) (x := 2) (Option.some.inj h) hw (by decide) (by decide)
  (decode_eq h1 h2).trans (congrArg (fun q => Except.ok (Instr.xor_ q)) hg)

theorem RoundTrip.andn (f : Tri) : Statement (.andn f) := fun w hw h =>
  have ⟨h1, h2, hg⟩ := tri_word (m := 1) (x := 3) (Option.some.inj h) hw (by decide) (by decide)
  (decode_eq h1 h2).trans (congrArg (fun q => Except.ok (Instr.andn q)) hg)

theorem RoundTrip.shl (f : Tri) : Statement (.shl f) := fun w hw h =>
  have ⟨h1, h2, hg⟩ := tri_word (m := 2) (x := 0) (Option.some.inj h) hw (by decide) (by decide)
  (decode_eq h1 h2).trans (congrArg (fun q => Except.ok (Instr.shl q)) hg)

theorem RoundTrip.shr (f : Tri) : Statement (.shr f) := fun w hw h =>
  have ⟨h1, h2, hg⟩ := tri_word (m := 2) (x := 1) (Option.some.inj h) hw (by decide) (by decide)
  (decode_eq h1 h2).trans (congrArg (fun q => Except.ok (Instr.shr q)) hg)

theorem RoundTrip.sar (f : Tri) : Statement (.sar f) := fun w hw h =>
  have ⟨h1, h2, hg⟩ := tri_word (m := 2) (x := 2) (Option.some.inj h) hw (by decide) (by decide)
  (decode_eq h1 h2).trans (congrArg (fun q => Except.ok (Instr.sar q)) hg)

theorem RoundTrip.rot (f : Tri) : Statement (.rot f) := fun w hw h =>
  have ⟨h1, h2, hg⟩ := tri_word (m := 2) (x := 3) (Option.some.inj h) hw (by decide) (by decide)
  (decode_eq h1 h2).trans (congrArg (fun q => Except.ok (Instr.rot q)) hg)

theorem RoundTrip.mul (f : Tri) : Statement (.mul f) := fun w hw h =>
  have ⟨h1, h2, hg⟩ := tri_word (m := 3) (x := 0) (Option.some.inj h) hw (by decide) (by decide)
  (decode_eq h1 h2).trans (congrArg (fun q => Except.ok (Instr.mul q)) hg)

theorem RoundTrip.mulh (f : Tri) : Statement (.mulh f) := fun w hw h =>
  have ⟨h1, h2, hg⟩ := tri_word (m := 3) (x := 1) (Option.some.inj h) hw (by decide) (by decide)
  (decode_eq h1 h2).trans (congrArg (fun q => Except.ok (Instr.mulh q)) hg)

theorem RoundTrip.mulhu (f : Tri) : Statement (.mulhu f) := fun w hw h =>
  have ⟨h1, h2, hg⟩ := tri_word (m := 3) (x := 2) (Option.some.inj h) hw (by decide) (by decide)
  (decode_eq h1 h2).trans (congrArg (fun q => Except.ok (Instr.mulhu q)) hg)

theorem RoundTrip.mulw (f : Tri) : Statement (.mulw f) := fun w hw h =>
  have ⟨h1, h2, hg⟩ := tri_word (m := 3) (x := 3) (Option.some.inj h) hw (by decide) (by decide)
  (decode_eq h1 h2).trans (congrArg (fun q => Except.ok (Instr.mulw q)) hg)

theorem RoundTrip.div (f : Tri) : Statement (.div f) := fun w hw h =>
  have ⟨h1, h2, hg⟩ := tri_word (m := 4) (x := 0) (Option.some.inj h) hw (by decide) (by decide)
  (decode_eq h1 h2).trans (congrArg (fun q => Except.ok (Instr.div q)) hg)

theorem RoundTrip.divu (f : Tri) : Statement (.divu f) := fun w hw h =>
  have ⟨h1, h2, hg⟩ := tri_word (m := 4) (x := 1) (Option.some.inj h) hw (by decide) (by decide)
  (decode_eq h1 h2).trans (congrArg (fun q => Except.ok (Instr.divu q)) hg)

theorem RoundTrip.rem (f : Tri) : Statement (.rem f) := fun w hw h =>
  have ⟨h1, h2, hg⟩ := tri_word (m := 4) (x := 2) (Option.some.inj h) hw (by decide) (by decide)
  (decode_eq h1 h2).trans (congrArg (fun q => Except.ok (Instr.rem q)) hg)

theorem RoundTrip.remu (f : Tri) : Statement (.remu f) := fun w hw h =>
  have ⟨h1, h2, hg⟩ := tri_word (m := 4) (x := 3) (Option.some.inj h) hw (by decide) (by decide)
  (decode_eq h1 h2).trans (congrArg (fun q => Except.ok (Instr.remu q)) hg)

theorem RoundTrip.min_ (f : Tri) : Statement (.min_ f) := fun w hw h =>
  have ⟨h1, h2, hg⟩ := tri_word (m := 5) (x := 0) (Option.some.inj h) hw (by decide) (by decide)
  (decode_eq h1 h2).trans (congrArg (fun q => Except.ok (Instr.min_ q)) hg)

theorem RoundTrip.max_ (f : Tri) : Statement (.max_ f) := fun w hw h =>
  have ⟨h1, h2, hg⟩ := tri_word (m := 5) (x := 1) (Option.some.inj h) hw (by decide) (by decide)
  (decode_eq h1 h2).trans (congrArg (fun q => Except.ok (Instr.max_ q)) hg)

theorem RoundTrip.minu (f : Tri) : Statement (.minu f) := fun w hw h =>
  have ⟨h1, h2, hg⟩ := tri_word (m := 5) (x := 2) (Option.some.inj h) hw (by decide) (by decide)
  (decode_eq h1 h2).trans (congrArg (fun q => Except.ok (Instr.minu q)) hg)

theorem RoundTrip.maxu (f : Tri) : Statement (.maxu f) := fun w hw h =>
  have ⟨h1, h2, hg⟩ := tri_word (m := 5) (x := 3) (Option.some.inj h) hw (by decide) (by decide)
  (decode_eq h1 h2).trans (congrArg (fun q => Except.ok (Instr.maxu q)) hg)

theorem RoundTrip.seq (f : Tri) : Statement (.seq f) := fun w hw h =>
  have ⟨h1, h2, hg⟩ := tri_word (m := 6) (x := 0) (Option.some.inj h) hw (by decide) (by decide)
  (decode_eq h1 h2).trans (congrArg (fun q => Except.ok (Instr.seq q)) hg)

theorem RoundTrip.slt (f : Tri) : Statement (.slt f) := fun w hw h =>
  have ⟨h1, h2, hg⟩ := tri_word (m := 6) (x := 1) (Option.some.inj h) hw (by decide) (by decide)
  (decode_eq h1 h2).trans (congrArg (fun q => Except.ok (Instr.slt q)) hg)

theorem RoundTrip.sltu (f : Tri) : Statement (.sltu f) := fun w hw h =>
  have ⟨h1, h2, hg⟩ := tri_word (m := 6) (x := 2) (Option.some.inj h) hw (by decide) (by decide)
  (decode_eq h1 h2).trans (congrArg (fun q => Except.ok (Instr.sltu q)) hg)

theorem RoundTrip.sne (f : Tri) : Statement (.sne f) := fun w hw h =>
  have ⟨h1, h2, hg⟩ := tri_word (m := 6) (x := 3) (Option.some.inj h) hw (by decide) (by decide)
  (decode_eq h1 h2).trans (congrArg (fun q => Except.ok (Instr.sne q)) hg)

theorem RoundTrip.clz (f : Bin) : Statement (.clz f) := fun w hw h =>
  have ⟨h1, h2, hg, hc⟩ := bin_word (m := 7) (x := 0) (Option.some.inj h) hw (by decide) (by decide)
  (decode_eq h1 h2).trans ((if_pos hc).trans (congrArg (fun q => Except.ok (Instr.clz q)) hg))

theorem RoundTrip.ctz (f : Bin) : Statement (.ctz f) := fun w hw h =>
  have ⟨h1, h2, hg, hc⟩ := bin_word (m := 7) (x := 1) (Option.some.inj h) hw (by decide) (by decide)
  (decode_eq h1 h2).trans ((if_pos hc).trans (congrArg (fun q => Except.ok (Instr.ctz q)) hg))

theorem RoundTrip.popc (f : Bin) : Statement (.popc f) := fun w hw h =>
  have ⟨h1, h2, hg, hc⟩ := bin_word (m := 7) (x := 2) (Option.some.inj h) hw (by decide) (by decide)
  (decode_eq h1 h2).trans ((if_pos hc).trans (congrArg (fun q => Except.ok (Instr.popc q)) hg))

theorem RoundTrip.brev (f : Bin) : Statement (.brev f) := fun w hw h =>
  have ⟨h1, h2, hg, hc⟩ := bin_word (m := 7) (x := 3) (Option.some.inj h) hw (by decide) (by decide)
  (decode_eq h1 h2).trans ((if_pos hc).trans (congrArg (fun q => Except.ok (Instr.brev q)) hg))

theorem RoundTrip.addi (f : Imm8) : Statement (.addi f) := fun w hw h =>
  have ⟨h1, hg⟩ := imm8_word (m := 8) (Option.some.inj h) hw (by decide)
  (decode_major h1).trans (congrArg (fun q => Except.ok (Instr.addi q)) hg)

theorem RoundTrip.andi (f : Imm8) : Statement (.andi f) := fun w hw h =>
  have ⟨h1, hg⟩ := imm8_word (m := 9) (Option.some.inj h) hw (by decide)
  (decode_major h1).trans (congrArg (fun q => Except.ok (Instr.andi q)) hg)

theorem RoundTrip.ori (f : Imm8) : Statement (.ori f) := fun w hw h =>
  have ⟨h1, hg⟩ := imm8_word (m := 10) (Option.some.inj h) hw (by decide)
  (decode_major h1).trans (congrArg (fun q => Except.ok (Instr.ori q)) hg)

theorem RoundTrip.xori (f : Imm8) : Statement (.xori f) := fun w hw h =>
  have ⟨h1, hg⟩ := imm8_word (m := 11) (Option.some.inj h) hw (by decide)
  (decode_major h1).trans (congrArg (fun q => Except.ok (Instr.xori q)) hg)

theorem RoundTrip.shli (f : Imm8) : Statement (.shli f) := fun w hw h =>
  have ⟨h1, hg⟩ := imm8_word (m := 12) (Option.some.inj h) hw (by decide)
  (decode_major h1).trans (congrArg (fun q => Except.ok (Instr.shli q)) hg)

theorem RoundTrip.shri (f : Imm8) : Statement (.shri f) := fun w hw h =>
  have ⟨h1, hg⟩ := imm8_word (m := 13) (Option.some.inj h) hw (by decide)
  (decode_major h1).trans (congrArg (fun q => Except.ok (Instr.shri q)) hg)

theorem RoundTrip.sari (f : Imm8) : Statement (.sari f) := fun w hw h =>
  have ⟨h1, hg⟩ := imm8_word (m := 14) (Option.some.inj h) hw (by decide)
  (decode_major h1).trans (congrArg (fun q => Except.ok (Instr.sari q)) hg)

theorem RoundTrip.slti (f : Imm8) : Statement (.slti f) := fun w hw h =>
  have ⟨h1, hg⟩ := imm8_word (m := 15) (Option.some.inj h) hw (by decide)
  (decode_major h1).trans (congrArg (fun q => Except.ok (Instr.slti q)) hg)

theorem RoundTrip.sltiu (f : Imm8) : Statement (.sltiu f) := fun w hw h =>
  have ⟨h1, hg⟩ := imm8_word (m := 16) (Option.some.inj h) hw (by decide)
  (decode_major h1).trans (congrArg (fun q => Except.ok (Instr.sltiu q)) hg)

theorem RoundTrip.li (f : Wide) : Statement (.li f) := fun w hw h =>
  have ⟨h1, hg⟩ := wide_word (m := 17) (Option.some.inj h) hw (by decide)
  (decode_major h1).trans (congrArg (fun q => Except.ok (Instr.li q)) hg)

theorem RoundTrip.lih (f : Wide) : Statement (.lih f) := fun w hw h =>
  have ⟨h1, hg⟩ := wide_word (m := 18) (Option.some.inj h) hw (by decide)
  (decode_major h1).trans (congrArg (fun q => Except.ok (Instr.lih q)) hg)

theorem RoundTrip.cmpEq (f : Tri) : Statement (.cmpEq f) := fun w hw h =>
  have ⟨h1, h2, hg⟩ := tri_word (m := 19) (x := 0) (Option.some.inj h) hw (by decide) (by decide)
  (decode_eq h1 h2).trans (congrArg (fun q => Except.ok (Instr.cmpEq q)) hg)

theorem RoundTrip.cmpLt (f : Tri) : Statement (.cmpLt f) := fun w hw h =>
  have ⟨h1, h2, hg⟩ := tri_word (m := 19) (x := 1) (Option.some.inj h) hw (by decide) (by decide)
  (decode_eq h1 h2).trans (congrArg (fun q => Except.ok (Instr.cmpLt q)) hg)

theorem RoundTrip.cmpLtu (f : Tri) : Statement (.cmpLtu f) := fun w hw h =>
  have ⟨h1, h2, hg⟩ := tri_word (m := 19) (x := 2) (Option.some.inj h) hw (by decide) (by decide)
  (decode_eq h1 h2).trans (congrArg (fun q => Except.ok (Instr.cmpLtu q)) hg)

theorem RoundTrip.cmpNe (f : Tri) : Statement (.cmpNe f) := fun w hw h =>
  have ⟨h1, h2, hg⟩ := tri_word (m := 19) (x := 3) (Option.some.inj h) hw (by decide) (by decide)
  (decode_eq h1 h2).trans (congrArg (fun q => Except.ok (Instr.cmpNe q)) hg)

theorem RoundTrip.cmpiEq (f : Imm6) : Statement (.cmpiEq f) := fun w hw h =>
  have ⟨h1, h2, hg⟩ := imm6_word (m := 20) (x := 0) (Option.some.inj h) hw (by decide) (by decide)
  (decode_eq h1 h2).trans (congrArg (fun q => Except.ok (Instr.cmpiEq q)) hg)

theorem RoundTrip.cmpiLt (f : Imm6) : Statement (.cmpiLt f) := fun w hw h =>
  have ⟨h1, h2, hg⟩ := imm6_word (m := 20) (x := 1) (Option.some.inj h) hw (by decide) (by decide)
  (decode_eq h1 h2).trans (congrArg (fun q => Except.ok (Instr.cmpiLt q)) hg)

theorem RoundTrip.cmpiLtu (f : Imm6) : Statement (.cmpiLtu f) := fun w hw h =>
  have ⟨h1, h2, hg⟩ := imm6_word (m := 20) (x := 2) (Option.some.inj h) hw (by decide) (by decide)
  (decode_eq h1 h2).trans (congrArg (fun q => Except.ok (Instr.cmpiLtu q)) hg)

theorem RoundTrip.cmpiNe (f : Imm6) : Statement (.cmpiNe f) := fun w hw h =>
  have ⟨h1, h2, hg⟩ := imm6_word (m := 20) (x := 3) (Option.some.inj h) hw (by decide) (by decide)
  (decode_eq h1 h2).trans (congrArg (fun q => Except.ok (Instr.cmpiNe q)) hg)

theorem RoundTrip.pand (f : Tri) : Statement (.pand f) := fun w hw h =>
  have ⟨h1, h2, hg⟩ := tri_word (m := 21) (x := 0) (Option.some.inj h) hw (by decide) (by decide)
  (decode_eq h1 h2).trans (congrArg (fun q => Except.ok (Instr.pand q)) hg)

theorem RoundTrip.por (f : Tri) : Statement (.por f) := fun w hw h =>
  have ⟨h1, h2, hg⟩ := tri_word (m := 21) (x := 1) (Option.some.inj h) hw (by decide) (by decide)
  (decode_eq h1 h2).trans (congrArg (fun q => Except.ok (Instr.por q)) hg)

theorem RoundTrip.pxor (f : Tri) : Statement (.pxor f) := fun w hw h =>
  have ⟨h1, h2, hg⟩ := tri_word (m := 21) (x := 2) (Option.some.inj h) hw (by decide) (by decide)
  (decode_eq h1 h2).trans (congrArg (fun q => Except.ok (Instr.pxor q)) hg)

theorem RoundTrip.pnot (f : Bin) : Statement (.pnot f) := fun w hw h =>
  have ⟨h1, h2, hg, hc⟩ := bin_word (m := 21) (x := 3) (Option.some.inj h) hw (by decide) (by decide)
  (decode_eq h1 h2).trans ((if_pos hc).trans (congrArg (fun q => Except.ok (Instr.pnot q)) hg))

theorem RoundTrip.sel (f : Tri) : Statement (.sel f) := fun w hw h =>
  have ⟨h1, h2, hg⟩ := tri_word (m := 22) (x := 0) (Option.some.inj h) hw (by decide) (by decide)
  (decode_eq h1 h2).trans (congrArg (fun q => Except.ok (Instr.sel q)) hg)

theorem RoundTrip.lea (f : Lea) : Statement (.lea f) := fun w hw h =>
  have ⟨h1, hg⟩ := lea_word (m := 23) (Option.some.inj h) hw (by decide)
  (decode_major h1).trans (congrArg (fun q => Except.ok (Instr.lea q)) hg)

theorem RoundTrip.extr (f : Imm6) : Statement (.extr f) := fun w hw h =>
  have ⟨h1, h2, hg⟩ := imm6_word (m := 24) (x := 0) (Option.some.inj h) hw (by decide) (by decide)
  (decode_eq h1 h2).trans (congrArg (fun q => Except.ok (Instr.extr q)) hg)

theorem RoundTrip.ins (f : Imm6) : Statement (.ins f) := fun w hw h =>
  have ⟨h1, h2, hg⟩ := imm6_word (m := 24) (x := 1) (Option.some.inj h) hw (by decide) (by decide)
  (decode_eq h1 h2).trans (congrArg (fun q => Except.ok (Instr.ins q)) hg)

theorem RoundTrip.br (f : Jump) : Statement (.br f) := fun w hw h =>
  have ⟨h1, hg⟩ := jump_word (m := 32) (Option.some.inj h) hw (by decide)
  (decode_major h1).trans (congrArg (fun q => Except.ok (Instr.br q)) hg)

theorem RoundTrip.call (f : Jump) : Statement (.call f) := fun w hw h =>
  have ⟨h1, hg⟩ := jump_word (m := 33) (Option.some.inj h) hw (by decide)
  (decode_major h1).trans (congrArg (fun q => Except.ok (Instr.call q)) hg)

theorem RoundTrip.jr (f : UnA) : Statement (.jr f) := fun w hw h =>
  have ⟨h1, h2, hg, hc⟩ := una_word (m := 34) (x := 0) (Option.some.inj h) hw (by decide) (by decide)
  (decode_eq h1 h2).trans ((if_pos hc).trans (congrArg (fun q => Except.ok (Instr.jr q)) hg))

theorem RoundTrip.jalr (f : Bin) : Statement (.jalr f) := fun w hw h =>
  have ⟨h1, h2, hg, hc⟩ := bin_word (m := 34) (x := 1) (Option.some.inj h) hw (by decide) (by decide)
  (decode_eq h1 h2).trans ((if_pos hc).trans (congrArg (fun q => Except.ok (Instr.jalr q)) hg))

theorem RoundTrip.ret (f : UnA) : Statement (.ret f) := fun w hw h =>
  have ⟨h1, h2, hg, hc⟩ := una_word (m := 34) (x := 2) (Option.some.inj h) hw (by decide) (by decide)
  (decode_eq h1 h2).trans ((if_pos hc).trans (congrArg (fun q => Except.ok (Instr.ret q)) hg))

theorem RoundTrip.loopk (f : Loopk) : Statement (.loopk f) := fun w hw h =>
  have ⟨h1, hg, hc⟩ := loopk_word (m := 35) (Option.some.inj h) hw (by decide)
  (decode_major h1).trans ((if_pos hc).trans (congrArg (fun q => Except.ok (Instr.loopk q)) hg))

theorem RoundTrip.loope (f : Bare) : Statement (.loope f) := fun w hw h =>
  have ⟨h1, h2, hg, hc⟩ := bare_word (m := 36) (x := 0) (Option.some.inj h) hw (by decide) (by decide)
  (decode_eq h1 h2).trans ((if_pos hc).trans (congrArg (fun q => Except.ok (Instr.loope q)) hg))

theorem RoundTrip.wfe (f : Tri) : Statement (.wfe f) := fun w hw h =>
  have ⟨h1, h2, hg⟩ := tri_word (m := 37) (x := 0) (Option.some.inj h) hw (by decide) (by decide)
  (decode_eq h1 h2).trans (congrArg (fun q => Except.ok (Instr.wfe q)) hg)

theorem RoundTrip.ldB (f : Imm6) : Statement (.ldB f) := fun w hw h =>
  have ⟨h1, h2, hg⟩ := imm6_word (m := 40) (x := 0) (Option.some.inj h) hw (by decide) (by decide)
  (decode_eq h1 h2).trans (congrArg (fun q => Except.ok (Instr.ldB q)) hg)

theorem RoundTrip.ldH (f : Imm6) : Statement (.ldH f) := fun w hw h =>
  have ⟨h1, h2, hg⟩ := imm6_word (m := 40) (x := 1) (Option.some.inj h) hw (by decide) (by decide)
  (decode_eq h1 h2).trans (congrArg (fun q => Except.ok (Instr.ldH q)) hg)

theorem RoundTrip.ldW (f : Imm6) : Statement (.ldW f) := fun w hw h =>
  have ⟨h1, h2, hg⟩ := imm6_word (m := 40) (x := 2) (Option.some.inj h) hw (by decide) (by decide)
  (decode_eq h1 h2).trans (congrArg (fun q => Except.ok (Instr.ldW q)) hg)

theorem RoundTrip.ldD (f : Imm6) : Statement (.ldD f) := fun w hw h =>
  have ⟨h1, h2, hg⟩ := imm6_word (m := 40) (x := 3) (Option.some.inj h) hw (by decide) (by decide)
  (decode_eq h1 h2).trans (congrArg (fun q => Except.ok (Instr.ldD q)) hg)

theorem RoundTrip.lduB (f : Imm6) : Statement (.lduB f) := fun w hw h =>
  have ⟨h1, h2, hg⟩ := imm6_word (m := 41) (x := 0) (Option.some.inj h) hw (by decide) (by decide)
  (decode_eq h1 h2).trans (congrArg (fun q => Except.ok (Instr.lduB q)) hg)

theorem RoundTrip.lduH (f : Imm6) : Statement (.lduH f) := fun w hw h =>
  have ⟨h1, h2, hg⟩ := imm6_word (m := 41) (x := 1) (Option.some.inj h) hw (by decide) (by decide)
  (decode_eq h1 h2).trans (congrArg (fun q => Except.ok (Instr.lduH q)) hg)

theorem RoundTrip.lduW (f : Imm6) : Statement (.lduW f) := fun w hw h =>
  have ⟨h1, h2, hg⟩ := imm6_word (m := 41) (x := 2) (Option.some.inj h) hw (by decide) (by decide)
  (decode_eq h1 h2).trans (congrArg (fun q => Except.ok (Instr.lduW q)) hg)

theorem RoundTrip.stB (f : Imm6) : Statement (.stB f) := fun w hw h =>
  have ⟨h1, h2, hg⟩ := imm6_word (m := 42) (x := 0) (Option.some.inj h) hw (by decide) (by decide)
  (decode_eq h1 h2).trans (congrArg (fun q => Except.ok (Instr.stB q)) hg)

theorem RoundTrip.stH (f : Imm6) : Statement (.stH f) := fun w hw h =>
  have ⟨h1, h2, hg⟩ := imm6_word (m := 42) (x := 1) (Option.some.inj h) hw (by decide) (by decide)
  (decode_eq h1 h2).trans (congrArg (fun q => Except.ok (Instr.stH q)) hg)

theorem RoundTrip.stW (f : Imm6) : Statement (.stW f) := fun w hw h =>
  have ⟨h1, h2, hg⟩ := imm6_word (m := 42) (x := 2) (Option.some.inj h) hw (by decide) (by decide)
  (decode_eq h1 h2).trans (congrArg (fun q => Except.ok (Instr.stW q)) hg)

theorem RoundTrip.stD (f : Imm6) : Statement (.stD f) := fun w hw h =>
  have ⟨h1, h2, hg⟩ := imm6_word (m := 42) (x := 3) (Option.some.inj h) hw (by decide) (by decide)
  (decode_eq h1 h2).trans (congrArg (fun q => Except.ok (Instr.stD q)) hg)

theorem RoundTrip.ldy (f : Imm6) : Statement (.ldy f) := fun w hw h =>
  have ⟨h1, h2, hg⟩ := imm6_word (m := 43) (x := 0) (Option.some.inj h) hw (by decide) (by decide)
  (decode_eq h1 h2).trans (congrArg (fun q => Except.ok (Instr.ldy q)) hg)

theorem RoundTrip.sty (f : Imm6) : Statement (.sty f) := fun w hw h =>
  have ⟨h1, h2, hg⟩ := imm6_word (m := 43) (x := 1) (Option.some.inj h) hw (by decide) (by decide)
  (decode_eq h1 h2).trans (congrArg (fun q => Except.ok (Instr.sty q)) hg)

theorem RoundTrip.ldyb (f : Imm6) : Statement (.ldyb f) := fun w hw h =>
  have ⟨h1, h2, hg⟩ := imm6_word (m := 43) (x := 2) (Option.some.inj h) hw (by decide) (by decide)
  (decode_eq h1 h2).trans (congrArg (fun q => Except.ok (Instr.ldyb q)) hg)

theorem RoundTrip.ldyf (f : Imm6) : Statement (.ldyf f) := fun w hw h =>
  have ⟨h1, h2, hg⟩ := imm6_word (m := 43) (x := 3) (Option.some.inj h) hw (by decide) (by decide)
  (decode_eq h1 h2).trans (congrArg (fun q => Except.ok (Instr.ldyf q)) hg)

theorem RoundTrip.ldsW (f : Imm6) : Statement (.ldsW f) := fun w hw h =>
  have ⟨h1, h2, hg⟩ := imm6_word (m := 44) (x := 0) (Option.some.inj h) hw (by decide) (by decide)
  (decode_eq h1 h2).trans (congrArg (fun q => Except.ok (Instr.ldsW q)) hg)

theorem RoundTrip.ldsD (f : Imm6) : Statement (.ldsD f) := fun w hw h =>
  have ⟨h1, h2, hg⟩ := imm6_word (m := 44) (x := 1) (Option.some.inj h) hw (by decide) (by decide)
  (decode_eq h1 h2).trans (congrArg (fun q => Except.ok (Instr.ldsD q)) hg)

theorem RoundTrip.ldseW (f : Imm6) : Statement (.ldseW f) := fun w hw h =>
  have ⟨h1, h2, hg⟩ := imm6_word (m := 44) (x := 2) (Option.some.inj h) hw (by decide) (by decide)
  (decode_eq h1 h2).trans (congrArg (fun q => Except.ok (Instr.ldseW q)) hg)

theorem RoundTrip.ldseD (f : Imm6) : Statement (.ldseD f) := fun w hw h =>
  have ⟨h1, h2, hg⟩ := imm6_word (m := 44) (x := 3) (Option.some.inj h) hw (by decide) (by decide)
  (decode_eq h1 h2).trans (congrArg (fun q => Except.ok (Instr.ldseD q)) hg)

theorem RoundTrip.stfW (f : Imm6) : Statement (.stfW f) := fun w hw h =>
  have ⟨h1, h2, hg⟩ := imm6_word (m := 45) (x := 0) (Option.some.inj h) hw (by decide) (by decide)
  (decode_eq h1 h2).trans (congrArg (fun q => Except.ok (Instr.stfW q)) hg)

theorem RoundTrip.stfD (f : Imm6) : Statement (.stfD f) := fun w hw h =>
  have ⟨h1, h2, hg⟩ := imm6_word (m := 45) (x := 1) (Option.some.inj h) hw (by decide) (by decide)
  (decode_eq h1 h2).trans (congrArg (fun q => Except.ok (Instr.stfD q)) hg)

theorem RoundTrip.sete (f : AImm) : Statement (.sete f) := fun w hw h =>
  have ⟨h1, h2, hg, hc⟩ := aimm_word (m := 45) (x := 2) (Option.some.inj h) hw (by decide) (by decide)
  (decode_eq h1 h2).trans ((if_pos hc).trans (congrArg (fun q => Except.ok (Instr.sete q)) hg))

theorem RoundTrip.aadd (f : Tri) : Statement (.aadd f) := fun w hw h =>
  have ⟨h1, h2, hg⟩ := tri_word (m := 46) (x := 0) (Option.some.inj h) hw (by decide) (by decide)
  (decode_eq h1 h2).trans (congrArg (fun q => Except.ok (Instr.aadd q)) hg)

theorem RoundTrip.aand (f : Tri) : Statement (.aand f) := fun w hw h =>
  have ⟨h1, h2, hg⟩ := tri_word (m := 46) (x := 1) (Option.some.inj h) hw (by decide) (by decide)
  (decode_eq h1 h2).trans (congrArg (fun q => Except.ok (Instr.aand q)) hg)

theorem RoundTrip.aor (f : Tri) : Statement (.aor f) := fun w hw h =>
  have ⟨h1, h2, hg⟩ := tri_word (m := 46) (x := 2) (Option.some.inj h) hw (by decide) (by decide)
  (decode_eq h1 h2).trans (congrArg (fun q => Except.ok (Instr.aor q)) hg)

theorem RoundTrip.axor (f : Tri) : Statement (.axor f) := fun w hw h =>
  have ⟨h1, h2, hg⟩ := tri_word (m := 46) (x := 3) (Option.some.inj h) hw (by decide) (by decide)
  (decode_eq h1 h2).trans (congrArg (fun q => Except.ok (Instr.axor q)) hg)

theorem RoundTrip.aswp (f : Tri) : Statement (.aswp f) := fun w hw h =>
  have ⟨h1, h2, hg⟩ := tri_word (m := 47) (x := 0) (Option.some.inj h) hw (by decide) (by decide)
  (decode_eq h1 h2).trans (congrArg (fun q => Except.ok (Instr.aswp q)) hg)

theorem RoundTrip.acas (f : Tri) : Statement (.acas f) := fun w hw h =>
  have ⟨h1, h2, hg⟩ := tri_word (m := 47) (x := 1) (Option.some.inj h) hw (by decide) (by decide)
  (decode_eq h1 h2).trans (congrArg (fun q => Except.ok (Instr.acas q)) hg)

theorem RoundTrip.amax (f : Tri) : Statement (.amax f) := fun w hw h =>
  have ⟨h1, h2, hg⟩ := tri_word (m := 47) (x := 2) (Option.some.inj h) hw (by decide) (by decide)
  (decode_eq h1 h2).trans (congrArg (fun q => Except.ok (Instr.amax q)) hg)

theorem RoundTrip.amin (f : Tri) : Statement (.amin f) := fun w hw h =>
  have ⟨h1, h2, hg⟩ := tri_word (m := 47) (x := 3) (Option.some.inj h) hw (by decide) (by decide)
  (decode_eq h1 h2).trans (congrArg (fun q => Except.ok (Instr.amin q)) hg)

theorem RoundTrip.fenceAcq (f : UnB) : Statement (.fenceAcq f) := fun w hw h =>
  have ⟨h1, h2, hg, hc⟩ := unb_word (m := 48) (x := 0) (Option.some.inj h) hw (by decide) (by decide)
  (decode_eq h1 h2).trans ((if_pos hc).trans (congrArg (fun q => Except.ok (Instr.fenceAcq q)) hg))

theorem RoundTrip.fenceRel (f : UnB) : Statement (.fenceRel f) := fun w hw h =>
  have ⟨h1, h2, hg, hc⟩ := unb_word (m := 48) (x := 1) (Option.some.inj h) hw (by decide) (by decide)
  (decode_eq h1 h2).trans ((if_pos hc).trans (congrArg (fun q => Except.ok (Instr.fenceRel q)) hg))

theorem RoundTrip.fenceSc (f : UnB) : Statement (.fenceSc f) := fun w hw h =>
  have ⟨h1, h2, hg, hc⟩ := unb_word (m := 48) (x := 2) (Option.some.inj h) hw (by decide) (by decide)
  (decode_eq h1 h2).trans ((if_pos hc).trans (congrArg (fun q => Except.ok (Instr.fenceSc q)) hg))

theorem RoundTrip.tfence (f : UnB) : Statement (.tfence f) := fun w hw h =>
  have ⟨h1, h2, hg, hc⟩ := unb_word (m := 48) (x := 3) (Option.some.inj h) hw (by decide) (by decide)
  (decode_eq h1 h2).trans ((if_pos hc).trans (congrArg (fun q => Except.ok (Instr.tfence q)) hg))

theorem RoundTrip.cflush (f : Imm6) : Statement (.cflush f) := fun w hw h =>
  have ⟨h1, h2, hg⟩ := imm6_word (m := 49) (x := 0) (Option.some.inj h) hw (by decide) (by decide)
  (decode_eq h1 h2).trans (congrArg (fun q => Except.ok (Instr.cflush q)) hg)

theorem RoundTrip.cinv (f : Imm6) : Statement (.cinv f) := fun w hw h =>
  have ⟨h1, h2, hg⟩ := imm6_word (m := 49) (x := 1) (Option.some.inj h) hw (by decide) (by decide)
  (decode_eq h1 h2).trans (congrArg (fun q => Except.ok (Instr.cinv q)) hg)

theorem RoundTrip.cpref (f : Imm6) : Statement (.cpref f) := fun w hw h =>
  have ⟨h1, h2, hg⟩ := imm6_word (m := 49) (x := 2) (Option.some.inj h) hw (by decide) (by decide)
  (decode_eq h1 h2).trans (congrArg (fun q => Except.ok (Instr.cpref q)) hg)

theorem RoundTrip.ldl (f : Local) : Statement (.ldl f) := fun w hw h =>
  have ⟨h1, hg⟩ := local_word (m := 50) (Option.some.inj h) hw (by decide)
  (decode_major h1).trans (congrArg (fun q => Except.ok (Instr.ldl q)) hg)

theorem RoundTrip.stl (f : Local) : Statement (.stl f) := fun w hw h =>
  have ⟨h1, hg⟩ := local_word (m := 51) (Option.some.inj h) hw (by decide)
  (decode_major h1).trans (congrArg (fun q => Except.ok (Instr.stl q)) hg)

theorem RoundTrip.ldld (f : Local) : Statement (.ldld f) := fun w hw h =>
  have ⟨h1, hg⟩ := local_word (m := 52) (Option.some.inj h) hw (by decide)
  (decode_major h1).trans (congrArg (fun q => Except.ok (Instr.ldld q)) hg)

theorem RoundTrip.stld (f : Local) : Statement (.stld f) := fun w hw h =>
  have ⟨h1, hg⟩ := local_word (m := 53) (Option.some.inj h) hw (by decide)
  (decode_major h1).trans (congrArg (fun q => Except.ok (Instr.stld q)) hg)

theorem RoundTrip.hstart (f : Tri) : Statement (.hstart f) := fun w hw h =>
  have ⟨h1, h2, hg⟩ := tri_word (m := 56) (x := 0) (Option.some.inj h) hw (by decide) (by decide)
  (decode_eq h1 h2).trans (congrArg (fun q => Except.ok (Instr.hstart q)) hg)

theorem RoundTrip.hjoin (f : UnA) : Statement (.hjoin f) := fun w hw h =>
  have ⟨h1, h2, hg, hc⟩ := una_word (m := 56) (x := 1) (Option.some.inj h) hw (by decide) (by decide)
  (decode_eq h1 h2).trans ((if_pos hc).trans (congrArg (fun q => Except.ok (Instr.hjoin q)) hg))

theorem RoundTrip.hkill (f : UnA) : Statement (.hkill f) := fun w hw h =>
  have ⟨h1, h2, hg, hc⟩ := una_word (m := 56) (x := 2) (Option.some.inj h) hw (by decide) (by decide)
  (decode_eq h1 h2).trans ((if_pos hc).trans (congrArg (fun q => Except.ok (Instr.hkill q)) hg))

theorem RoundTrip.hself (f : UnD) : Statement (.hself f) := fun w hw h =>
  have ⟨h1, h2, hg, hc⟩ := und_word (m := 56) (x := 3) (Option.some.inj h) hw (by decide) (by decide)
  (decode_eq h1 h2).trans ((if_pos hc).trans (congrArg (fun q => Except.ok (Instr.hself q)) hg))

theorem RoundTrip.qpeek (f : Bin) : Statement (.qpeek f) := fun w hw h =>
  have ⟨h1, h2, hg, hc⟩ := bin_word (m := 57) (x := 0) (Option.some.inj h) hw (by decide) (by decide)
  (decode_eq h1 h2).trans ((if_pos hc).trans (congrArg (fun q => Except.ok (Instr.qpeek q)) hg))

theorem RoundTrip.qdepth (f : Bin) : Statement (.qdepth f) := fun w hw h =>
  have ⟨h1, h2, hg, hc⟩ := bin_word (m := 57) (x := 1) (Option.some.inj h) hw (by decide) (by decide)
  (decode_eq h1 h2).trans ((if_pos hc).trans (congrArg (fun q => Except.ok (Instr.qdepth q)) hg))

theorem RoundTrip.qclose (f : UnA) : Statement (.qclose f) := fun w hw h =>
  have ⟨h1, h2, hg, hc⟩ := una_word (m := 57) (x := 2) (Option.some.inj h) hw (by decide) (by decide)
  (decode_eq h1 h2).trans ((if_pos hc).trans (congrArg (fun q => Except.ok (Instr.qclose q)) hg))

theorem RoundTrip.qdrop (f : Tri) : Statement (.qdrop f) := fun w hw h =>
  have ⟨h1, h2, hg⟩ := tri_word (m := 57) (x := 3) (Option.some.inj h) hw (by decide) (by decide)
  (decode_eq h1 h2).trans (congrArg (fun q => Except.ok (Instr.qdrop q)) hg)

theorem RoundTrip.gbar (f : Tri) : Statement (.gbar f) := fun w hw h =>
  have ⟨h1, h2, hg⟩ := tri_word (m := 58) (x := 0) (Option.some.inj h) hw (by decide) (by decide)
  (decode_eq h1 h2).trans (congrArg (fun q => Except.ok (Instr.gbar q)) hg)

theorem RoundTrip.garrive (f : Tri) : Statement (.garrive f) := fun w hw h =>
  have ⟨h1, h2, hg⟩ := tri_word (m := 58) (x := 1) (Option.some.inj h) hw (by decide) (by decide)
  (decode_eq h1 h2).trans (congrArg (fun q => Except.ok (Instr.garrive q)) hg)

theorem RoundTrip.gwait (f : AB) : Statement (.gwait f) := fun w hw h =>
  have ⟨h1, h2, hg, hc⟩ := ab_word (m := 58) (x := 2) (Option.some.inj h) hw (by decide) (by decide)
  (decode_eq h1 h2).trans ((if_pos hc).trans (congrArg (fun q => Except.ok (Instr.gwait q)) hg))

theorem RoundTrip.grank (f : UnD) : Statement (.grank f) := fun w hw h =>
  have ⟨h1, h2, hg, hc⟩ := und_word (m := 58) (x := 3) (Option.some.inj h) hw (by decide) (by decide)
  (decode_eq h1 h2).trans ((if_pos hc).trans (congrArg (fun q => Except.ok (Instr.grank q)) hg))

theorem RoundTrip.repf (f : Repf) : Statement (.repf f) := fun w hw h =>
  have ⟨h1, h2, hg, hc⟩ := repf_word (m := 59) (x := 0) (Option.some.inj h) hw (by decide) (by decide)
  (decode_eq h1 h2).trans ((if_pos hc).trans (congrArg (fun q => Except.ok (Instr.repf q)) hg))

theorem RoundTrip.done (f : Nul) : Statement (.done f) := fun w hw h =>
  have ⟨h1, h2, hg, hc⟩ := nul_word (m := 60) (x := 0) (Option.some.inj h) hw (by decide) (by decide)
  (decode_eq h1 h2).trans ((if_pos hc).trans (congrArg (fun q => Except.ok (Instr.done q)) hg))

theorem RoundTrip.signal (f : AB) : Statement (.signal f) := fun w hw h =>
  have ⟨h1, h2, hg, hc⟩ := ab_word (m := 60) (x := 1) (Option.some.inj h) hw (by decide) (by decide)
  (decode_eq h1 h2).trans ((if_pos hc).trans (congrArg (fun q => Except.ok (Instr.signal q)) hg))

theorem RoundTrip.yield (f : Nul) : Statement (.yield f) := fun w hw h =>
  have ⟨h1, h2, hg, hc⟩ := nul_word (m := 60) (x := 2) (Option.some.inj h) hw (by decide) (by decide)
  (decode_eq h1 h2).trans ((if_pos hc).trans (congrArg (fun q => Except.ok (Instr.yield q)) hg))

theorem RoundTrip.waitev (f : Tri) : Statement (.waitev f) := fun w hw h =>
  have ⟨h1, h2, hg⟩ := tri_word (m := 60) (x := 3) (Option.some.inj h) hw (by decide) (by decide)
  (decode_eq h1 h2).trans (congrArg (fun q => Except.ok (Instr.waitev q)) hg)

theorem RoundTrip.tenonV (f : AB) : Statement (.tenonV f) := fun w hw h =>
  have ⟨h1, h2, hg, hc⟩ := ab_word (m := 61) (x := 0) (Option.some.inj h) hw (by decide) (by decide)
  (decode_eq h1 h2).trans ((if_pos hc).trans (congrArg (fun q => Except.ok (Instr.tenonV q)) hg))

theorem RoundTrip.tenonW (f : AB) : Statement (.tenonW f) := fun w hw h =>
  have ⟨h1, h2, hg, hc⟩ := ab_word (m := 61) (x := 1) (Option.some.inj h) hw (by decide) (by decide)
  (decode_eq h1 h2).trans ((if_pos hc).trans (congrArg (fun q => Except.ok (Instr.tenonW q)) hg))

theorem RoundTrip.tenonQ (f : Bin) : Statement (.tenonQ f) := fun w hw h =>
  have ⟨h1, h2, hg, hc⟩ := bin_word (m := 61) (x := 2) (Option.some.inj h) hw (by decide) (by decide)
  (decode_eq h1 h2).trans ((if_pos hc).trans (congrArg (fun q => Except.ok (Instr.tenonQ q)) hg))

theorem RoundTrip.rmaPut (f : Bin) : Statement (.rmaPut f) := fun w hw h =>
  have ⟨h1, h2, hg, hc⟩ := bin_word (m := 62) (x := 0) (Option.some.inj h) hw (by decide) (by decide)
  (decode_eq h1 h2).trans ((if_pos hc).trans (congrArg (fun q => Except.ok (Instr.rmaPut q)) hg))

theorem RoundTrip.rmaGet (f : Bin) : Statement (.rmaGet f) := fun w hw h =>
  have ⟨h1, h2, hg, hc⟩ := bin_word (m := 62) (x := 1) (Option.some.inj h) hw (by decide) (by decide)
  (decode_eq h1 h2).trans ((if_pos hc).trans (congrArg (fun q => Except.ok (Instr.rmaGet q)) hg))

theorem RoundTrip.rmaFlush (f : Bin) : Statement (.rmaFlush f) := fun w hw h =>
  have ⟨h1, h2, hg, hc⟩ := bin_word (m := 62) (x := 2) (Option.some.inj h) hw (by decide) (by decide)
  (decode_eq h1 h2).trans ((if_pos hc).trans (congrArg (fun q => Except.ok (Instr.rmaFlush q)) hg))

theorem RoundTrip.rmaArm (f : Tri) : Statement (.rmaArm f) := fun w hw h =>
  have ⟨h1, h2, hg⟩ := tri_word (m := 62) (x := 3) (Option.some.inj h) hw (by decide) (by decide)
  (decode_eq h1 h2).trans (congrArg (fun q => Except.ok (Instr.rmaArm q)) hg)

theorem RoundTrip.rmaAmo (f : Bin) : Statement (.rmaAmo f) := fun w hw h =>
  have ⟨h1, h2, hg, hc⟩ := bin_word (m := 63) (x := 0) (Option.some.inj h) hw (by decide) (by decide)
  (decode_eq h1 h2).trans ((if_pos hc).trans (congrArg (fun q => Except.ok (Instr.rmaAmo q)) hg))

theorem RoundTrip.rmaWait (f : Bin) : Statement (.rmaWait f) := fun w hw h =>
  have ⟨h1, h2, hg, hc⟩ := bin_word (m := 63) (x := 1) (Option.some.inj h) hw (by decide) (by decide)
  (decode_eq h1 h2).trans ((if_pos hc).trans (congrArg (fun q => Except.ok (Instr.rmaWait q)) hg))

theorem RoundTrip.rmaSend (f : Bin) : Statement (.rmaSend f) := fun w hw h =>
  have ⟨h1, h2, hg, hc⟩ := bin_word (m := 63) (x := 2) (Option.some.inj h) hw (by decide) (by decide)
  (decode_eq h1 h2).trans ((if_pos hc).trans (congrArg (fun q => Except.ok (Instr.rmaSend q)) hg))

theorem RoundTrip.yaddF32 (f : Tri) : Statement (.yaddF32 f) := fun w hw h =>
  have ⟨h1, h2, hg⟩ := tri_word (m := 64) (x := 0) (Option.some.inj h) hw (by decide) (by decide)
  (decode_eq h1 h2).trans (congrArg (fun q => Except.ok (Instr.yaddF32 q)) hg)

theorem RoundTrip.ysubF32 (f : Tri) : Statement (.ysubF32 f) := fun w hw h =>
  have ⟨h1, h2, hg⟩ := tri_word (m := 64) (x := 1) (Option.some.inj h) hw (by decide) (by decide)
  (decode_eq h1 h2).trans (congrArg (fun q => Except.ok (Instr.ysubF32 q)) hg)

theorem RoundTrip.ymulF32 (f : Tri) : Statement (.ymulF32 f) := fun w hw h =>
  have ⟨h1, h2, hg⟩ := tri_word (m := 64) (x := 2) (Option.some.inj h) hw (by decide) (by decide)
  (decode_eq h1 h2).trans (congrArg (fun q => Except.ok (Instr.ymulF32 q)) hg)

theorem RoundTrip.yfmaF32 (f : Tri) : Statement (.yfmaF32 f) := fun w hw h =>
  have ⟨h1, h2, hg⟩ := tri_word (m := 64) (x := 3) (Option.some.inj h) hw (by decide) (by decide)
  (decode_eq h1 h2).trans (congrArg (fun q => Except.ok (Instr.yfmaF32 q)) hg)

theorem RoundTrip.yaddBf16 (f : Tri) : Statement (.yaddBf16 f) := fun w hw h =>
  have ⟨h1, h2, hg⟩ := tri_word (m := 65) (x := 0) (Option.some.inj h) hw (by decide) (by decide)
  (decode_eq h1 h2).trans (congrArg (fun q => Except.ok (Instr.yaddBf16 q)) hg)

theorem RoundTrip.ysubBf16 (f : Tri) : Statement (.ysubBf16 f) := fun w hw h =>
  have ⟨h1, h2, hg⟩ := tri_word (m := 65) (x := 1) (Option.some.inj h) hw (by decide) (by decide)
  (decode_eq h1 h2).trans (congrArg (fun q => Except.ok (Instr.ysubBf16 q)) hg)

theorem RoundTrip.ymulBf16 (f : Tri) : Statement (.ymulBf16 f) := fun w hw h =>
  have ⟨h1, h2, hg⟩ := tri_word (m := 65) (x := 2) (Option.some.inj h) hw (by decide) (by decide)
  (decode_eq h1 h2).trans (congrArg (fun q => Except.ok (Instr.ymulBf16 q)) hg)

theorem RoundTrip.yfmaBf16 (f : Tri) : Statement (.yfmaBf16 f) := fun w hw h =>
  have ⟨h1, h2, hg⟩ := tri_word (m := 65) (x := 3) (Option.some.inj h) hw (by decide) (by decide)
  (decode_eq h1 h2).trans (congrArg (fun q => Except.ok (Instr.yfmaBf16 q)) hg)

theorem RoundTrip.yaddI32 (f : Tri) : Statement (.yaddI32 f) := fun w hw h =>
  have ⟨h1, h2, hg⟩ := tri_word (m := 66) (x := 0) (Option.some.inj h) hw (by decide) (by decide)
  (decode_eq h1 h2).trans (congrArg (fun q => Except.ok (Instr.yaddI32 q)) hg)

theorem RoundTrip.ysubI32 (f : Tri) : Statement (.ysubI32 f) := fun w hw h =>
  have ⟨h1, h2, hg⟩ := tri_word (m := 66) (x := 1) (Option.some.inj h) hw (by decide) (by decide)
  (decode_eq h1 h2).trans (congrArg (fun q => Except.ok (Instr.ysubI32 q)) hg)

theorem RoundTrip.ymulI32 (f : Tri) : Statement (.ymulI32 f) := fun w hw h =>
  have ⟨h1, h2, hg⟩ := tri_word (m := 66) (x := 2) (Option.some.inj h) hw (by decide) (by decide)
  (decode_eq h1 h2).trans (congrArg (fun q => Except.ok (Instr.ymulI32 q)) hg)

theorem RoundTrip.ymacI32 (f : Tri) : Statement (.ymacI32 f) := fun w hw h =>
  have ⟨h1, h2, hg⟩ := tri_word (m := 66) (x := 3) (Option.some.inj h) hw (by decide) (by decide)
  (decode_eq h1 h2).trans (congrArg (fun q => Except.ok (Instr.ymacI32 q)) hg)

theorem RoundTrip.yminF32 (f : Tri) : Statement (.yminF32 f) := fun w hw h =>
  have ⟨h1, h2, hg⟩ := tri_word (m := 67) (x := 0) (Option.some.inj h) hw (by decide) (by decide)
  (decode_eq h1 h2).trans (congrArg (fun q => Except.ok (Instr.yminF32 q)) hg)

theorem RoundTrip.ymaxF32 (f : Tri) : Statement (.ymaxF32 f) := fun w hw h =>
  have ⟨h1, h2, hg⟩ := tri_word (m := 67) (x := 1) (Option.some.inj h) hw (by decide) (by decide)
  (decode_eq h1 h2).trans (congrArg (fun q => Except.ok (Instr.ymaxF32 q)) hg)

theorem RoundTrip.yminI32 (f : Tri) : Statement (.yminI32 f) := fun w hw h =>
  have ⟨h1, h2, hg⟩ := tri_word (m := 67) (x := 2) (Option.some.inj h) hw (by decide) (by decide)
  (decode_eq h1 h2).trans (congrArg (fun q => Except.ok (Instr.yminI32 q)) hg)

theorem RoundTrip.ymaxI32 (f : Tri) : Statement (.ymaxI32 f) := fun w hw h =>
  have ⟨h1, h2, hg⟩ := tri_word (m := 67) (x := 3) (Option.some.inj h) hw (by decide) (by decide)
  (decode_eq h1 h2).trans (congrArg (fun q => Except.ok (Instr.ymaxI32 q)) hg)

theorem RoundTrip.ycvtBf16F32 (f : Tri) : Statement (.ycvtBf16F32 f) := fun w hw h =>
  have ⟨h1, h2, hg⟩ := tri_word (m := 68) (x := 0) (Option.some.inj h) hw (by decide) (by decide)
  (decode_eq h1 h2).trans (congrArg (fun q => Except.ok (Instr.ycvtBf16F32 q)) hg)

theorem RoundTrip.ycvtF32Bf16 (f : BinH2) : Statement (.ycvtF32Bf16 f) := fun w hw h =>
  have ⟨h1, h2, hg, hc⟩ := binh2_word (m := 68) (x := 1) (Option.some.inj h) hw (by decide) (by decide)
  (decode_eq h1 h2).trans ((if_pos hc).trans (congrArg (fun q => Except.ok (Instr.ycvtF32Bf16 q)) hg))

theorem RoundTrip.ycvtI32F32 (f : Bin) : Statement (.ycvtI32F32 f) := fun w hw h =>
  have ⟨h1, h2, hg, hc⟩ := bin_word (m := 68) (x := 2) (Option.some.inj h) hw (by decide) (by decide)
  (decode_eq h1 h2).trans ((if_pos hc).trans (congrArg (fun q => Except.ok (Instr.ycvtI32F32 q)) hg))

theorem RoundTrip.ycvtF32I32 (f : Bin) : Statement (.ycvtF32I32 f) := fun w hw h =>
  have ⟨h1, h2, hg, hc⟩ := bin_word (m := 68) (x := 3) (Option.some.inj h) hw (by decide) (by decide)
  (decode_eq h1 h2).trans ((if_pos hc).trans (congrArg (fun q => Except.ok (Instr.ycvtF32I32 q)) hg))

theorem RoundTrip.yand (f : Tri) : Statement (.yand f) := fun w hw h =>
  have ⟨h1, h2, hg⟩ := tri_word (m := 69) (x := 0) (Option.some.inj h) hw (by decide) (by decide)
  (decode_eq h1 h2).trans (congrArg (fun q => Except.ok (Instr.yand q)) hg)

theorem RoundTrip.yor (f : Tri) : Statement (.yor f) := fun w hw h =>
  have ⟨h1, h2, hg⟩ := tri_word (m := 69) (x := 1) (Option.some.inj h) hw (by decide) (by decide)
  (decode_eq h1 h2).trans (congrArg (fun q => Except.ok (Instr.yor q)) hg)

theorem RoundTrip.yxor (f : Tri) : Statement (.yxor f) := fun w hw h =>
  have ⟨h1, h2, hg⟩ := tri_word (m := 69) (x := 2) (Option.some.inj h) hw (by decide) (by decide)
  (decode_eq h1 h2).trans (congrArg (fun q => Except.ok (Instr.yxor q)) hg)

theorem RoundTrip.yshf (f : Tri) : Statement (.yshf f) := fun w hw h =>
  have ⟨h1, h2, hg⟩ := tri_word (m := 69) (x := 3) (Option.some.inj h) hw (by decide) (by decide)
  (decode_eq h1 h2).trans (congrArg (fun q => Except.ok (Instr.yshf q)) hg)

theorem RoundTrip.yrsumF32 (f : Bin) : Statement (.yrsumF32 f) := fun w hw h =>
  have ⟨h1, h2, hg, hc⟩ := bin_word (m := 70) (x := 0) (Option.some.inj h) hw (by decide) (by decide)
  (decode_eq h1 h2).trans ((if_pos hc).trans (congrArg (fun q => Except.ok (Instr.yrsumF32 q)) hg))

theorem RoundTrip.yrmaxF32 (f : Bin) : Statement (.yrmaxF32 f) := fun w hw h =>
  have ⟨h1, h2, hg, hc⟩ := bin_word (m := 70) (x := 1) (Option.some.inj h) hw (by decide) (by decide)
  (decode_eq h1 h2).trans ((if_pos hc).trans (congrArg (fun q => Except.ok (Instr.yrmaxF32 q)) hg))

theorem RoundTrip.yrsumI32 (f : Bin) : Statement (.yrsumI32 f) := fun w hw h =>
  have ⟨h1, h2, hg, hc⟩ := bin_word (m := 70) (x := 2) (Option.some.inj h) hw (by decide) (by decide)
  (decode_eq h1 h2).trans ((if_pos hc).trans (congrArg (fun q => Except.ok (Instr.yrsumI32 q)) hg))

theorem RoundTrip.yrmaxI32 (f : Bin) : Statement (.yrmaxI32 f) := fun w hw h =>
  have ⟨h1, h2, hg, hc⟩ := bin_word (m := 70) (x := 3) (Option.some.inj h) hw (by decide) (by decide)
  (decode_eq h1 h2).trans ((if_pos hc).trans (congrArg (fun q => Except.ok (Instr.yrmaxI32 q)) hg))

theorem RoundTrip.ybcast (f : Bin) : Statement (.ybcast f) := fun w hw h =>
  have ⟨h1, h2, hg, hc⟩ := bin_word (m := 71) (x := 0) (Option.some.inj h) hw (by decide) (by decide)
  (decode_eq h1 h2).trans ((if_pos hc).trans (congrArg (fun q => Except.ok (Instr.ybcast q)) hg))

theorem RoundTrip.yext (f : Tri) : Statement (.yext f) := fun w hw h =>
  have ⟨h1, h2, hg⟩ := tri_word (m := 71) (x := 1) (Option.some.inj h) hw (by decide) (by decide)
  (decode_eq h1 h2).trans (congrArg (fun q => Except.ok (Instr.yext q)) hg)

theorem RoundTrip.yins (f : Tri) : Statement (.yins f) := fun w hw h =>
  have ⟨h1, h2, hg⟩ := tri_word (m := 71) (x := 2) (Option.some.inj h) hw (by decide) (by decide)
  (decode_eq h1 h2).trans (congrArg (fun q => Except.ok (Instr.yins q)) hg)

theorem RoundTrip.ysel (f : Tri) : Statement (.ysel f) := fun w hw h =>
  have ⟨h1, h2, hg⟩ := tri_word (m := 71) (x := 3) (Option.some.inj h) hw (by decide) (by decide)
  (decode_eq h1 h2).trans (congrArg (fun q => Except.ok (Instr.ysel q)) hg)

theorem RoundTrip.vaddF32 (f : Tri) : Statement (.vaddF32 f) := fun w hw h =>
  have ⟨h1, h2, hg⟩ := tri_word (m := 80) (x := 0) (Option.some.inj h) hw (by decide) (by decide)
  (decode_eq h1 h2).trans (congrArg (fun q => Except.ok (Instr.vaddF32 q)) hg)

theorem RoundTrip.vsubF32 (f : Tri) : Statement (.vsubF32 f) := fun w hw h =>
  have ⟨h1, h2, hg⟩ := tri_word (m := 80) (x := 1) (Option.some.inj h) hw (by decide) (by decide)
  (decode_eq h1 h2).trans (congrArg (fun q => Except.ok (Instr.vsubF32 q)) hg)

theorem RoundTrip.vmulF32 (f : Tri) : Statement (.vmulF32 f) := fun w hw h =>
  have ⟨h1, h2, hg⟩ := tri_word (m := 80) (x := 2) (Option.some.inj h) hw (by decide) (by decide)
  (decode_eq h1 h2).trans (congrArg (fun q => Except.ok (Instr.vmulF32 q)) hg)

theorem RoundTrip.vfmaF32 (f : Tri) : Statement (.vfmaF32 f) := fun w hw h =>
  have ⟨h1, h2, hg⟩ := tri_word (m := 80) (x := 3) (Option.some.inj h) hw (by decide) (by decide)
  (decode_eq h1 h2).trans (congrArg (fun q => Except.ok (Instr.vfmaF32 q)) hg)

theorem RoundTrip.vminF32 (f : Tri) : Statement (.vminF32 f) := fun w hw h =>
  have ⟨h1, h2, hg⟩ := tri_word (m := 81) (x := 0) (Option.some.inj h) hw (by decide) (by decide)
  (decode_eq h1 h2).trans (congrArg (fun q => Except.ok (Instr.vminF32 q)) hg)

theorem RoundTrip.vmaxF32 (f : Tri) : Statement (.vmaxF32 f) := fun w hw h =>
  have ⟨h1, h2, hg⟩ := tri_word (m := 81) (x := 1) (Option.some.inj h) hw (by decide) (by decide)
  (decode_eq h1 h2).trans (congrArg (fun q => Except.ok (Instr.vmaxF32 q)) hg)

theorem RoundTrip.vabsF32 (f : Bin) : Statement (.vabsF32 f) := fun w hw h =>
  have ⟨h1, h2, hg, hc⟩ := bin_word (m := 81) (x := 2) (Option.some.inj h) hw (by decide) (by decide)
  (decode_eq h1 h2).trans ((if_pos hc).trans (congrArg (fun q => Except.ok (Instr.vabsF32 q)) hg))

theorem RoundTrip.vnegF32 (f : Bin) : Statement (.vnegF32 f) := fun w hw h =>
  have ⟨h1, h2, hg, hc⟩ := bin_word (m := 81) (x := 3) (Option.some.inj h) hw (by decide) (by decide)
  (decode_eq h1 h2).trans ((if_pos hc).trans (congrArg (fun q => Except.ok (Instr.vnegF32 q)) hg))

theorem RoundTrip.vaddBf16 (f : Tri) : Statement (.vaddBf16 f) := fun w hw h =>
  have ⟨h1, h2, hg⟩ := tri_word (m := 82) (x := 0) (Option.some.inj h) hw (by decide) (by decide)
  (decode_eq h1 h2).trans (congrArg (fun q => Except.ok (Instr.vaddBf16 q)) hg)

theorem RoundTrip.vsubBf16 (f : Tri) : Statement (.vsubBf16 f) := fun w hw h =>
  have ⟨h1, h2, hg⟩ := tri_word (m := 82) (x := 1) (Option.some.inj h) hw (by decide) (by decide)
  (decode_eq h1 h2).trans (congrArg (fun q => Except.ok (Instr.vsubBf16 q)) hg)

theorem RoundTrip.vmulBf16 (f : Tri) : Statement (.vmulBf16 f) := fun w hw h =>
  have ⟨h1, h2, hg⟩ := tri_word (m := 82) (x := 2) (Option.some.inj h) hw (by decide) (by decide)
  (decode_eq h1 h2).trans (congrArg (fun q => Except.ok (Instr.vmulBf16 q)) hg)

theorem RoundTrip.vfmaBf16 (f : Tri) : Statement (.vfmaBf16 f) := fun w hw h =>
  have ⟨h1, h2, hg⟩ := tri_word (m := 82) (x := 3) (Option.some.inj h) hw (by decide) (by decide)
  (decode_eq h1 h2).trans (congrArg (fun q => Except.ok (Instr.vfmaBf16 q)) hg)

theorem RoundTrip.vminBf16 (f : Tri) : Statement (.vminBf16 f) := fun w hw h =>
  have ⟨h1, h2, hg⟩ := tri_word (m := 83) (x := 0) (Option.some.inj h) hw (by decide) (by decide)
  (decode_eq h1 h2).trans (congrArg (fun q => Except.ok (Instr.vminBf16 q)) hg)

theorem RoundTrip.vmaxBf16 (f : Tri) : Statement (.vmaxBf16 f) := fun w hw h =>
  have ⟨h1, h2, hg⟩ := tri_word (m := 83) (x := 1) (Option.some.inj h) hw (by decide) (by decide)
  (decode_eq h1 h2).trans (congrArg (fun q => Except.ok (Instr.vmaxBf16 q)) hg)

theorem RoundTrip.vabsBf16 (f : Bin) : Statement (.vabsBf16 f) := fun w hw h =>
  have ⟨h1, h2, hg, hc⟩ := bin_word (m := 83) (x := 2) (Option.some.inj h) hw (by decide) (by decide)
  (decode_eq h1 h2).trans ((if_pos hc).trans (congrArg (fun q => Except.ok (Instr.vabsBf16 q)) hg))

theorem RoundTrip.vnegBf16 (f : Bin) : Statement (.vnegBf16 f) := fun w hw h =>
  have ⟨h1, h2, hg, hc⟩ := bin_word (m := 83) (x := 3) (Option.some.inj h) hw (by decide) (by decide)
  (decode_eq h1 h2).trans ((if_pos hc).trans (congrArg (fun q => Except.ok (Instr.vnegBf16 q)) hg))

theorem RoundTrip.vaddF16 (f : Tri) : Statement (.vaddF16 f) := fun w hw h =>
  have ⟨h1, h2, hg⟩ := tri_word (m := 84) (x := 0) (Option.some.inj h) hw (by decide) (by decide)
  (decode_eq h1 h2).trans (congrArg (fun q => Except.ok (Instr.vaddF16 q)) hg)

theorem RoundTrip.vsubF16 (f : Tri) : Statement (.vsubF16 f) := fun w hw h =>
  have ⟨h1, h2, hg⟩ := tri_word (m := 84) (x := 1) (Option.some.inj h) hw (by decide) (by decide)
  (decode_eq h1 h2).trans (congrArg (fun q => Except.ok (Instr.vsubF16 q)) hg)

theorem RoundTrip.vmulF16 (f : Tri) : Statement (.vmulF16 f) := fun w hw h =>
  have ⟨h1, h2, hg⟩ := tri_word (m := 84) (x := 2) (Option.some.inj h) hw (by decide) (by decide)
  (decode_eq h1 h2).trans (congrArg (fun q => Except.ok (Instr.vmulF16 q)) hg)

theorem RoundTrip.vfmaF16 (f : Tri) : Statement (.vfmaF16 f) := fun w hw h =>
  have ⟨h1, h2, hg⟩ := tri_word (m := 84) (x := 3) (Option.some.inj h) hw (by decide) (by decide)
  (decode_eq h1 h2).trans (congrArg (fun q => Except.ok (Instr.vfmaF16 q)) hg)

theorem RoundTrip.vminF16 (f : Tri) : Statement (.vminF16 f) := fun w hw h =>
  have ⟨h1, h2, hg⟩ := tri_word (m := 85) (x := 0) (Option.some.inj h) hw (by decide) (by decide)
  (decode_eq h1 h2).trans (congrArg (fun q => Except.ok (Instr.vminF16 q)) hg)

theorem RoundTrip.vmaxF16 (f : Tri) : Statement (.vmaxF16 f) := fun w hw h =>
  have ⟨h1, h2, hg⟩ := tri_word (m := 85) (x := 1) (Option.some.inj h) hw (by decide) (by decide)
  (decode_eq h1 h2).trans (congrArg (fun q => Except.ok (Instr.vmaxF16 q)) hg)

theorem RoundTrip.vabsF16 (f : Bin) : Statement (.vabsF16 f) := fun w hw h =>
  have ⟨h1, h2, hg, hc⟩ := bin_word (m := 85) (x := 2) (Option.some.inj h) hw (by decide) (by decide)
  (decode_eq h1 h2).trans ((if_pos hc).trans (congrArg (fun q => Except.ok (Instr.vabsF16 q)) hg))

theorem RoundTrip.vnegF16 (f : Bin) : Statement (.vnegF16 f) := fun w hw h =>
  have ⟨h1, h2, hg, hc⟩ := bin_word (m := 85) (x := 3) (Option.some.inj h) hw (by decide) (by decide)
  (decode_eq h1 h2).trans ((if_pos hc).trans (congrArg (fun q => Except.ok (Instr.vnegF16 q)) hg))

theorem RoundTrip.vaddI32 (f : Tri) : Statement (.vaddI32 f) := fun w hw h =>
  have ⟨h1, h2, hg⟩ := tri_word (m := 86) (x := 0) (Option.some.inj h) hw (by decide) (by decide)
  (decode_eq h1 h2).trans (congrArg (fun q => Except.ok (Instr.vaddI32 q)) hg)

theorem RoundTrip.vsubI32 (f : Tri) : Statement (.vsubI32 f) := fun w hw h =>
  have ⟨h1, h2, hg⟩ := tri_word (m := 86) (x := 1) (Option.some.inj h) hw (by decide) (by decide)
  (decode_eq h1 h2).trans (congrArg (fun q => Except.ok (Instr.vsubI32 q)) hg)

theorem RoundTrip.vmulI32 (f : Tri) : Statement (.vmulI32 f) := fun w hw h =>
  have ⟨h1, h2, hg⟩ := tri_word (m := 86) (x := 2) (Option.some.inj h) hw (by decide) (by decide)
  (decode_eq h1 h2).trans (congrArg (fun q => Except.ok (Instr.vmulI32 q)) hg)

theorem RoundTrip.vmacI32 (f : Tri) : Statement (.vmacI32 f) := fun w hw h =>
  have ⟨h1, h2, hg⟩ := tri_word (m := 86) (x := 3) (Option.some.inj h) hw (by decide) (by decide)
  (decode_eq h1 h2).trans (congrArg (fun q => Except.ok (Instr.vmacI32 q)) hg)

theorem RoundTrip.vminI32 (f : Tri) : Statement (.vminI32 f) := fun w hw h =>
  have ⟨h1, h2, hg⟩ := tri_word (m := 87) (x := 0) (Option.some.inj h) hw (by decide) (by decide)
  (decode_eq h1 h2).trans (congrArg (fun q => Except.ok (Instr.vminI32 q)) hg)

theorem RoundTrip.vmaxI32 (f : Tri) : Statement (.vmaxI32 f) := fun w hw h =>
  have ⟨h1, h2, hg⟩ := tri_word (m := 87) (x := 1) (Option.some.inj h) hw (by decide) (by decide)
  (decode_eq h1 h2).trans (congrArg (fun q => Except.ok (Instr.vmaxI32 q)) hg)

theorem RoundTrip.vabsI32 (f : Bin) : Statement (.vabsI32 f) := fun w hw h =>
  have ⟨h1, h2, hg, hc⟩ := bin_word (m := 87) (x := 2) (Option.some.inj h) hw (by decide) (by decide)
  (decode_eq h1 h2).trans ((if_pos hc).trans (congrArg (fun q => Except.ok (Instr.vabsI32 q)) hg))

theorem RoundTrip.vnegI32 (f : Bin) : Statement (.vnegI32 f) := fun w hw h =>
  have ⟨h1, h2, hg, hc⟩ := bin_word (m := 87) (x := 3) (Option.some.inj h) hw (by decide) (by decide)
  (decode_eq h1 h2).trans ((if_pos hc).trans (congrArg (fun q => Except.ok (Instr.vnegI32 q)) hg))

theorem RoundTrip.vaddI16 (f : Tri) : Statement (.vaddI16 f) := fun w hw h =>
  have ⟨h1, h2, hg⟩ := tri_word (m := 88) (x := 0) (Option.some.inj h) hw (by decide) (by decide)
  (decode_eq h1 h2).trans (congrArg (fun q => Except.ok (Instr.vaddI16 q)) hg)

theorem RoundTrip.vsubI16 (f : Tri) : Statement (.vsubI16 f) := fun w hw h =>
  have ⟨h1, h2, hg⟩ := tri_word (m := 88) (x := 1) (Option.some.inj h) hw (by decide) (by decide)
  (decode_eq h1 h2).trans (congrArg (fun q => Except.ok (Instr.vsubI16 q)) hg)

theorem RoundTrip.vmulI16 (f : Tri) : Statement (.vmulI16 f) := fun w hw h =>
  have ⟨h1, h2, hg⟩ := tri_word (m := 88) (x := 2) (Option.some.inj h) hw (by decide) (by decide)
  (decode_eq h1 h2).trans (congrArg (fun q => Except.ok (Instr.vmulI16 q)) hg)

theorem RoundTrip.vmacI16 (f : Tri) : Statement (.vmacI16 f) := fun w hw h =>
  have ⟨h1, h2, hg⟩ := tri_word (m := 88) (x := 3) (Option.some.inj h) hw (by decide) (by decide)
  (decode_eq h1 h2).trans (congrArg (fun q => Except.ok (Instr.vmacI16 q)) hg)

theorem RoundTrip.vminI16 (f : Tri) : Statement (.vminI16 f) := fun w hw h =>
  have ⟨h1, h2, hg⟩ := tri_word (m := 89) (x := 0) (Option.some.inj h) hw (by decide) (by decide)
  (decode_eq h1 h2).trans (congrArg (fun q => Except.ok (Instr.vminI16 q)) hg)

theorem RoundTrip.vmaxI16 (f : Tri) : Statement (.vmaxI16 f) := fun w hw h =>
  have ⟨h1, h2, hg⟩ := tri_word (m := 89) (x := 1) (Option.some.inj h) hw (by decide) (by decide)
  (decode_eq h1 h2).trans (congrArg (fun q => Except.ok (Instr.vmaxI16 q)) hg)

theorem RoundTrip.vabsI16 (f : Bin) : Statement (.vabsI16 f) := fun w hw h =>
  have ⟨h1, h2, hg, hc⟩ := bin_word (m := 89) (x := 2) (Option.some.inj h) hw (by decide) (by decide)
  (decode_eq h1 h2).trans ((if_pos hc).trans (congrArg (fun q => Except.ok (Instr.vabsI16 q)) hg))

theorem RoundTrip.vnegI16 (f : Bin) : Statement (.vnegI16 f) := fun w hw h =>
  have ⟨h1, h2, hg, hc⟩ := bin_word (m := 89) (x := 3) (Option.some.inj h) hw (by decide) (by decide)
  (decode_eq h1 h2).trans ((if_pos hc).trans (congrArg (fun q => Except.ok (Instr.vnegI16 q)) hg))

theorem RoundTrip.vaddI8 (f : Tri) : Statement (.vaddI8 f) := fun w hw h =>
  have ⟨h1, h2, hg⟩ := tri_word (m := 90) (x := 0) (Option.some.inj h) hw (by decide) (by decide)
  (decode_eq h1 h2).trans (congrArg (fun q => Except.ok (Instr.vaddI8 q)) hg)

theorem RoundTrip.vsubI8 (f : Tri) : Statement (.vsubI8 f) := fun w hw h =>
  have ⟨h1, h2, hg⟩ := tri_word (m := 90) (x := 1) (Option.some.inj h) hw (by decide) (by decide)
  (decode_eq h1 h2).trans (congrArg (fun q => Except.ok (Instr.vsubI8 q)) hg)

theorem RoundTrip.vmulI8 (f : Tri) : Statement (.vmulI8 f) := fun w hw h =>
  have ⟨h1, h2, hg⟩ := tri_word (m := 90) (x := 2) (Option.some.inj h) hw (by decide) (by decide)
  (decode_eq h1 h2).trans (congrArg (fun q => Except.ok (Instr.vmulI8 q)) hg)

theorem RoundTrip.vmacI8 (f : Tri) : Statement (.vmacI8 f) := fun w hw h =>
  have ⟨h1, h2, hg⟩ := tri_word (m := 90) (x := 3) (Option.some.inj h) hw (by decide) (by decide)
  (decode_eq h1 h2).trans (congrArg (fun q => Except.ok (Instr.vmacI8 q)) hg)

theorem RoundTrip.vminI8 (f : Tri) : Statement (.vminI8 f) := fun w hw h =>
  have ⟨h1, h2, hg⟩ := tri_word (m := 91) (x := 0) (Option.some.inj h) hw (by decide) (by decide)
  (decode_eq h1 h2).trans (congrArg (fun q => Except.ok (Instr.vminI8 q)) hg)

theorem RoundTrip.vmaxI8 (f : Tri) : Statement (.vmaxI8 f) := fun w hw h =>
  have ⟨h1, h2, hg⟩ := tri_word (m := 91) (x := 1) (Option.some.inj h) hw (by decide) (by decide)
  (decode_eq h1 h2).trans (congrArg (fun q => Except.ok (Instr.vmaxI8 q)) hg)

theorem RoundTrip.vabsI8 (f : Bin) : Statement (.vabsI8 f) := fun w hw h =>
  have ⟨h1, h2, hg, hc⟩ := bin_word (m := 91) (x := 2) (Option.some.inj h) hw (by decide) (by decide)
  (decode_eq h1 h2).trans ((if_pos hc).trans (congrArg (fun q => Except.ok (Instr.vabsI8 q)) hg))

theorem RoundTrip.vnegI8 (f : Bin) : Statement (.vnegI8 f) := fun w hw h =>
  have ⟨h1, h2, hg, hc⟩ := bin_word (m := 91) (x := 3) (Option.some.inj h) hw (by decide) (by decide)
  (decode_eq h1 h2).trans ((if_pos hc).trans (congrArg (fun q => Except.ok (Instr.vnegI8 q)) hg))

theorem RoundTrip.vcvtF32Bf16 (f : BinH7) : Statement (.vcvtF32Bf16 f) := fun w hw h =>
  have ⟨h1, h2, hg, hc⟩ := binh7_word (m := 92) (x := 0) (Option.some.inj h) hw (by decide) (by decide)
  (decode_eq h1 h2).trans ((if_pos hc).trans (congrArg (fun q => Except.ok (Instr.vcvtF32Bf16 q)) hg))

theorem RoundTrip.vcvtF32F16 (f : BinH7) : Statement (.vcvtF32F16 f) := fun w hw h =>
  have ⟨h1, h2, hg, hc⟩ := binh7_word (m := 92) (x := 1) (Option.some.inj h) hw (by decide) (by decide)
  (decode_eq h1 h2).trans ((if_pos hc).trans (congrArg (fun q => Except.ok (Instr.vcvtF32F16 q)) hg))

theorem RoundTrip.vcvtBf16F32 (f : CvtHR) : Statement (.vcvtBf16F32 f) := fun w hw h =>
  have ⟨h1, h2, hg, hc⟩ := cvthr_word (m := 92) (x := 2) (Option.some.inj h) hw (by decide) (by decide)
  (decode_eq h1 h2).trans ((if_pos hc).trans (congrArg (fun q => Except.ok (Instr.vcvtBf16F32 q)) hg))

theorem RoundTrip.vcvtF16F32 (f : CvtHR) : Statement (.vcvtF16F32 f) := fun w hw h =>
  have ⟨h1, h2, hg, hc⟩ := cvthr_word (m := 92) (x := 3) (Option.some.inj h) hw (by decide) (by decide)
  (decode_eq h1 h2).trans ((if_pos hc).trans (congrArg (fun q => Except.ok (Instr.vcvtF16F32 q)) hg))

theorem RoundTrip.vcvtF32I32 (f : CvtR) : Statement (.vcvtF32I32 f) := fun w hw h =>
  have ⟨h1, h2, hg, hc⟩ := cvtr_word (m := 93) (x := 0) (Option.some.inj h) hw (by decide) (by decide)
  (decode_eq h1 h2).trans ((if_pos hc).trans (congrArg (fun q => Except.ok (Instr.vcvtF32I32 q)) hg))

theorem RoundTrip.vcvtI32F32 (f : CvtR) : Statement (.vcvtI32F32 f) := fun w hw h =>
  have ⟨h1, h2, hg, hc⟩ := cvtr_word (m := 93) (x := 1) (Option.some.inj h) hw (by decide) (by decide)
  (decode_eq h1 h2).trans ((if_pos hc).trans (congrArg (fun q => Except.ok (Instr.vcvtI32F32 q)) hg))

theorem RoundTrip.vcvtI16I32 (f : BinH7) : Statement (.vcvtI16I32 f) := fun w hw h =>
  have ⟨h1, h2, hg, hc⟩ := binh7_word (m := 93) (x := 2) (Option.some.inj h) hw (by decide) (by decide)
  (decode_eq h1 h2).trans ((if_pos hc).trans (congrArg (fun q => Except.ok (Instr.vcvtI16I32 q)) hg))

theorem RoundTrip.vcvtI8I16 (f : BinH7) : Statement (.vcvtI8I16 f) := fun w hw h =>
  have ⟨h1, h2, hg, hc⟩ := binh7_word (m := 93) (x := 3) (Option.some.inj h) hw (by decide) (by decide)
  (decode_eq h1 h2).trans ((if_pos hc).trans (congrArg (fun q => Except.ok (Instr.vcvtI8I16 q)) hg))

theorem RoundTrip.vqnt (f : Tri) : Statement (.vqnt f) := fun w hw h =>
  have ⟨h1, h2, hg⟩ := tri_word (m := 94) (x := 0) (Option.some.inj h) hw (by decide) (by decide)
  (decode_eq h1 h2).trans (congrArg (fun q => Except.ok (Instr.vqnt q)) hg)

theorem RoundTrip.vdq (f : Tri) : Statement (.vdq f) := fun w hw h =>
  have ⟨h1, h2, hg⟩ := tri_word (m := 94) (x := 1) (Option.some.inj h) hw (by decide) (by decide)
  (decode_eq h1 h2).trans (congrArg (fun q => Except.ok (Instr.vdq q)) hg)

theorem RoundTrip.vscl (f : Tri) : Statement (.vscl f) := fun w hw h =>
  have ⟨h1, h2, hg⟩ := tri_word (m := 94) (x := 2) (Option.some.inj h) hw (by decide) (by decide)
  (decode_eq h1 h2).trans (congrArg (fun q => Except.ok (Instr.vscl q)) hg)

theorem RoundTrip.vcomp (f : Tri) : Statement (.vcomp f) := fun w hw h =>
  have ⟨h1, h2, hg⟩ := tri_word (m := 94) (x := 3) (Option.some.inj h) hw (by decide) (by decide)
  (decode_eq h1 h2).trans (congrArg (fun q => Except.ok (Instr.vcomp q)) hg)

theorem RoundTrip.vexp2 (f : Bin) : Statement (.vexp2 f) := fun w hw h =>
  have ⟨h1, h2, hg, hc⟩ := bin_word (m := 95) (x := 0) (Option.some.inj h) hw (by decide) (by decide)
  (decode_eq h1 h2).trans ((if_pos hc).trans (congrArg (fun q => Except.ok (Instr.vexp2 q)) hg))

theorem RoundTrip.vrcp (f : Bin) : Statement (.vrcp f) := fun w hw h =>
  have ⟨h1, h2, hg, hc⟩ := bin_word (m := 95) (x := 1) (Option.some.inj h) hw (by decide) (by decide)
  (decode_eq h1 h2).trans ((if_pos hc).trans (congrArg (fun q => Except.ok (Instr.vrcp q)) hg))

theorem RoundTrip.vrsq (f : Bin) : Statement (.vrsq f) := fun w hw h =>
  have ⟨h1, h2, hg, hc⟩ := bin_word (m := 95) (x := 2) (Option.some.inj h) hw (by decide) (by decide)
  (decode_eq h1 h2).trans ((if_pos hc).trans (congrArg (fun q => Except.ok (Instr.vrsq q)) hg))

theorem RoundTrip.vlog2 (f : Bin) : Statement (.vlog2 f) := fun w hw h =>
  have ⟨h1, h2, hg, hc⟩ := bin_word (m := 95) (x := 3) (Option.some.inj h) hw (by decide) (by decide)
  (decode_eq h1 h2).trans ((if_pos hc).trans (congrArg (fun q => Except.ok (Instr.vlog2 q)) hg))

theorem RoundTrip.vcmpEqF32 (f : Tri) : Statement (.vcmpEqF32 f) := fun w hw h =>
  have ⟨h1, h2, hg⟩ := tri_word (m := 96) (x := 0) (Option.some.inj h) hw (by decide) (by decide)
  (decode_eq h1 h2).trans (congrArg (fun q => Except.ok (Instr.vcmpEqF32 q)) hg)

theorem RoundTrip.vcmpLtF32 (f : Tri) : Statement (.vcmpLtF32 f) := fun w hw h =>
  have ⟨h1, h2, hg⟩ := tri_word (m := 96) (x := 1) (Option.some.inj h) hw (by decide) (by decide)
  (decode_eq h1 h2).trans (congrArg (fun q => Except.ok (Instr.vcmpLtF32 q)) hg)

theorem RoundTrip.vcmpLeF32 (f : Tri) : Statement (.vcmpLeF32 f) := fun w hw h =>
  have ⟨h1, h2, hg⟩ := tri_word (m := 96) (x := 2) (Option.some.inj h) hw (by decide) (by decide)
  (decode_eq h1 h2).trans (congrArg (fun q => Except.ok (Instr.vcmpLeF32 q)) hg)

theorem RoundTrip.vcmpNeF32 (f : Tri) : Statement (.vcmpNeF32 f) := fun w hw h =>
  have ⟨h1, h2, hg⟩ := tri_word (m := 96) (x := 3) (Option.some.inj h) hw (by decide) (by decide)
  (decode_eq h1 h2).trans (congrArg (fun q => Except.ok (Instr.vcmpNeF32 q)) hg)

theorem RoundTrip.vcmpEqI32 (f : Tri) : Statement (.vcmpEqI32 f) := fun w hw h =>
  have ⟨h1, h2, hg⟩ := tri_word (m := 97) (x := 0) (Option.some.inj h) hw (by decide) (by decide)
  (decode_eq h1 h2).trans (congrArg (fun q => Except.ok (Instr.vcmpEqI32 q)) hg)

theorem RoundTrip.vcmpLtI32 (f : Tri) : Statement (.vcmpLtI32 f) := fun w hw h =>
  have ⟨h1, h2, hg⟩ := tri_word (m := 97) (x := 1) (Option.some.inj h) hw (by decide) (by decide)
  (decode_eq h1 h2).trans (congrArg (fun q => Except.ok (Instr.vcmpLtI32 q)) hg)

theorem RoundTrip.vcmpLeI32 (f : Tri) : Statement (.vcmpLeI32 f) := fun w hw h =>
  have ⟨h1, h2, hg⟩ := tri_word (m := 97) (x := 2) (Option.some.inj h) hw (by decide) (by decide)
  (decode_eq h1 h2).trans (congrArg (fun q => Except.ok (Instr.vcmpLeI32 q)) hg)

theorem RoundTrip.vcmpNeI32 (f : Tri) : Statement (.vcmpNeI32 f) := fun w hw h =>
  have ⟨h1, h2, hg⟩ := tri_word (m := 97) (x := 3) (Option.some.inj h) hw (by decide) (by decide)
  (decode_eq h1 h2).trans (congrArg (fun q => Except.ok (Instr.vcmpNeI32 q)) hg)

theorem RoundTrip.vand (f : Tri) : Statement (.vand f) := fun w hw h =>
  have ⟨h1, h2, hg⟩ := tri_word (m := 98) (x := 0) (Option.some.inj h) hw (by decide) (by decide)
  (decode_eq h1 h2).trans (congrArg (fun q => Except.ok (Instr.vand q)) hg)

theorem RoundTrip.vor (f : Tri) : Statement (.vor f) := fun w hw h =>
  have ⟨h1, h2, hg⟩ := tri_word (m := 98) (x := 1) (Option.some.inj h) hw (by decide) (by decide)
  (decode_eq h1 h2).trans (congrArg (fun q => Except.ok (Instr.vor q)) hg)

theorem RoundTrip.vxor (f : Tri) : Statement (.vxor f) := fun w hw h =>
  have ⟨h1, h2, hg⟩ := tri_word (m := 98) (x := 2) (Option.some.inj h) hw (by decide) (by decide)
  (decode_eq h1 h2).trans (congrArg (fun q => Except.ok (Instr.vxor q)) hg)

theorem RoundTrip.vnot (f : Bin) : Statement (.vnot f) := fun w hw h =>
  have ⟨h1, h2, hg, hc⟩ := bin_word (m := 98) (x := 3) (Option.some.inj h) hw (by decide) (by decide)
  (decode_eq h1 h2).trans ((if_pos hc).trans (congrArg (fun q => Except.ok (Instr.vnot q)) hg))

theorem RoundTrip.vshuf (f : Tri) : Statement (.vshuf f) := fun w hw h =>
  have ⟨h1, h2, hg⟩ := tri_word (m := 99) (x := 0) (Option.some.inj h) hw (by decide) (by decide)
  (decode_eq h1 h2).trans (congrArg (fun q => Except.ok (Instr.vshuf q)) hg)

theorem RoundTrip.vrot (f : BinN) : Statement (.vrot f) := fun w hw h =>
  have ⟨h1, h2, hg⟩ := binn_word (m := 99) (x := 1) (Option.some.inj h) hw (by decide) (by decide)
  (decode_eq h1 h2).trans (congrArg (fun q => Except.ok (Instr.vrot q)) hg)

theorem RoundTrip.vbcst (f : BinN) : Statement (.vbcst f) := fun w hw h =>
  have ⟨h1, h2, hg⟩ := binn_word (m := 99) (x := 2) (Option.some.inj h) hw (by decide) (by decide)
  (decode_eq h1 h2).trans (congrArg (fun q => Except.ok (Instr.vbcst q)) hg)

theorem RoundTrip.vtrn (f : Tri) : Statement (.vtrn f) := fun w hw h =>
  have ⟨h1, h2, hg⟩ := tri_word (m := 99) (x := 3) (Option.some.inj h) hw (by decide) (by decide)
  (decode_eq h1 h2).trans (congrArg (fun q => Except.ok (Instr.vtrn q)) hg)

theorem RoundTrip.vsel (f : Tri) : Statement (.vsel f) := fun w hw h =>
  have ⟨h1, h2, hg⟩ := tri_word (m := 100) (x := 0) (Option.some.inj h) hw (by decide) (by decide)
  (decode_eq h1 h2).trans (congrArg (fun q => Except.ok (Instr.vsel q)) hg)

theorem RoundTrip.vfill (f : BinN) : Statement (.vfill f) := fun w hw h =>
  have ⟨h1, h2, hg⟩ := binn_word (m := 100) (x := 1) (Option.some.inj h) hw (by decide) (by decide)
  (decode_eq h1 h2).trans (congrArg (fun q => Except.ok (Instr.vfill q)) hg)

theorem RoundTrip.vmerge (f : Tri) : Statement (.vmerge f) := fun w hw h =>
  have ⟨h1, h2, hg⟩ := tri_word (m := 100) (x := 2) (Option.some.inj h) hw (by decide) (by decide)
  (decode_eq h1 h2).trans (congrArg (fun q => Except.ok (Instr.vmerge q)) hg)

theorem RoundTrip.vmask (f : GuardN) : Statement (.vmask f) := fun w hw h =>
  have ⟨h1, h2, hg, hc⟩ := guardn_word (m := 100) (x := 3) (Option.some.inj h) hw (by decide) (by decide)
  (decode_eq h1 h2).trans ((if_pos hc).trans (congrArg (fun q => Except.ok (Instr.vmask q)) hg))

theorem RoundTrip.vrsumF32 (f : Bin) : Statement (.vrsumF32 f) := fun w hw h =>
  have ⟨h1, h2, hg, hc⟩ := bin_word (m := 101) (x := 0) (Option.some.inj h) hw (by decide) (by decide)
  (decode_eq h1 h2).trans ((if_pos hc).trans (congrArg (fun q => Except.ok (Instr.vrsumF32 q)) hg))

theorem RoundTrip.vrmaxF32 (f : Bin) : Statement (.vrmaxF32 f) := fun w hw h =>
  have ⟨h1, h2, hg, hc⟩ := bin_word (m := 101) (x := 1) (Option.some.inj h) hw (by decide) (by decide)
  (decode_eq h1 h2).trans ((if_pos hc).trans (congrArg (fun q => Except.ok (Instr.vrmaxF32 q)) hg))

theorem RoundTrip.vrsumI32 (f : Bin) : Statement (.vrsumI32 f) := fun w hw h =>
  have ⟨h1, h2, hg, hc⟩ := bin_word (m := 101) (x := 2) (Option.some.inj h) hw (by decide) (by decide)
  (decode_eq h1 h2).trans ((if_pos hc).trans (congrArg (fun q => Except.ok (Instr.vrsumI32 q)) hg))

theorem RoundTrip.vrmaxI32 (f : Bin) : Statement (.vrmaxI32 f) := fun w hw h =>
  have ⟨h1, h2, hg, hc⟩ := bin_word (m := 101) (x := 3) (Option.some.inj h) hw (by decide) (by decide)
  (decode_eq h1 h2).trans ((if_pos hc).trans (congrArg (fun q => Except.ok (Instr.vrmaxI32 q)) hg))

theorem RoundTrip.vld (f : Imm6) : Statement (.vld f) := fun w hw h =>
  have ⟨h1, h2, hg⟩ := imm6_word (m := 102) (x := 0) (Option.some.inj h) hw (by decide) (by decide)
  (decode_eq h1 h2).trans (congrArg (fun q => Except.ok (Instr.vld q)) hg)

theorem RoundTrip.vst (f : Imm6) : Statement (.vst f) := fun w hw h =>
  have ⟨h1, h2, hg⟩ := imm6_word (m := 102) (x := 1) (Option.some.inj h) hw (by decide) (by decide)
  (decode_eq h1 h2).trans (congrArg (fun q => Except.ok (Instr.vst q)) hg)

theorem RoundTrip.vldb (f : Imm6) : Statement (.vldb f) := fun w hw h =>
  have ⟨h1, h2, hg⟩ := imm6_word (m := 102) (x := 2) (Option.some.inj h) hw (by decide) (by decide)
  (decode_eq h1 h2).trans (congrArg (fun q => Except.ok (Instr.vldb q)) hg)

theorem RoundTrip.vstm (f : Imm6) : Statement (.vstm f) := fun w hw h =>
  have ⟨h1, h2, hg⟩ := imm6_word (m := 102) (x := 3) (Option.some.inj h) hw (by decide) (by decide)
  (decode_eq h1 h2).trans (congrArg (fun q => Except.ok (Instr.vstm q)) hg)

theorem RoundTrip.vmova (f : BinN) : Statement (.vmova f) := fun w hw h =>
  have ⟨h1, h2, hg⟩ := binn_word (m := 103) (x := 0) (Option.some.inj h) hw (by decide) (by decide)
  (decode_eq h1 h2).trans (congrArg (fun q => Except.ok (Instr.vmova q)) hg)

theorem RoundTrip.vmovv (f : Bin) : Statement (.vmovv f) := fun w hw h =>
  have ⟨h1, h2, hg, hc⟩ := bin_word (m := 103) (x := 1) (Option.some.inj h) hw (by decide) (by decide)
  (decode_eq h1 h2).trans ((if_pos hc).trans (congrArg (fun q => Except.ok (Instr.vmovv q)) hg))

theorem RoundTrip.vsplat (f : Bin) : Statement (.vsplat f) := fun w hw h =>
  have ⟨h1, h2, hg, hc⟩ := bin_word (m := 103) (x := 2) (Option.some.inj h) hw (by decide) (by decide)
  (decode_eq h1 h2).trans ((if_pos hc).trans (congrArg (fun q => Except.ok (Instr.vsplat q)) hg))

theorem RoundTrip.viota (f : Bin) : Statement (.viota f) := fun w hw h =>
  have ⟨h1, h2, hg, hc⟩ := bin_word (m := 103) (x := 3) (Option.some.inj h) hw (by decide) (by decide)
  (decode_eq h1 h2).trans ((if_pos hc).trans (congrArg (fun q => Except.ok (Instr.viota q)) hg))

theorem RoundTrip.mmB8 (f : Mm) : Statement (.mmB8 f) := fun w hw h =>
  have ⟨h1, h2, hg, hc⟩ := mm_word (m := 104) (x := 0) (Option.some.inj h) hw (by decide) (by decide)
  (decode_eq h1 h2).trans ((if_pos hc).trans (congrArg (fun q => Except.ok (Instr.mmB8 q)) hg))

theorem RoundTrip.mmI8 (f : Mm) : Statement (.mmI8 f) := fun w hw h =>
  have ⟨h1, h2, hg, hc⟩ := mm_word (m := 104) (x := 1) (Option.some.inj h) hw (by decide) (by decide)
  (decode_eq h1 h2).trans ((if_pos hc).trans (congrArg (fun q => Except.ok (Instr.mmI8 q)) hg))

theorem RoundTrip.mmI4 (f : Mm) : Statement (.mmI4 f) := fun w hw h =>
  have ⟨h1, h2, hg, hc⟩ := mm_word (m := 104) (x := 2) (Option.some.inj h) hw (by decide) (by decide)
  (decode_eq h1 h2).trans ((if_pos hc).trans (congrArg (fun q => Except.ok (Instr.mmI4 q)) hg))

theorem RoundTrip.mmBf16 (f : Mm) : Statement (.mmBf16 f) := fun w hw h =>
  have ⟨h1, h2, hg, hc⟩ := mm_word (m := 104) (x := 3) (Option.some.inj h) hw (by decide) (by decide)
  (decode_eq h1 h2).trans ((if_pos hc).trans (congrArg (fun q => Except.ok (Instr.mmBf16 q)) hg))

theorem RoundTrip.mmsB8 (f : Mm) : Statement (.mmsB8 f) := fun w hw h =>
  have ⟨h1, h2, hg, hc⟩ := mm_word (m := 105) (x := 0) (Option.some.inj h) hw (by decide) (by decide)
  (decode_eq h1 h2).trans ((if_pos hc).trans (congrArg (fun q => Except.ok (Instr.mmsB8 q)) hg))

theorem RoundTrip.mmsI8 (f : Mm) : Statement (.mmsI8 f) := fun w hw h =>
  have ⟨h1, h2, hg, hc⟩ := mm_word (m := 105) (x := 1) (Option.some.inj h) hw (by decide) (by decide)
  (decode_eq h1 h2).trans ((if_pos hc).trans (congrArg (fun q => Except.ok (Instr.mmsI8 q)) hg))

theorem RoundTrip.mmsBf16 (f : Mm) : Statement (.mmsBf16 f) := fun w hw h =>
  have ⟨h1, h2, hg, hc⟩ := mm_word (m := 105) (x := 2) (Option.some.inj h) hw (by decide) (by decide)
  (decode_eq h1 h2).trans ((if_pos hc).trans (congrArg (fun q => Except.ok (Instr.mmsBf16 q)) hg))

theorem RoundTrip.spsel (f : BinN2) : Statement (.spsel f) := fun w hw h =>
  have ⟨h1, h2, hg, hc⟩ := binn2_word (m := 105) (x := 3) (Option.some.inj h) hw (by decide) (by decide)
  (decode_eq h1 h2).trans ((if_pos hc).trans (congrArg (fun q => Except.ok (Instr.spsel q)) hg))

theorem RoundTrip.arel (f : HandleD) : Statement (.arel f) := fun w hw h =>
  have ⟨h1, h2, hg, hc⟩ := handled_word (m := 106) (x := 0) (Option.some.inj h) hw (by decide) (by decide)
  (decode_eq h1 h2).trans ((if_pos hc).trans (congrArg (fun q => Except.ok (Instr.arel q)) hg))

theorem RoundTrip.ard (f : HandleRd) : Statement (.ard f) := fun w hw h =>
  have ⟨h1, h2, hg, hc⟩ := handlerd_word (m := 106) (x := 1) (Option.some.inj h) hw (by decide) (by decide)
  (decode_eq h1 h2).trans ((if_pos hc).trans (congrArg (fun q => Except.ok (Instr.ard q)) hg))

theorem RoundTrip.awr (f : HandleAB) : Statement (.awr f) := fun w hw h =>
  have ⟨h1, h2, hg, hc⟩ := handleab_word (m := 106) (x := 2) (Option.some.inj h) hw (by decide) (by decide)
  (decode_eq h1 h2).trans ((if_pos hc).trans (congrArg (fun q => Except.ok (Instr.awr q)) hg))

theorem RoundTrip.azero (f : HandleD) : Statement (.azero f) := fun w hw h =>
  have ⟨h1, h2, hg, hc⟩ := handled_word (m := 106) (x := 3) (Option.some.inj h) hw (by decide) (by decide)
  (decode_eq h1 h2).trans ((if_pos hc).trans (congrArg (fun q => Except.ok (Instr.azero q)) hg))

theorem RoundTrip.osmUpd (f : OsmUpd) : Statement (.osmUpd f) := fun w hw h =>
  have ⟨h1, h2, hg, hc⟩ := osmupd_word (m := 107) (x := 0) (Option.some.inj h) hw (by decide) (by decide)
  (decode_eq h1 h2).trans ((if_pos hc).trans (congrArg (fun q => Except.ok (Instr.osmUpd q)) hg))

theorem RoundTrip.osmMrg (f : OsmMrg) : Statement (.osmMrg f) := fun w hw h =>
  have ⟨h1, h2, hg, hc⟩ := osmmrg_word (m := 107) (x := 1) (Option.some.inj h) hw (by decide) (by decide)
  (decode_eq h1 h2).trans ((if_pos hc).trans (congrArg (fun q => Except.ok (Instr.osmMrg q)) hg))

theorem RoundTrip.osmFin (f : HandleD) : Statement (.osmFin f) := fun w hw h =>
  have ⟨h1, h2, hg, hc⟩ := handled_word (m := 107) (x := 2) (Option.some.inj h) hw (by decide) (by decide)
  (decode_eq h1 h2).trans ((if_pos hc).trans (congrArg (fun q => Except.ok (Instr.osmFin q)) hg))

theorem RoundTrip.osmRst (f : HandleD) : Statement (.osmRst f) := fun w hw h =>
  have ⟨h1, h2, hg, hc⟩ := handled_word (m := 107) (x := 3) (Option.some.inj h) hw (by decide) (by decide)
  (decode_eq h1 h2).trans ((if_pos hc).trans (congrArg (fun q => Except.ok (Instr.osmRst q)) hg))

theorem RoundTrip.lload (f : Lload) : Statement (.lload f) := fun w hw h =>
  have ⟨h1, h2, hg, hc⟩ := lload_word (m := 108) (x := 0) (Option.some.inj h) hw (by decide) (by decide)
  (decode_eq h1 h2).trans ((if_pos hc).trans (congrArg (fun q => Except.ok (Instr.lload q)) hg))

theorem RoundTrip.lpass (f : UnA) : Statement (.lpass f) := fun w hw h =>
  have ⟨h1, h2, hg, hc⟩ := una_word (m := 108) (x := 1) (Option.some.inj h) hw (by decide) (by decide)
  (decode_eq h1 h2).trans ((if_pos hc).trans (congrArg (fun q => Except.ok (Instr.lpass q)) hg))

theorem RoundTrip.lswap (f : Nul) : Statement (.lswap f) := fun w hw h =>
  have ⟨h1, h2, hg, hc⟩ := nul_word (m := 108) (x := 2) (Option.some.inj h) hw (by decide) (by decide)
  (decode_eq h1 h2).trans ((if_pos hc).trans (congrArg (fun q => Except.ok (Instr.lswap q)) hg))

theorem RoundTrip.lstat (f : UnD) : Statement (.lstat f) := fun w hw h =>
  have ⟨h1, h2, hg, hc⟩ := und_word (m := 108) (x := 3) (Option.some.inj h) hw (by decide) (by decide)
  (decode_eq h1 h2).trans ((if_pos hc).trans (congrArg (fun q => Except.ok (Instr.lstat q)) hg))

theorem RoundTrip.vdot4I8 (f : Tri) : Statement (.vdot4I8 f) := fun w hw h =>
  have ⟨h1, h2, hg⟩ := tri_word (m := 109) (x := 0) (Option.some.inj h) hw (by decide) (by decide)
  (decode_eq h1 h2).trans (congrArg (fun q => Except.ok (Instr.vdot4I8 q)) hg)

theorem RoundTrip.vdot4sI8 (f : Tri) : Statement (.vdot4sI8 f) := fun w hw h =>
  have ⟨h1, h2, hg⟩ := tri_word (m := 109) (x := 1) (Option.some.inj h) hw (by decide) (by decide)
  (decode_eq h1 h2).trans (congrArg (fun q => Except.ok (Instr.vdot4sI8 q)) hg)

theorem RoundTrip.vdot2I16 (f : Tri) : Statement (.vdot2I16 f) := fun w hw h =>
  have ⟨h1, h2, hg⟩ := tri_word (m := 109) (x := 2) (Option.some.inj h) hw (by decide) (by decide)
  (decode_eq h1 h2).trans (congrArg (fun q => Except.ok (Instr.vdot2I16 q)) hg)

theorem RoundTrip.vdot2sI16 (f : Tri) : Statement (.vdot2sI16 f) := fun w hw h =>
  have ⟨h1, h2, hg⟩ := tri_word (m := 109) (x := 3) (Option.some.inj h) hw (by decide) (by decide)
  (decode_eq h1 h2).trans (congrArg (fun q => Except.ok (Instr.vdot2sI16 q)) hg)

theorem RoundTrip.winSig (f : DB) : Statement (.winSig f) := fun w hw h =>
  have ⟨h1, h2, hg, hc⟩ := db_word (m := 112) (x := 0) (Option.some.inj h) hw (by decide) (by decide)
  (decode_eq h1 h2).trans ((if_pos hc).trans (congrArg (fun q => Except.ok (Instr.winSig q)) hg))

theorem RoundTrip.winCmp (f : HandleAB) : Statement (.winCmp f) := fun w hw h =>
  have ⟨h1, h2, hg, hc⟩ := handleab_word (m := 112) (x := 1) (Option.some.inj h) hw (by decide) (by decide)
  (decode_eq h1 h2).trans ((if_pos hc).trans (congrArg (fun q => Except.ok (Instr.winCmp q)) hg))

theorem RoundTrip.winSkip (f : UnB) : Statement (.winSkip f) := fun w hw h =>
  have ⟨h1, h2, hg, hc⟩ := unb_word (m := 112) (x := 2) (Option.some.inj h) hw (by decide) (by decide)
  (decode_eq h1 h2).trans ((if_pos hc).trans (congrArg (fun q => Except.ok (Instr.winSkip q)) hg))

theorem RoundTrip.winKeep (f : AB) : Statement (.winKeep f) := fun w hw h =>
  have ⟨h1, h2, hg, hc⟩ := ab_word (m := 112) (x := 3) (Option.some.inj h) hw (by decide) (by decide)
  (decode_eq h1 h2).trans ((if_pos hc).trans (congrArg (fun q => Except.ok (Instr.winKeep q)) hg))

theorem RoundTrip.winStep (f : UnD) : Statement (.winStep f) := fun w hw h =>
  have ⟨h1, h2, hg, hc⟩ := und_word (m := 113) (x := 0) (Option.some.inj h) hw (by decide) (by decide)
  (decode_eq h1 h2).trans ((if_pos hc).trans (congrArg (fun q => Except.ok (Instr.winStep q)) hg))

theorem RoundTrip.winMap (f : DB) : Statement (.winMap f) := fun w hw h =>
  have ⟨h1, h2, hg, hc⟩ := db_word (m := 113) (x := 1) (Option.some.inj h) hw (by decide) (by decide)
  (decode_eq h1 h2).trans ((if_pos hc).trans (congrArg (fun q => Except.ok (Instr.winMap q)) hg))

theorem RoundTrip.winSet (f : Tri) : Statement (.winSet f) := fun w hw h =>
  have ⟨h1, h2, hg⟩ := tri_word (m := 113) (x := 2) (Option.some.inj h) hw (by decide) (by decide)
  (decode_eq h1 h2).trans (congrArg (fun q => Except.ok (Instr.winSet q)) hg)

theorem RoundTrip.winClr (f : UnA) : Statement (.winClr f) := fun w hw h =>
  have ⟨h1, h2, hg, hc⟩ := una_word (m := 113) (x := 3) (Option.some.inj h) hw (by decide) (by decide)
  (decode_eq h1 h2).trans ((if_pos hc).trans (congrArg (fun q => Except.ok (Instr.winClr q)) hg))

theorem RoundTrip.cpyBox (f : Bin) : Statement (.cpyBox f) := fun w hw h =>
  have ⟨h1, h2, hg, hc⟩ := bin_word (m := 116) (x := 0) (Option.some.inj h) hw (by decide) (by decide)
  (decode_eq h1 h2).trans ((if_pos hc).trans (congrArg (fun q => Except.ok (Instr.cpyBox q)) hg))

theorem RoundTrip.cpyMcast (f : Bin) : Statement (.cpyMcast f) := fun w hw h =>
  have ⟨h1, h2, hg, hc⟩ := bin_word (m := 116) (x := 1) (Option.some.inj h) hw (by decide) (by decide)
  (decode_eq h1 h2).trans ((if_pos hc).trans (congrArg (fun q => Except.ok (Instr.cpyMcast q)) hg))

theorem RoundTrip.cpyRed (f : Bin) : Statement (.cpyRed f) := fun w hw h =>
  have ⟨h1, h2, hg, hc⟩ := bin_word (m := 116) (x := 2) (Option.some.inj h) hw (by decide) (by decide)
  (decode_eq h1 h2).trans ((if_pos hc).trans (congrArg (fun q => Except.ok (Instr.cpyRed q)) hg))

theorem RoundTrip.cpyLin (f : Tri) : Statement (.cpyLin f) := fun w hw h =>
  have ⟨h1, h2, hg⟩ := tri_word (m := 116) (x := 3) (Option.some.inj h) hw (by decide) (by decide)
  (decode_eq h1 h2).trans (congrArg (fun q => Except.ok (Instr.cpyLin q)) hg)

theorem RoundTrip.barInit (f : AB) : Statement (.barInit f) := fun w hw h =>
  have ⟨h1, h2, hg, hc⟩ := ab_word (m := 117) (x := 0) (Option.some.inj h) hw (by decide) (by decide)
  (decode_eq h1 h2).trans ((if_pos hc).trans (congrArg (fun q => Except.ok (Instr.barInit q)) hg))

theorem RoundTrip.barArrive (f : Tri) : Statement (.barArrive f) := fun w hw h =>
  have ⟨h1, h2, hg⟩ := tri_word (m := 117) (x := 1) (Option.some.inj h) hw (by decide) (by decide)
  (decode_eq h1 h2).trans (congrArg (fun q => Except.ok (Instr.barArrive q)) hg)

theorem RoundTrip.barWait (f : BarWait) : Statement (.barWait f) := fun w hw h =>
  have ⟨h1, h2, hg, hc⟩ := barwait_word (m := 117) (x := 2) (Option.some.inj h) hw (by decide) (by decide)
  (decode_eq h1 h2).trans ((if_pos hc).trans (congrArg (fun q => Except.ok (Instr.barWait q)) hg))

theorem RoundTrip.barTest (f : BarTest) : Statement (.barTest f) := fun w hw h =>
  have ⟨h1, h2, hg, hc⟩ := bartest_word (m := 117) (x := 3) (Option.some.inj h) hw (by decide) (by decide)
  (decode_eq h1 h2).trans ((if_pos hc).trans (congrArg (fun q => Except.ok (Instr.barTest q)) hg))

theorem RoundTrip.jigLoad (f : UnA) : Statement (.jigLoad f) := fun w hw h =>
  have ⟨h1, h2, hg, hc⟩ := una_word (m := 118) (x := 0) (Option.some.inj h) hw (by decide) (by decide)
  (decode_eq h1 h2).trans ((if_pos hc).trans (congrArg (fun q => Except.ok (Instr.jigLoad q)) hg))

theorem RoundTrip.jigGo (f : Nul) : Statement (.jigGo f) := fun w hw h =>
  have ⟨h1, h2, hg, hc⟩ := nul_word (m := 118) (x := 1) (Option.some.inj h) hw (by decide) (by decide)
  (decode_eq h1 h2).trans ((if_pos hc).trans (congrArg (fun q => Except.ok (Instr.jigGo q)) hg))

theorem RoundTrip.jigStop (f : Nul) : Statement (.jigStop f) := fun w hw h =>
  have ⟨h1, h2, hg, hc⟩ := nul_word (m := 118) (x := 2) (Option.some.inj h) hw (by decide) (by decide)
  (decode_eq h1 h2).trans ((if_pos hc).trans (congrArg (fun q => Except.ok (Instr.jigStop q)) hg))

theorem RoundTrip.jigStat (f : UnD) : Statement (.jigStat f) := fun w hw h =>
  have ⟨h1, h2, hg, hc⟩ := und_word (m := 118) (x := 3) (Option.some.inj h) hw (by decide) (by decide)
  (decode_eq h1 h2).trans ((if_pos hc).trans (congrArg (fun q => Except.ok (Instr.jigStat q)) hg))

theorem RoundTrip.wmSet (f : Tri) : Statement (.wmSet f) := fun w hw h =>
  have ⟨h1, h2, hg⟩ := tri_word (m := 119) (x := 0) (Option.some.inj h) hw (by decide) (by decide)
  (decode_eq h1 h2).trans (congrArg (fun q => Except.ok (Instr.wmSet q)) hg)

theorem RoundTrip.wmRd (f : Bin) : Statement (.wmRd f) := fun w hw h =>
  have ⟨h1, h2, hg, hc⟩ := bin_word (m := 119) (x := 1) (Option.some.inj h) hw (by decide) (by decide)
  (decode_eq h1 h2).trans ((if_pos hc).trans (congrArg (fun q => Except.ok (Instr.wmRd q)) hg))

theorem RoundTrip.clSend (f : Bin) : Statement (.clSend f) := fun w hw h =>
  have ⟨h1, h2, hg, hc⟩ := bin_word (m := 119) (x := 2) (Option.some.inj h) hw (by decide) (by decide)
  (decode_eq h1 h2).trans ((if_pos hc).trans (congrArg (fun q => Except.ok (Instr.clSend q)) hg))

theorem RoundTrip.clChk (f : Bin) : Statement (.clChk f) := fun w hw h =>
  have ⟨h1, h2, hg, hc⟩ := bin_word (m := 119) (x := 3) (Option.some.inj h) hw (by decide) (by decide)
  (decode_eq h1 h2).trans ((if_pos hc).trans (congrArg (fun q => Except.ok (Instr.clChk q)) hg))

theorem RoundTrip.chPut (f : Tri) : Statement (.chPut f) := fun w hw h =>
  have ⟨h1, h2, hg⟩ := tri_word (m := 120) (x := 0) (Option.some.inj h) hw (by decide) (by decide)
  (decode_eq h1 h2).trans (congrArg (fun q => Except.ok (Instr.chPut q)) hg)

theorem RoundTrip.chGet (f : Bin) : Statement (.chGet f) := fun w hw h =>
  have ⟨h1, h2, hg, hc⟩ := bin_word (m := 120) (x := 1) (Option.some.inj h) hw (by decide) (by decide)
  (decode_eq h1 h2).trans ((if_pos hc).trans (congrArg (fun q => Except.ok (Instr.chGet q)) hg))

theorem RoundTrip.chRed (f : Tri) : Statement (.chRed f) := fun w hw h =>
  have ⟨h1, h2, hg⟩ := tri_word (m := 120) (x := 2) (Option.some.inj h) hw (by decide) (by decide)
  (decode_eq h1 h2).trans (congrArg (fun q => Except.ok (Instr.chRed q)) hg)

theorem RoundTrip.chStat (f : Bin) : Statement (.chStat f) := fun w hw h =>
  have ⟨h1, h2, hg, hc⟩ := bin_word (m := 120) (x := 3) (Option.some.inj h) hw (by decide) (by decide)
  (decode_eq h1 h2).trans ((if_pos hc).trans (congrArg (fun q => Except.ok (Instr.chStat q)) hg))

theorem RoundTrip.splGrp (f : Bin) : Statement (.splGrp f) := fun w hw h =>
  have ⟨h1, h2, hg, hc⟩ := bin_word (m := 121) (x := 0) (Option.some.inj h) hw (by decide) (by decide)
  (decode_eq h1 h2).trans ((if_pos hc).trans (congrArg (fun q => Except.ok (Instr.splGrp q)) hg))

theorem RoundTrip.splRst (f : UnD) : Statement (.splRst f) := fun w hw h =>
  have ⟨h1, h2, hg, hc⟩ := und_word (m := 121) (x := 1) (Option.some.inj h) hw (by decide) (by decide)
  (decode_eq h1 h2).trans ((if_pos hc).trans (congrArg (fun q => Except.ok (Instr.splRst q)) hg))

theorem RoundTrip.splLdr (f : UnD) : Statement (.splLdr f) := fun w hw h =>
  have ⟨h1, h2, hg, hc⟩ := und_word (m := 121) (x := 2) (Option.some.inj h) hw (by decide) (by decide)
  (decode_eq h1 h2).trans ((if_pos hc).trans (congrArg (fun q => Except.ok (Instr.splLdr q)) hg))

theorem RoundTrip.splStat (f : Bin) : Statement (.splStat f) := fun w hw h =>
  have ⟨h1, h2, hg, hc⟩ := bin_word (m := 121) (x := 3) (Option.some.inj h) hw (by decide) (by decide)
  (decode_eq h1 h2).trans ((if_pos hc).trans (congrArg (fun q => Except.ok (Instr.splStat q)) hg))

theorem RoundTrip.ringSet (f : AB) : Statement (.ringSet f) := fun w hw h =>
  have ⟨h1, h2, hg, hc⟩ := ab_word (m := 122) (x := 0) (Option.some.inj h) hw (by decide) (by decide)
  (decode_eq h1 h2).trans ((if_pos hc).trans (congrArg (fun q => Except.ok (Instr.ringSet q)) hg))

theorem RoundTrip.ringNext (f : Bin) : Statement (.ringNext f) := fun w hw h =>
  have ⟨h1, h2, hg, hc⟩ := bin_word (m := 122) (x := 1) (Option.some.inj h) hw (by decide) (by decide)
  (decode_eq h1 h2).trans ((if_pos hc).trans (congrArg (fun q => Except.ok (Instr.ringNext q)) hg))

theorem RoundTrip.ringSkip (f : Bin) : Statement (.ringSkip f) := fun w hw h =>
  have ⟨h1, h2, hg, hc⟩ := bin_word (m := 122) (x := 2) (Option.some.inj h) hw (by decide) (by decide)
  (decode_eq h1 h2).trans ((if_pos hc).trans (congrArg (fun q => Except.ok (Instr.ringSkip q)) hg))

theorem RoundTrip.ringRd (f : Tri) : Statement (.ringRd f) := fun w hw h =>
  have ⟨h1, h2, hg⟩ := tri_word (m := 122) (x := 3) (Option.some.inj h) hw (by decide) (by decide)
  (decode_eq h1 h2).trans (congrArg (fun q => Except.ok (Instr.ringRd q)) hg)

theorem RoundTrip.anchor (f : Anchor) : Statement (.anchor f) := fun w hw h =>
  have ⟨h1, h2, hg, hc⟩ := anchor_word (m := 124) (x := 0) (Option.some.inj h) hw (by decide) (by decide)
  (decode_eq h1 h2).trans ((if_pos hc).trans (congrArg (fun q => Except.ok (Instr.anchor q)) hg))

theorem RoundTrip.mlatch (f : DImm) : Statement (.mlatch f) := fun w hw h =>
  have ⟨h1, h2, hg, hc⟩ := dimm_word (m := 124) (x := 1) (Option.some.inj h) hw (by decide) (by decide)
  (decode_eq h1 h2).trans ((if_pos hc).trans (congrArg (fun q => Except.ok (Instr.mlatch q)) hg))

theorem RoundTrip.slipchk (f : Bin) : Statement (.slipchk f) := fun w hw h =>
  have ⟨h1, h2, hg, hc⟩ := bin_word (m := 124) (x := 2) (Option.some.inj h) hw (by decide) (by decide)
  (decode_eq h1 h2).trans ((if_pos hc).trans (congrArg (fun q => Except.ok (Instr.slipchk q)) hg))

theorem RoundTrip.fcnt (f : Tri) : Statement (.fcnt f) := fun w hw h =>
  have ⟨h1, h2, hg⟩ := tri_word (m := 124) (x := 3) (Option.some.inj h) hw (by decide) (by decide)
  (decode_eq h1 h2).trans (congrArg (fun q => Except.ok (Instr.fcnt q)) hg)

theorem RoundTrip.seql (f : SeqlWr) : Statement (.seql f) := fun w hw h =>
  have ⟨h1, h2, hg, hc⟩ := seqlwr_word (m := 125) (x := 0) (Option.some.inj h) hw (by decide) (by decide)
  (decode_eq h1 h2).trans ((if_pos hc).trans (congrArg (fun q => Except.ok (Instr.seql q)) hg))

theorem RoundTrip.seqlRead (f : SeqlRd) : Statement (.seqlRead f) := fun w hw h =>
  have ⟨h1, h2, hg, hc⟩ := seqlrd_word (m := 125) (x := 0) (Option.some.inj h) hw (by decide) (by decide)
  (decode_eq h1 h2).trans (by
    show (if (fld w 2 6 == 0 && fld w 17 3 == 0) = true then _ else if (fld w 2 6 == 1 && fld w 11 3 == 0) = true then Except.ok (Instr.seqlRead (SeqlRd.get w)) else _) = _
    have hn : ¬ (fld w 2 6 == 0 && fld w 17 3 == 0) = true := by
      simp only [Bool.and_eq_true, beq_iff_eq] at hc ⊢; omega
    rw [if_neg hn, if_pos hc, hg])

theorem RoundTrip.bhalt (f : Nul) : Statement (.bhalt f) := fun w hw h =>
  have ⟨h1, h2, hg, hc⟩ := nul_word (m := 125) (x := 1) (Option.some.inj h) hw (by decide) (by decide)
  (decode_eq h1 h2).trans ((if_pos hc).trans (congrArg (fun q => Except.ok (Instr.bhalt q)) hg))

theorem RoundTrip.pause (f : Pause) : Statement (.pause f) := fun w hw h =>
  have ⟨h1, h2, hg, hc⟩ := pause_word (m := 125) (x := 2) (Option.some.inj h) hw (by decide) (by decide)
  (decode_eq h1 h2).trans ((if_pos hc).trans (congrArg (fun q => Except.ok (Instr.pause q)) hg))

theorem RoundTrip.bhdr (f : Bhdr) : Statement (.bhdr f) := fun w hw h =>
  have ⟨h1, h2, hg⟩ := bhdr_word (m := 125) (x := 3) (Option.some.inj h) hw (by decide) (by decide)
  (decode_eq h1 h2).trans (congrArg (fun q => Except.ok (Instr.bhdr q)) hg)

theorem RoundTrip.trap (f : TrapImm) : Statement (.trap f) := fun w hw h =>
  have ⟨h1, h2, hg, hc⟩ := trapimm_word (m := 126) (x := 0) (Option.some.inj h) hw (by decide) (by decide)
  (decode_eq h1 h2).trans ((if_pos hc).trans (congrArg (fun q => Except.ok (Instr.trap q)) hg))

theorem RoundTrip.sysrd (f : DImm) : Statement (.sysrd f) := fun w hw h =>
  have ⟨h1, h2, hg, hc⟩ := dimm_word (m := 126) (x := 1) (Option.some.inj h) hw (by decide) (by decide)
  (decode_eq h1 h2).trans ((if_pos hc).trans (congrArg (fun q => Except.ok (Instr.sysrd q)) hg))

theorem RoundTrip.syswr (f : AImm) : Statement (.syswr f) := fun w hw h =>
  have ⟨h1, h2, hg, hc⟩ := aimm_word (m := 126) (x := 2) (Option.some.inj h) hw (by decide) (by decide)
  (decode_eq h1 h2).trans ((if_pos hc).trans (congrArg (fun q => Except.ok (Instr.syswr q)) hg))

theorem RoundTrip.eret (f : Nul) : Statement (.eret f) := fun w hw h =>
  have ⟨h1, h2, hg, hc⟩ := nul_word (m := 126) (x := 3) (Option.some.inj h) hw (by decide) (by decide)
  (decode_eq h1 h2).trans ((if_pos hc).trans (congrArg (fun q => Except.ok (Instr.eret q)) hg))

theorem RoundTrip.ext (f : ExtImm) : Statement (.ext f) := fun w hw h =>
  have ⟨h1, hg, hc⟩ := extimm_word (m := 127) (Option.some.inj h) hw (by decide)
  (decode_major h1).trans ((if_pos hc).trans (congrArg (fun q => Except.ok (Instr.ext q)) hg))

end Sys2Proof.Laws
end

