-- ==== Sys2Proof/Tests/Slice0.lean ====
section
/-! SUPPORT. The model's own tests: well-formedness, decoding of the manual's words, states that meet the statements'
hypotheses, and single steps against values that the manual works out. -/

namespace Sys2Proof.Tests

set_option Elab.async false

open Sys2Proof.Machine

theorem test_wf_refuses_Tri : ∀ f ∈ ([⟨2, 0, 1, 2, 3⟩, ⟨0, 16, 1, 2, 3⟩, ⟨0, 0, 64, 2, 3⟩, ⟨0, 0, 1, 64, 3⟩, ⟨0, 0, 1, 2, 64⟩] : List Tri), (Instr.add f).wf = false := by decide
theorem test_wf_refuses_Bin : ∀ f ∈ ([⟨2, 0, 1, 2⟩, ⟨0, 16, 1, 2⟩, ⟨0, 0, 64, 2⟩, ⟨0, 0, 1, 64⟩] : List Bin), (Instr.clz f).wf = false := by decide
theorem test_wf_refuses_Imm8 : ∀ f ∈ ([⟨2, 0, 1, 2, 3⟩, ⟨0, 16, 1, 2, 3⟩, ⟨0, 0, 64, 2, 3⟩, ⟨0, 0, 1, 64, 3⟩, ⟨0, 0, 1, 2, 256⟩] : List Imm8), (Instr.addi f).wf = false := by decide
theorem test_wf_refuses_Wide : ∀ f ∈ ([⟨2, 0, 1, 2⟩, ⟨0, 16, 1, 2⟩, ⟨0, 0, 64, 2⟩, ⟨0, 0, 1, 16384⟩] : List Wide), (Instr.li f).wf = false := by decide
theorem test_wf_refuses_Imm6 : ∀ f ∈ ([⟨2, 0, 1, 2, 3⟩, ⟨0, 16, 1, 2, 3⟩, ⟨0, 0, 64, 2, 3⟩, ⟨0, 0, 1, 64, 3⟩, ⟨0, 0, 1, 2, 64⟩] : List Imm6), (Instr.ldW f).wf = false := by decide
theorem test_wf_refuses_Lea : ∀ f ∈ ([⟨2, 0, 1, 2, 3, 0⟩, ⟨0, 16, 1, 2, 3, 0⟩, ⟨0, 0, 64, 2, 3, 0⟩, ⟨0, 0, 1, 64, 3, 0⟩, ⟨0, 0, 1, 2, 64, 0⟩, ⟨0, 0, 1, 2, 3, 4⟩] : List Lea), (Instr.lea f).wf = false := by decide
theorem test_wf_refuses_Jump : ∀ f ∈ ([⟨2, 0, 1⟩, ⟨0, 16, 1⟩, ⟨0, 0, 1048576⟩] : List Jump), (Instr.br f).wf = false := by decide
theorem test_wf_refuses_UnA : ∀ f ∈ ([⟨2, 0, 1⟩, ⟨0, 16, 1⟩, ⟨0, 0, 64⟩] : List UnA), (Instr.jr f).wf = false := by decide
theorem test_wf_refuses_Loopk : ∀ f ∈ ([⟨2, 1, 2, 3⟩, ⟨0, 8, 2, 3⟩, ⟨0, 1, 64, 3⟩, ⟨0, 1, 2, 256⟩] : List Loopk), (Instr.loopk f).wf = false := by decide
theorem test_wf_refuses_Bare : ∀ f ∈ ([⟨2⟩] : List Bare), (Instr.loope f).wf = false := by decide
theorem test_wf_refuses_AImm : ∀ f ∈ ([⟨2, 0, 1, 2⟩, ⟨0, 16, 1, 2⟩, ⟨0, 0, 64, 2⟩, ⟨0, 0, 1, 64⟩] : List AImm), (Instr.sete f).wf = false := by decide
theorem test_wf_refuses_UnB : ∀ f ∈ ([⟨2, 0, 1⟩, ⟨0, 16, 1⟩, ⟨0, 0, 64⟩] : List UnB), (Instr.fenceAcq f).wf = false := by decide
theorem test_wf_refuses_Local : ∀ f ∈ ([⟨2, 0, 1, 2, 3, 0⟩, ⟨0, 16, 1, 2, 3, 0⟩, ⟨0, 0, 64, 2, 3, 0⟩, ⟨0, 0, 1, 64, 3, 0⟩, ⟨0, 0, 1, 2, 64, 0⟩, ⟨0, 0, 1, 2, 3, 4⟩] : List Local), (Instr.ldl f).wf = false := by decide
theorem test_wf_refuses_UnD : ∀ f ∈ ([⟨2, 0, 1⟩, ⟨0, 16, 1⟩, ⟨0, 0, 64⟩] : List UnD), (Instr.hself f).wf = false := by decide
theorem test_wf_refuses_AB : ∀ f ∈ ([⟨2, 0, 1, 2⟩, ⟨0, 16, 1, 2⟩, ⟨0, 0, 64, 2⟩, ⟨0, 0, 1, 64⟩] : List AB), (Instr.signal f).wf = false := by decide
theorem test_wf_refuses_Repf : ∀ f ∈ ([⟨2, 0, 1, 2, 3, 1⟩, ⟨0, 16, 1, 2, 3, 1⟩, ⟨0, 0, 8, 2, 3, 1⟩, ⟨0, 0, 1, 64, 3, 1⟩, ⟨0, 0, 1, 2, 16, 1⟩, ⟨0, 0, 1, 2, 3, 4⟩] : List Repf), (Instr.repf f).wf = false := by decide
theorem test_wf_refuses_Nul : ∀ f ∈ ([⟨2, 0⟩, ⟨0, 16⟩] : List Nul), (Instr.done f).wf = false := by decide
theorem test_wf_refuses_BinH2 : ∀ f ∈ ([⟨2, 0, 32, 33, 0⟩, ⟨0, 16, 32, 33, 0⟩, ⟨0, 0, 64, 33, 0⟩, ⟨0, 0, 32, 64, 0⟩, ⟨0, 0, 32, 33, 2⟩] : List BinH2), (Instr.ycvtF32Bf16 f).wf = false := by decide
theorem test_wf_refuses_BinH7 : ∀ f ∈ ([⟨2, 0, 32, 33, 0⟩, ⟨0, 16, 32, 33, 0⟩, ⟨0, 0, 64, 33, 0⟩, ⟨0, 0, 32, 64, 0⟩, ⟨0, 0, 32, 33, 2⟩] : List BinH7), (Instr.vcvtF32Bf16 f).wf = false := by decide
theorem test_wf_refuses_CvtHR : ∀ f ∈ ([⟨2, 0, 1, 2, 0, 0⟩, ⟨0, 16, 1, 2, 0, 0⟩, ⟨0, 0, 64, 2, 0, 0⟩, ⟨0, 0, 1, 64, 0, 0⟩, ⟨0, 0, 1, 2, 2, 0⟩, ⟨0, 0, 1, 2, 0, 8⟩] : List CvtHR), (Instr.vcvtBf16F32 f).wf = false := by decide
theorem test_wf_refuses_CvtR : ∀ f ∈ ([⟨2, 0, 1, 2, 0⟩, ⟨0, 16, 1, 2, 0⟩, ⟨0, 0, 64, 2, 0⟩, ⟨0, 0, 1, 64, 0⟩, ⟨0, 0, 1, 2, 8⟩] : List CvtR), (Instr.vcvtF32I32 f).wf = false := by decide
theorem test_wf_refuses_BinN : ∀ f ∈ ([⟨2, 0, 1, 2, 0⟩, ⟨0, 16, 1, 2, 0⟩, ⟨0, 0, 64, 2, 0⟩, ⟨0, 0, 1, 64, 0⟩, ⟨0, 0, 1, 2, 64⟩] : List BinN), (Instr.vrot f).wf = false := by decide
theorem test_wf_refuses_GuardN : ∀ f ∈ ([⟨2, 0, 1, 2, 0⟩, ⟨0, 16, 1, 2, 0⟩, ⟨0, 0, 16, 2, 0⟩, ⟨0, 0, 1, 64, 0⟩, ⟨0, 0, 1, 2, 64⟩] : List GuardN), (Instr.vmask f).wf = false := by decide
theorem test_wf_refuses_Mm : ∀ f ∈ ([⟨2, 0, 1, 2, 0, 0⟩, ⟨0, 16, 1, 2, 0, 0⟩, ⟨0, 0, 16, 2, 0, 0⟩, ⟨0, 0, 1, 64, 0, 0⟩, ⟨0, 0, 1, 2, 2, 0⟩, ⟨0, 0, 1, 2, 0, 8⟩] : List Mm), (Instr.mmB8 f).wf = false := by decide
theorem test_wf_refuses_BinN2 : ∀ f ∈ ([⟨2, 0, 1, 2, 0⟩, ⟨0, 16, 1, 2, 0⟩, ⟨0, 0, 64, 2, 0⟩, ⟨0, 0, 1, 64, 0⟩, ⟨0, 0, 1, 2, 2⟩] : List BinN2), (Instr.spsel f).wf = false := by decide
theorem test_wf_refuses_HandleD : ∀ f ∈ ([⟨2, 0, 1⟩, ⟨0, 16, 1⟩, ⟨0, 0, 16⟩] : List HandleD), (Instr.arel f).wf = false := by decide
theorem test_wf_refuses_HandleRd : ∀ f ∈ ([⟨2, 0, 1, 2, 3⟩, ⟨0, 16, 1, 2, 3⟩, ⟨0, 0, 64, 2, 3⟩, ⟨0, 0, 1, 16, 3⟩, ⟨0, 0, 1, 2, 64⟩] : List HandleRd), (Instr.ard f).wf = false := by decide
theorem test_wf_refuses_HandleAB : ∀ f ∈ ([⟨2, 0, 1, 2, 3⟩, ⟨0, 16, 1, 2, 3⟩, ⟨0, 0, 16, 2, 3⟩, ⟨0, 0, 1, 64, 3⟩, ⟨0, 0, 1, 2, 64⟩] : List HandleAB), (Instr.awr f).wf = false := by decide
theorem test_wf_refuses_OsmUpd : ∀ f ∈ ([⟨2, 0, 1, 2, 3⟩, ⟨0, 16, 1, 2, 3⟩, ⟨0, 0, 16, 2, 3⟩, ⟨0, 0, 1, 16, 3⟩, ⟨0, 0, 1, 2, 64⟩] : List OsmUpd), (Instr.osmUpd f).wf = false := by decide
theorem test_wf_refuses_OsmMrg : ∀ f ∈ ([⟨2, 0, 1, 2⟩, ⟨0, 16, 1, 2⟩, ⟨0, 0, 16, 2⟩, ⟨0, 0, 1, 16⟩] : List OsmMrg), (Instr.osmMrg f).wf = false := by decide
theorem test_wf_refuses_Lload : ∀ f ∈ ([⟨2, 0, 1, 2⟩, ⟨0, 16, 1, 2⟩, ⟨0, 0, 64, 2⟩, ⟨0, 0, 1, 8⟩] : List Lload), (Instr.lload f).wf = false := by decide
theorem test_wf_refuses_DB : ∀ f ∈ ([⟨2, 0, 1, 2⟩, ⟨0, 16, 1, 2⟩, ⟨0, 0, 64, 2⟩, ⟨0, 0, 1, 64⟩] : List DB), (Instr.winSig f).wf = false := by decide
theorem test_wf_refuses_BarWait : ∀ f ∈ ([⟨2, 0, 1, 0⟩, ⟨0, 16, 1, 0⟩, ⟨0, 0, 64, 0⟩, ⟨0, 0, 1, 2⟩] : List BarWait), (Instr.barWait f).wf = false := by decide
theorem test_wf_refuses_BarTest : ∀ f ∈ ([⟨2, 0, 1, 2, 0⟩, ⟨0, 16, 1, 2, 0⟩, ⟨0, 0, 64, 2, 0⟩, ⟨0, 0, 1, 64, 0⟩, ⟨0, 0, 1, 2, 2⟩] : List BarTest), (Instr.barTest f).wf = false := by decide
theorem test_wf_refuses_Anchor : ∀ f ∈ ([⟨2, 1⟩, ⟨0, 64⟩] : List Anchor), (Instr.anchor f).wf = false := by decide
theorem test_wf_refuses_DImm : ∀ f ∈ ([⟨2, 0, 1, 2⟩, ⟨0, 16, 1, 2⟩, ⟨0, 0, 64, 2⟩, ⟨0, 0, 1, 64⟩] : List DImm), (Instr.mlatch f).wf = false := by decide
theorem test_wf_refuses_SeqlWr : ∀ f ∈ ([⟨2, 0, 1, 2⟩, ⟨0, 16, 1, 2⟩, ⟨0, 0, 8, 2⟩, ⟨0, 0, 1, 64⟩] : List SeqlWr), (Instr.seql f).wf = false := by decide
theorem test_wf_refuses_SeqlRd : ∀ f ∈ ([⟨2, 0, 1, 2⟩, ⟨0, 16, 1, 2⟩, ⟨0, 0, 64, 2⟩, ⟨0, 0, 1, 8⟩] : List SeqlRd), (Instr.seqlRead f).wf = false := by decide
theorem test_wf_refuses_Pause : ∀ f ∈ ([⟨2, 1⟩, ⟨0, 262144⟩] : List Pause), (Instr.pause f).wf = false := by decide
theorem test_wf_refuses_Bhdr : ∀ f ∈ ([⟨2, 1, 0, 0, 0, 0, 0⟩, ⟨0, 256, 0, 0, 0, 0, 0⟩, ⟨0, 1, 4, 0, 0, 0, 0⟩, ⟨0, 1, 0, 4, 0, 0, 0⟩, ⟨0, 1, 0, 0, 2, 0, 0⟩, ⟨0, 1, 0, 0, 0, 2, 0⟩, ⟨0, 1, 0, 0, 0, 0, 256⟩] : List Bhdr), (Instr.bhdr f).wf = false := by decide
theorem test_wf_refuses_TrapImm : ∀ f ∈ ([⟨2, 0, 1⟩, ⟨0, 16, 1⟩, ⟨0, 0, 64⟩] : List TrapImm), (Instr.trap f).wf = false := by decide
theorem test_wf_refuses_ExtImm : ∀ f ∈ ([⟨16777216⟩] : List ExtImm), (Instr.ext f).wf = false := by decide
theorem test_wf_refuses_RemoteRequest : ∀ r ∈ ([⟨16, 0, 0, 0, 0, [], 0, 0⟩, ⟨0, 8, 0, 0, 0, [], 0, 0⟩, ⟨0, 0, 16777216, 0, 0, [], 0, 0⟩,
    ⟨0, 0, 0, 0, 1, [256], 0, 0⟩] : List RemoteRequest), (Instr.rmaIncomingRequest r).wf = false := by decide
theorem test_wf_refuses_Contribution : ∀ r ∈ ([⟨65536, 0, 2, 0, 0, false, 1, 0, []⟩, ⟨0, 4294967296, 2, 0, 0, false, 1, 0, []⟩,
    ⟨0, 0, 256, 0, 0, false, 1, 0, []⟩, ⟨0, 0, 2, 256, 0, false, 1, 0, []⟩, ⟨0, 0, 2, 0, 0, false, 1, 0, [4294967296]⟩] :
    List Contribution), (Instr.switchContribution r).wf = false := by decide
theorem test_wf_refuses_HostAccess : ∀ r ∈ ([⟨2, 0, 0, 1, 0, 0⟩, ⟨0, 5, 0, 1, 0, 0⟩, ⟨0, 0, 4503599627370496, 1, 0, 0⟩, ⟨0, 0, 0, 3, 0, 0⟩] :
    List HostAccess), (Instr.hostAccess r).wf = false := by decide
theorem test_wf_refuses_AlignedPort : ∀ p ∈ ([⟨144, 0, 400⟩, ⟨0, 131072, 400⟩] : List AlignedPort),
    (Instr.alignmentDone [] [] [p]).wf = false := by decide
theorem test_wf_refuses_frame_events : ∀ i ∈ ([.segmentReady 256, .blockRelease 4096, .anchorLate 256, .resultLanding 256,
    .matrixResultLanding 256, .latchLanding 256, .copyGranuleRequest 256 0, .frameSlotStart 12, .copyLanding 256 0, .eccRereadComplete 256 0 0,
    .channelEntryLanding 64 none, .lpassLanding 256, .winnowCopyLanding 256, .jigIteration 256,
    .mortiseOpen 64, .mortiseClose 64, .holdLatch 64, .frameLaunchSetup 127, .frameLaunchSetup 132] : List Instr), i.wf = false := by decide
theorem test_wf_refuses_weave_events : ∀ i ∈ ([.dispatchStep 2, .storeBufferDrain 1024, .weavePortAccess 256, .wfeWake 16384, .wfeTimeout 16384,
    .yieldResume 16384, .pipeStallResume 16384, .hjoinWake 16384, .gwaitWake 16384, .waitevWake 16384, .barWaitWake 16384, .ldsFillWake 16384,
    .watermarkStallResume 16384, .engineSlotFree 16384, .splPendingWake 16384, .rmaWaitWake 16384, .replayExecution 16384,
    .bteCopyPart 128 0, .bteCopyComplete 128 0, .illegalEncoding 16384, .fetchNonexec 16384, .roleHalt 0 8, .translationEviction 1153 0,
    .cacheLineEviction 1026 0] : List Instr), i.wf = false := by decide
theorem test_wf_refuses_fabric_events : ∀ i ∈ ([.rmaCompletion 0 256 [], .rmaCompletion 0 0 [256], .rmaSendMatch 16777216 0 [],
    .rmaSendMatch 0 (2 ^ 64) [], .rmaSendMatch 0 0 [256], .connectionContextFetch 16777216 true, .switchGroupTimeout 65536 0,
    .switchGroupTimeout 0 (2 ^ 32), .splResultArrival 64 0 0 [], .splResultArrival 0 65536 0 [], .splResultArrival 0 0 (2 ^ 32) [],
    .splResultArrival 0 0 0 [2 ^ 32], .collectiveOrder 64 0 0, .collectiveOrder 0 65536 0, .collectiveOrder 0 0 (2 ^ 32),
    .groupIncomplete 64 0 0, .groupIncomplete 0 65536 0, .groupIncomplete 0 0 (2 ^ 32), .contributionResend 64, .link 16777216,
    .connectionOpen 4096 0, .connectionOpen 0 16777216, .connectionClose 4096 0, .connectionClose 0 16777216, .linkReplay (64, 0),
    .portRetrain 144, .ueLinkRetrain 8] : List Instr), i.wf = false := by decide
theorem test_wf_refuses_host_events : ∀ i ∈ ([.shootdownRange 2 0 0 1, .shootdownRange 0 4096 0 1, .shootdownRange 0 0 4096 1,
    .shootdownRange 0 0 0 (2 ^ 32), .shootdownAsid 2 0 0, .shootdownAsid 0 4096 0, .shootdownAsid 0 0 4096, .shootdownAll 2 0,
    .shootdownAll 0 4096, .shootdownComplete 2, .eventCounterWrite 4096 0, .eventCounterWrite 0 (2 ^ 64), .queueDoorbell 132 0,
    .queueDoorbell 0 (2 ^ 32), .queueEnable 132 0, .queueEnable 0 (2 ^ 64), .queueArm 132 0, .queueArm 0 2048, .completionHeadWrite 132 0,
    .completionHeadWrite 0 (2 ^ 32), .preempt 132 0, .preempt 0 (2 ^ 60), .resume 132 0, .resume 0 (2 ^ 60), .destroy 132,
    .destroyForce 132, .completionEntryWrite 132, .interruptWindowClose 132, .companderTableWrite 16 0 0, .companderTableWrite 1 34 0,
    .companderTableWrite 1 0 (2 ^ 32), .pcapWrite (2 ^ 64), .frameClockRequest (2 ^ 64, none), .frameClockRequest (0, some 131072), .registerWrite (2 ^ 24) 0, .registerWrite 0 (2 ^ 64),
    .ebudgetUpdate 2, .alignGo 128 0, .alignGo 0 (2 ^ 32), .alignDissolve 128, .alignReadyNotice 131072 0 0 0,
    .alignReadyNotice 0 (2 ^ 32) 0 0, .alignReadyNotice 0 0 (2 ^ 32) 0, .alignReadyNotice 0 0 0 9223372036854775809, .holdNotice 0 0 144,
    .faultNotice 0 144, .preemptForward (2 ^ 64) 0 none, .preemptForward 0 (2 ^ 60) none, .alignmentDone [(131072, 0, 0)] [] [], .alignmentDone [(0, 128, 0)] [] [],
    .alignmentDone [(0, 0, 2 ^ 32)] [] []] :
    List Instr), i.wf = false := by decide
theorem test_wf_refuses_long_entry : (Instr.channelEntryLanding 0 (some (0, 2 ^ 1023 * 2))).wf = false := by decide +kernel

/-! ### Words of the manual's worked examples and what they decode to -/

theorem test_decode_scalar : decode 0x800C1400 = .ok (.add ⟨1, 0, 48, 20, 0⟩) ∧ decode 0x80057000 = .ok (.add ⟨1, 0, 21, 48, 0⟩) ∧
    decode 0x8000F0C0 = .ok (.add ⟨1, 0, 3, 48, 48⟩) ∧ decode 0x08020801 = .ok (.addi ⟨0, 0, 8, 8, 1⟩) ∧
    decode 0x8892080A = .ok (.addi ⟨1, 9, 8, 8, 10⟩) ∧ decode 0x91018003 = .ok (.li ⟨1, 0, 6, 3⟩) ∧
    decode 0x92024567 = .ok (.lih ⟨1, 0, 9, 0x0567⟩) ∧ decode 0x7F000007 = .ok (.ext ⟨7⟩) ∧
    decode 0x24000000 = .ok (.loope ⟨0⟩) := ⟨rfl, rfl, rfl, rfl, rfl, rfl, rfl, rfl, rfl⟩
theorem test_decode_weave_memory : decode 0xA801460A = .ok (.ldW ⟨1, 0, 5, 6, 2⟩) ∧ decode 0xAA01C2FB = .ok (.stD ⟨1, 0, 7, 2, 62⟩) ∧
    decode 0xAC01460B = .ok (.ldseD ⟨1, 0, 5, 6, 2⟩) ∧ decode 0xAF01461D = .ok (.acas ⟨1, 0, 5, 6, 7⟩) ∧
    decode 0xB0000011 = .ok (.fenceRel ⟨1, 0, 4⟩) := ⟨rfl, rfl, rfl, rfl, rfl⟩
theorem test_decode_weave_control : decode 0xB801461C = .ok (.hstart ⟨1, 0, 5, 6, 7⟩) ∧ decode 0xBB004604 = .ok (.repf ⟨1, 0, 1, 6, 0, 1⟩) ∧
    decode 0xBD001961 = .ok (.tenonW ⟨1, 0, 25, 24⟩) := ⟨rfl, rfl, rfl⟩
theorem test_decode_weave_vector : decode 0xC008A18E = .ok (.ymulF32 ⟨1, 0, 34, 33, 35⟩) ∧
    decode 0xC0086188 = .ok (.yaddF32 ⟨1, 0, 33, 33, 34⟩) := ⟨rfl, rfl⟩
theorem test_decode_frame_vector : decode 0xE7008502 = .ok (.vsplat ⟨1, 0, 2, 5⟩) ∧ decode 0x5000420C = .ok (.vaddF32 ⟨0, 0, 1, 2, 3⟩) :=
  ⟨rfl, rfl⟩
theorem test_decode_matrix_winnow : decode 0x6881CD9F = .ok (.mmBf16 ⟨0, 8, 7, 13, 1, 7⟩) ∧ decode 0x6B100134 = .ok (.osmUpd ⟨0, 1, 0, 1, 13⟩) ∧
    decode 0xF0008505 = .ok (.winCmp ⟨1, 0, 2, 5, 1⟩) ∧ decode 0xF002070D = .ok (.winCmp ⟨1, 0, 8, 7, 3⟩) := ⟨rfl, rfl, rfl, rfl⟩
theorem test_decode_engines : decode 0xF4008900 = .ok (.cpyBox ⟨1, 0, 2, 9⟩) ∧ decode 0xF5000518 = .ok (.barInit ⟨1, 0, 5, 6⟩) ∧
    decode 0xF5014503 = .ok (.barTest ⟨1, 0, 5, 5, 0⟩) ∧ decode 0xF5201702 = .ok (.barWait ⟨1, 2, 23, 0⟩) ∧
    decode 0xF6000001 = .ok (.jigGo ⟨1, 0⟩) ∧ decode 0xF9014002 = .ok (.splLdr ⟨1, 0, 5⟩) ∧ decode 0xF9014503 = .ok (.splStat ⟨1, 0, 5, 5⟩) :=
  ⟨rfl, rfl, rfl, rfl, rfl, rfl, rfl⟩
theorem test_decode_frame_control : decode 0xFC0000A0 = .ok (.anchor ⟨1, 40⟩) ∧ decode 0x7D18A003 = .ok (.bhdr ⟨0, 0x18, 2, 2, 0, 0, 0⟩) ∧
    decode 0x7D010003 = .ok (.bhdr ⟨0, 1, 0, 0, 0, 0, 0⟩) ∧ decode 0x7D800003 = .ok (.bhdr ⟨0, 0x80, 0, 0, 0, 0, 0⟩) := ⟨rfl, rfl, rfl, rfl⟩

/-! ### States and checks for witnesses -/

/-- Whether a run gives a value. -/
def okay {ε α : Type} : Except ε α → Bool
  | .ok _ => true
  | .error _ => false

/-- What a step leaves, where it goes on. -/
def after {α : Type} (r : Answer) (f : State → α) : Option α :=
  match r with
  | .next t => some (f t)
  | _ => none
/-- `CtxReady`, decided. -/
def ctxOk (s : State) (c maj x g d a b : Nat) : Bool :=
  decide (s.ctl.cur = .ctx c) && (s.ctx? c).isSome && legalW maj x d a b && (s.ctx c).guard g &&
    (!s.ctl.ext.isSome || takesExt maj x) && immOk s.ctl.ext maj x b &&
    (match sigW maj x with
      | some sg => okay (s.gate c (srcFields sg d a b) (dstFields sg d))
      | none => false)
/-- `SlotReady`, decided. -/
def slotOk (s : State) (b : Nat) (sl : SlotName) (maj x g d a bb : Nat) : Bool :=
  decide (s.ctl.cur = .slot b sl) && legalF maj x d a bb && slotTakes sl maj x && (s.bench b).rg g &&
    (!s.ctl.ext.isSome || takesExt maj x) && immOk s.ctl.ext maj x bb

/-- Context 0 executes at 0x1000, from a state with the reset values. -/
def atCtx (x : Ctx) : State :=
  let s := State.reset.setCtx 0 x
  { s with ctl := { s.ctl with cur := .ctx 0, group := 0x1000, syl := 0x1000 } }
/-- A slot of bench 0 executes in the bundle at 0x1000. -/
def atSlot (sl : SlotName) (k : Bench) : State :=
  let s := State.reset.setBench 0 k
  { s with ctl := { s.ctl with cur := .slot 0 sl, group := 0x1000, syl := 0x1004, link := 0x1008 } }
/-- The same state with EXT `n` before the syllable. -/
def withExt (s : State) (n : Nat) : State := { s with ctl := { s.ctl with ext := some n } }
/-- The same state with the first 1 GiB mapped to itself in core 0's TLB and in its cluster's. -/
def mapped (s : State) : State :=
  (s.modCore 0 (fun k => { k with tlb := [⟨0, identityLeaf⟩] })).modCluster 0 (fun k => { k with tlb := [⟨0, identityLeaf⟩] })

/-- The least or the greatest code that a kind of field takes. -/
def bound (hi : Bool) : FK → Nat
  | .z => 0
  | .x => if hi then 31 else 0
  | .xo => if hi then 31 else 0
  | .q => if hi then 55 else 48
  | .y => if hi then 47 else 32
  | .p => if hi then 7 else 0
  | .a => if hi then 31 else 0
  | .v => if hi then 63 else 0
  | .g => if hi then 15 else 0
  | .g2 => if hi then 14 else 2
  | .h => if hi then 15 else 0
  | .n m => if hi then m else 0
  | .any => if hi then 63 else 0
/-- The third field, where it holds an immediate that the form limits. -/
def boundImm (hi : Bool) (k : FK) (maj x : Nat) : Nat :=
  match k with
  | .any =>
    if maj = 0x7E then (if x = 3 then 0 else if hi then 18 else 0)
    else if maj = 0x7C then (if x = 2 then 0 else if hi then 63 else 1)
    else if maj = 0x5C then (if hi then 32 else 0)
    else if maj = 0x5D then (if x < 2 then (if hi then 4 else 0) else if hi then 32 else 0)
    else if maj = 0x18 then 0
    else bound hi .any
  | k => bound hi k

/-- A form's fields at a bound are ready in the state. -/
def formW (s : State) (hi : Bool) (r : Nat × Nat) : Bool :=
  match sigW r.1 r.2 with
  | some g => ctxOk s 0 r.1 r.2 (if hi then 15 else 0) (bound hi g.d) (bound hi g.a) (boundImm hi g.b r.1 r.2)
  | none => false
def formF (s : State) (sl : SlotName) (hi : Bool) (r : Nat × Nat) : Bool :=
  match sigF r.1 r.2 with
  | some g => slotOk s 0 sl r.1 r.2 (if hi then 15 else 0) (bound hi g.d) (bound hi g.a) (boundImm hi g.b r.1 r.2)
  | none => false

/-- The four minors of the majors from `lo` up to `hi`. -/
def minors (lo n : Nat) : List (Nat × Nat) := (List.range n).flatMap (fun i => (List.range 4).map (fun x => (lo + i, x)))

/-! ### Ready forms -/

theorem okay_spec {ε α : Type} {r : Except ε α} (h : okay r = true) : ∃ v, r = .ok v := by
  cases r with
  | ok v => exact ⟨v, rfl⟩
  | error e => simp [okay] at h

theorem ready {s : State} {c maj x g d a b : Nat} (h : ctxOk s c maj x g d a b = true) : s.CtxReady c maj x g d a b := by
  simp only [ctxOk, Bool.and_eq_true, Bool.or_eq_true, Bool.not_eq_true', decide_eq_true_eq] at h
  obtain ⟨⟨⟨⟨⟨⟨h1, h2⟩, h3⟩, h4⟩, h5⟩, h6⟩, h7⟩ := h
  refine ⟨h1, h2, h3, h4, fun e => ?_, h6, ?_⟩
  · rcases h5 with h5 | h5
    · rw [h5] at e; cases e
    · exact h5
  · cases hs : sigW maj x with
    | none => rw [hs] at h7; cases h7
    | some sg =>
      rw [hs] at h7
      obtain ⟨_, hv⟩ := okay_spec h7
      exact ⟨sg, hs, hv⟩

theorem slotReady {s : State} {b : Nat} {sl : SlotName} {maj x g d a bb : Nat} (h : slotOk s b sl maj x g d a bb = true) :
    s.SlotReady b sl maj x g d a bb := by
  simp only [slotOk, Bool.and_eq_true, Bool.or_eq_true, Bool.not_eq_true', decide_eq_true_eq] at h
  obtain ⟨⟨⟨⟨⟨h1, h2⟩, h3⟩, h4⟩, h5⟩, h6⟩ := h
  refine ⟨h1, h2, h3, h4, fun e => ?_, h6⟩
  rcases h5 with h5 | h5
  · rw [h5] at e; cases e
  · exact h5

/-! ### Witnesses: forms at the least and at the greatest codes of their fields, under guard 0 and under guard 15 -/

/-- A bench whose guard 15 reads true. -/
def guarded : Bench := { Bench.zero with g := 0x8000 }

theorem witness_ScalarThreeRegister : ∀ hi, ∀ r ∈ minors 0x00 7 ++ minors 0x17 1,
    formW (atCtx Ctx.zero) hi r = true ∧ formF (atSlot .a0 guarded) .a0 hi r = true := by decide +kernel
theorem witness_ScalarImmediate : (∀ hi, ∀ r ∈ minors 0x07 1 ++ (List.range 9).map (fun i => (8 + i, 0)) ++ [(0x11, 0), (0x12, 0)],
    formW (atCtx Ctx.zero) hi r = true ∧ formF (atSlot .a1 guarded) .a1 hi r = true) ∧
    (∀ hi, ∀ r ∈ [(8, 0), (9, 0), (0x10, 0), (0x11, 0), (0x12, 0)], formW (withExt (atCtx Ctx.zero) 0x3FFFF) hi r = true ∧
      formF (withExt (atSlot .a1 guarded) 0x3FFFF) .a1 hi r = true) ∧
    (∀ hi, ∀ x ∈ [0, 1], formW (withExt (atCtx Ctx.zero) 63) hi (0x18, x) = true ∧
      formF (withExt (atSlot .a0 guarded) 63) .a0 hi (0x18, x) = true) := by decide +kernel
theorem witness_PredicatesAndGuards : (∀ hi, ∀ r ∈ minors 0x13 3 ++ [(0x16, 0)],
    formW (atCtx Ctx.zero) hi r = true ∧ formF (atSlot .a0 guarded) .a0 hi r = true) ∧
    ctxOk (atCtx { Ctx.zero with ps := 0xFF }) 0 0x15 0 7 7 7 0 = true := by decide +kernel
theorem witness_WeaveVectorForms : ∀ hi, ∀ r ∈ minors 0x40 8, formW (atCtx Ctx.zero) hi r = true ∧
    formW (atCtx { Ctx.zero with status := 0x10 }) hi r = true := by decide +kernel
theorem witness_FrameVectorFloat : ∀ hi, ∀ r ∈ minors 0x50 6, formF (atSlot .v0 guarded) .v0 hi r = true := by decide +kernel
theorem witness_FrameVectorInteger : ∀ hi, ∀ r ∈ minors 0x56 6, formF (atSlot .v1 guarded) .v1 hi r = true := by decide +kernel
theorem witness_PackedDotProducts : ∀ hi, ∀ r ∈ minors 0x6D 1, formF (atSlot .m guarded) .m hi r = true := by decide +kernel

/-! ### Witnesses: control of both planes -/

/-- Bench 0 with four syllables at 0x1000, the first and third of them headers; a31 holds the address of the third. -/
def coded : Bench :=
  { guarded with halves := [(0, ⟨0xFD8, 0x1000, 4, [15], [0x7D010003, 0x88000000, 0x7D010003, 0x88000000], 0, 0, true⟩)]
                 a := [(31, 0x1008)] }
/-- Whether a transfer of the bench may go to an address (R74). -/
def targetOk (k : Bench) (t : Nat) : Bool :=
  match (tget k.halves k.half).bind (fun h => h.at_ t) with
  | some (w, e) => e && isBhdr w
  | none => false

theorem witness_ControlTransfers : (∀ hi, ∀ r ∈ [(0x20, 0), (0x21, 0), (0x22, 0), (0x22, 1), (0x22, 2)],
      ctxOk (atCtx Ctx.zero) 0 r.1 r.2 0 0 (if hi && r.1 == 0x22 then 31 else 0) 0 = true) ∧
    (∀ r ∈ [(0x20, 0), (0x21, 0)], slotOk (atSlot .a0 coded) 0 .a0 r.1 r.2 15 0 0 0 = true) ∧
    (∀ i ∈ [0xFFFFF, 1], targetOk coded (BitVec.ofNat 64 0x1004 + 4 * (atSlot .a0 coded).immS 20 i).toNat = true) ∧
    (∀ r ∈ [(0, 0), (1, 31), (2, 0)], slotOk (atSlot .a0 coded) 0 .a0 0x22 r.1 15 r.2 31 0 = true) ∧
    targetOk coded ((coded.ra 31).toNat / 4 * 4) = true := by and_intros <;> decide +kernel

/-- The kernel of bench 0 is open, at the given trip. -/
def kernelAt (niter nstg trip : Nat) : Bench :=
  { coded with ktop := 0x1008, kctl := BitVec.ofNat 64 (2 ^ 63 + nstg * 2 ^ 37 + niter), ktrip := BitVec.ofNat 64 trip }
/-- A pause of anchor number `n` on a bench, with PAUSEBND 1. -/
def pausing (k : Bench) : State :=
  { atSlot .c k with frame := { (atSlot .c k).frame with pausebnd := 1 } }
/-- Nothing of the bench is in flight. -/
def quiet (s : State) : Bool :=
  let k := s.bench 0
  k.pend.all (fun e => decide (e.at_ ≤ k.tick)) && s.frame.lpass.all (fun e => decide (e.1 ≠ 1)) && decide (k.jig.state ≠ .run) &&
    s.copiesOf 0 == 0 && !s.putting 0

theorem witness_KernelsAndFrameControl :
    (slotOk (atSlot .a0 { coded with a := [(31, 0xFFFFFFFF)] }) 0 .a0 0x23 0 0 7 31 255 = true ∧
      (({ coded with a := [(31, 0xFFFFFFFF)] }).ra 31).toNat % 2 ^ 32 ≠ 0) ∧
    (slotOk (atSlot .a0 { coded with a := [(31, 0x100000000)] }) 0 .a0 0x23 0 0 7 31 1 = true ∧
      (({ coded with a := [(31, 0x100000000)] }).ra 31).toNat % 2 ^ 32 = 0 ∧ targetOk coded (0x1004 + 4 * 1) = true) ∧
    (slotOk (atSlot .a0 (kernelAt 2 1 1)) 0 .a0 0x24 0 0 0 0 0 = true ∧ bitOf (kernelAt 2 1 1).kctl.toNat 63 = true ∧
      (1 + 1) % 2 ^ 33 < 2 + 1 ∧ targetOk (kernelAt 2 1 1) (kernelAt 2 1 1).ktop.toNat = true) ∧
    (slotOk (atSlot .a0 (kernelAt 2 1 2)) 0 .a0 0x24 0 0 0 0 0 = true ∧ bitOf (kernelAt 2 1 2).kctl.toNat 63 = true ∧ 2 + 1 ≤ (2 + 1) % 2 ^ 33) ∧
    (slotOk (atSlot .a0 coded) 0 .a0 0x24 0 0 0 0 0 = true ∧ bitOf coded.kctl.toNat 63 = false) ∧
    (∀ i ∈ [1, 63], slotOk (atSlot .c guarded) 0 .c 0x7C 0 0 0 0 i = true) ∧
    (∀ i ∈ [0, 63], slotOk (atSlot .c guarded) 0 .c 0x7C 1 15 15 0 i = true) ∧ slotOk (atSlot .c guarded) 0 .c 0x7C 2 15 31 31 0 = true ∧
    (∀ p ∈ [(0, 0), (0, 3), (0, 4), (31, 4), (31, 0), (31, 3)], slotOk (atSlot .c guarded) 0 .c 0x7C 3 15 31 p.1 p.2 = true) ∧
    slotOk (atSlot .c guarded) 0 .c 0x7D 0 15 7 31 0 = true ∧ slotOk (atSlot .c guarded) 0 .c 0x7D 0 15 31 7 1 = true ∧
    slotOk (atSlot .c guarded) 0 .c 0x7D 1 15 0 0 0 = true ∧
    (slotOk (pausing guarded) 0 .c 0x7D 2 0 (1 / 4096) (1 / 64 % 64) (1 % 64) = true ∧ quiet (pausing guarded) = true ∧ (0 : Nat) + 1 ≤ 0 + 1) ∧
    (slotOk (pausing guarded) 0 .c 0x7D 2 0 (262143 / 4096) (262143 / 64 % 64) (262143 % 64) = true ∧ (0 : Nat) + 1 < 0 + 262143) ∧
    (slotOk (pausing { guarded with pend := [⟨1, 0, .swap⟩] }) 0 .c 0x7D 2 0 0 0 1 = true ∧
      quiet (pausing { guarded with pend := [⟨1, 0, .swap⟩] }) = false) ∧
    (∀ h ∈ ([⟨0, 255, 2, 2, 1, 1, 255⟩, ⟨1, 0, 0, 0, 0, 0, 0⟩] : List Bhdr), h.w < 3 ∧ h.v < 3 ∧ (h.p.testBit 4 = false → h.w = 0) ∧
      (h.p.testBit 3 = false → h.v = 0) ∧ (∀ i, i < 8 → h.x.testBit i = true → h.p.testBit i = true) ∧ (h.k = 1 → h.n ≠ 0) ∧
      (h.s = 1 ↔ h.p = 0)) := by and_intros <;> decide +kernel

/-- Context 0 with 1 in x1, 0x7FF in x2 and the EVPEND given, which has waited since the tick given; the tick is 100. -/
def waiting (ev : Nat) (since : Option Nat) : State :=
  let s := atCtx { Ctx.zero with xs := [(1, 1), (2, 0x7FF), (3, 100)], evpend := BitVec.ofNat 64 ev, since := since }
  { s with ctl := { s.ctl with now := 100 } }

theorem witness_WaitsAndEndings :
    (ctxOk (waiting 0x400 none) 0 0x25 0 15 31 2 0 = true ∧ ((waiting 0x400 none).ctx 0).evpend &&& 0x7FF ≠ 0) ∧
    ctxOk (waiting 0 none) 0 0x25 0 0 31 0 0 = true ∧
    (ctxOk (waiting 0 (some 0)) 0 0x25 0 0 31 2 3 = true ∧ (100 : W64).toNat ≤ (waiting 0 (some 0)).waited 0) ∧
    (ctxOk (waiting 0 (some 1)) 0 0x25 0 0 31 2 3 = true ∧ (waiting 0 (some 1)).waited 0 < (100 : W64).toNat) ∧
    ctxOk (waiting 0 none) 0 0x3C 0 0 0 0 0 = true ∧ ctxOk (waiting 0 none) 0 0x3C 1 0 0 3 1 = true ∧
    (ctxOk (waiting 0 none) 0 0x3C 2 0 0 0 0 = true ∧ (((List.range 11).map (fun i => 16 * coreOf 0 + i)).filter
      (fun d => d ≠ 0 && (waiting 0 none).ready d)) = []) ∧
    (ctxOk ((waiting 0 none).setCtx 10 Ctx.zero) 0 0x3C 2 0 0 0 0 = true ∧ (((List.range 11).map (fun i => 16 * coreOf 0 + i)).filter
      (fun d => d ≠ 0 && ((waiting 0 none).setCtx 10 Ctx.zero).ready d)) = [10]) ∧
    (ctxOk (waiting 0 none) 0 0x3C 3 0 31 2 0 = true ∧ (0 : W64).toNat ≤ ((waiting 0 none).evctr (0x7FF % 4096)).toNat) ∧
    (ctxOk (waiting 0 none) 0 0x3C 3 0 31 2 1 = true ∧ ((waiting 0 none).evctr (0x7FF % 4096)).toNat < (1 : W64).toNat) := by
  and_intros <;> decide +kernel

/-! ### Witnesses: memory of the weave plane -/

/-- A launch of one gang of whole clusters with a trap handler at 0x2000, and its gang, whose role 0 consumes pipe 0 at q0 and produces
it at q1. -/
def demoLaunch : Launch :=
  { queue := 0, index := 5, asid := 0, tvec := 0x2000, ngang := 1, dies := 3, prio := 0, ecls := 0, det := false, tsq := false, fl1 := false
    clx := true, desc := ⟨[0x1000], [10], []⟩, waitval := 0, wctr := 0, sctr := 0, siginc := 0, seed := 0, ltag := 0, args := [], state := .running
    readyAt := 0, age := 0, undeferred := [], placed := [0], ended := [], save := none, savedGangs := [], opened := [], jumps := [], faults := [] }
def demoPipe : Pipe := ⟨[.value 7, .value 8], 8, 0, 1, 0, 0, false, false⟩
def demoGang : Gang := ⟨1, 0, 0, [0], [demoPipe], [], [], false⟩
/-- Context 0 in the gang, with the first 1 GiB mapped. -/
def ganged (x : Ctx) : State :=
  let s := mapped (atCtx { x with gang := 1 })
  { s with weave := { s.weave with gangs := [(1, demoGang)], launches := [(1, demoLaunch)], nextId := 10 } }
/-- x5 holds 0x4000 and x31 the last 64 bytes of the first 1 GiB. -/
def pointers : Ctx := { Ctx.zero with xs := [(5, 0x4000), (6, 0x4004), (7, 0x7FC0), (31, 0x3FFFFFC0)] }
/-- The address that a form of size `n` gives, with base `a` and immediate `i`. -/
def at_ (s : State) (a i n : Nat) : Nat := ((s.ctx 0).x a + s.immS 6 i * BitVec.ofNat 64 n).toNat
/-- A granted access: it has parts, and nothing at tensor SRAM holds it up. -/
def granted (r : Run (List Part × State)) : Bool :=
  match r with
  | .ok (p :: ps, s) => okay (s.sramGate 0 (p :: ps))
  | _ => false

theorem witness_LoadsAndStores : let s := ganged pointers
    (∀ r ∈ [(0x28, 0, 1), (0x28, 1, 2), (0x28, 2, 4), (0x28, 3, 8), (0x29, 0, 1), (0x29, 1, 2), (0x29, 2, 4)], ∀ a ∈ [(5, 0), (5, 32), (31, 7)],
      ctxOk s 0 r.1 r.2.1 15 31 a.1 a.2 = true ∧ okay (s.load 0 (at_ s a.1 a.2 r.2.2) r.2.2 .read) = true) ∧
    (∀ r ∈ [(0, 32), (2, 4)], ∀ a ∈ [(5, 0), (5, 32), (31, 1)],
      ctxOk s 0 0x2B r.1 15 47 a.1 a.2 = true ∧ okay (s.load 0 (at_ s a.1 a.2 r.2) r.2 .read) = true) ∧
    (∀ r ∈ [(0, 1), (1, 2), (2, 4), (3, 8)], ∀ a ∈ [(5, 0), (5, 32), (31, 7)], ctxOk s 0 0x2A r.1 15 31 a.1 a.2 = true ∧
      okay (s.checkAccess 0 (at_ s a.1 a.2 r.2) r.2 .write) = true ∧ okay (s.store 0 (at_ s a.1 a.2 r.2) (leBytes r.2 7)) = true) ∧
    (ctxOk s 0 0x2B 1 15 47 31 1 = true ∧ okay (s.checkAccess 0 (at_ s 31 1 32) 32 .write) = true ∧
      okay (s.store 0 (at_ s 31 1 32) (leBytes 32 7)) = true) := by and_intros <;> decide +kernel

theorem witness_WhatLoadsGiveAndStoresBuffer : let s := ganged pointers
    ∀ n ∈ [1, 64], canonical 0x4000 = true ∧ 0x4000 + n ≤ 2 ^ 56 ∧
      tlbFind (s.core (coreOf 0)).tlb (s.ctx 0).asid.toNat (0x4000 % 2 ^ 57) = some identityLeaf ∧
      identityLeaf.allows .read (!(s.ctx 0).priv) = true ∧ identityLeaf.allows .write (!(s.ctx 0).priv) = true ∧
      0x4000 % 4096 + n ≤ 4096 ∧ identityLeaf.phys 0x4000 % 64 + n ≤ 64 ∧ identityLeaf.phys 0x4000 + n ≤ hbmEnd ∧
      homeDie (identityLeaf.phys 0x4000) = dieOfCluster (clusterOfCore (coreOf 0)) ∧
      newestOverlap 0 false (identityLeaf.phys 0x4000) n 0 (s.core (coreOf 0)).sb = none ∧ s.frame.flagEcc = [] ∧
      isSram (identityLeaf.phys 0x4000) = false := by decide +kernel

theorem witness_AtomicsAndFullEmpty : let s := ganged pointers
    let e : State := { s with mem := s.mem.setEmpty 0x4000 16 }
    (∀ r ∈ [(0x2E, 0, 0), (0x2E, 1, 1), (0x2E, 2, 2), (0x2E, 3, 3), (0x2F, 0, 4), (0x2F, 1, 5), (0x2F, 2, 6), (0x2F, 3, 7)], ∀ a ∈ [5, 31],
      ctxOk s 0 r.1 r.2.1 15 31 a 31 = true ∧ granted (s.checkAtomic 0 (at_ s a 0 8) r.2.2) = true) ∧
    (∀ r ∈ [(0, 4), (1, 8), (2, 4), (3, 8)], ∀ t ∈ [s, e], ctxOk t 0 0x2C r.1 0 31 5 0 = true ∧
      granted (t.checkFullEmpty 0 (at_ t 5 0 r.2) (at_ t 5 0 r.2) r.2 r.2 .read) = true) ∧
    (∀ n ∈ [4, 8], s.allFull [⟨0x4000, n, identityLeaf⟩] = true ∧ e.allFull [⟨0x4000, n, identityLeaf⟩] = false) ∧
    (∀ r ∈ [(0, 4), (1, 8)], ctxOk e 0 0x2D r.1 0 31 5 7 = true ∧
      granted (e.checkFullEmpty 0 (at_ e 5 7 r.2) (at_ e 5 7 r.2) r.2 r.2 .write) = true) ∧
    (ctxOk s 0 0x2D 2 0 0 5 63 = true ∧
      granted (s.checkFullEmpty 0 (at_ s 5 63 64) (at_ s 5 63 64 / 64 * 64) 64 64 .write) = true) := by and_intros <;> decide +kernel

theorem witness_WeaveFencesAndCache : let s := ganged pointers
    (∀ x ∈ [0, 1, 2, 3], ∀ b ∈ [0, 5], ctxOk s 0 0x30 x 15 0 0 b = true) ∧
    (∀ x ∈ [0, 1], ∀ d ∈ [0, 5], ctxOk s 0 0x31 x 15 d 5 32 = true ∧ okay (s.checkAccess 0 (at_ s 5 32 64 / 64 * 64) 64 .both) = true) ∧
    (∀ d ∈ [0, 1], ctxOk s 0 0x31 2 15 d 5 63 = true) := by and_intros <;> decide +kernel

/-- Context 0 with no translation at hand and an uncorrectable error at the address given. -/
def erring (pa : Nat) (tlb : Bool) : State :=
  let t := ganged pointers
  let s := { t with host := { t.host with asidtb := 0x100000 }, frame := { t.frame with flagEcc := [(pa, 1, 0)] }
                    mem := t.mem.rawPut 0x100000 (leBytes 8 (2 ^ 63 + 0x101000)) }
  if tlb then s else { s with weave := { s.weave with cores := [], clusters := [] } }
theorem witness_WeaveFencesAndCache_errors :
    (ctxOk (erring 0x4000 true) 0 0x31 2 15 0 5 0 = true ∧ canonical (at_ (erring 0x4000 true) 5 0 64) = true ∧
      (erring 0x4000 true).missError 0 0 0x4000 = none ∧ (match (erring 0x4000 true).translate 0 0 0x4000 with
        | some (lf, t) => lf.allows .read true && !lf.uncached && t.eccBad (lf.phys 0x4000) 64
        | none => false) = true) ∧
    (ctxOk (erring 0x101000 false) 0 0x31 2 15 0 5 0 = true ∧ ((erring 0x101000 false).missError 0 0 0x4000).isSome = true) := by
  and_intros <;> decide +kernel

/-- The mapped pages typed BF16 with no scale blocks. -/
def typedPages (s : State) : State :=
  s.modCore 0 (fun k => { k with tlb := [⟨0, { identityLeaf with typed := true, fmt := 0x12, geo := 3 }⟩] })

theorem witness_LocalMemoryAndDecodingLoad : let s := ganged { pointers with xs := [(1, 0x1FFF8), (2, 0xFFFF8), (5, 0x4000)] }
    (∀ r ∈ [(0x32, 4), (0x33, 4), (0x34, 8), (0x35, 8)], ∀ m ∈ [(0, 1), (1, 2), (3, 2)],
      ctxOk s 0 r.1 m.1 15 31 m.2 0 = true ∧ at_ s m.2 0 r.2 < (if m.1 = 0 then 2 ^ 17 else 2 ^ 20) ∧ at_ s m.2 0 r.2 % r.2 = 0 ∧
      (m.1 = 0 ∨ s.clx (s.ctx 0) = true) ∧ okay (s.localStall 0 (localParts 0 m.1 0 (at_ s m.2 0 r.2) r.2)) = true ∧
      okay (s.loadLocal 0 (localParts 0 m.1 0 (at_ s m.2 0 r.2) r.2)) = true) ∧
    (s.ctx 0).wait = none ∧ (s.ctx 0).elems = none ∧
    (ctxOk (typedPages s) 0 0x2B 3 15 47 5 63 = true ∧ (match (typedPages s).ldyfPart 0 (at_ s 5 63 4) with
      | .ok (p, t) => p.leaf.typed && p.leaf.geo == 3 && okay (t.sramGate 0 [p]) && okay (t.loadWhole 0 p)
      | _ => false) = true) ∧
    (ctxOk s 0 0x2B 3 15 47 5 1 = true ∧ (match s.ldyfPart 0 (at_ s 5 1 4) with
      | .ok (p, _) => !p.leaf.typed && okay (s.load 0 (at_ s 5 1 4 / 32 * 32) 32 .read)
      | _ => false) = true) := by and_intros <;> decide +kernel

/-! ### Witnesses: helpers, pipes, replay, tenons, traps -/

/-- The control context of core 0 with a helper in slot 1, of generation 3, while the role allows `n` helpers. -/
def helping (n : Nat) : State :=
  let s := (ganged { Ctx.zero with xs := [(5, 0x31), (6, 0x41), (7, 1), (8, 2)] }).modCore 0 (fun k => { k with nhlp := n })
  s.setCtx 1 { Ctx.zero with gang := 1, gen := 3, status := helperStatus 0 1 }
theorem witness_HelpersAndGangBarriers_arrivals :
    (∀ n ∈ [0, 1], (if n < 1 then 1 else if 88 < n then 88 else n) = (⟨7, 0, 5⟩ : GBar).arr + 1) ∧
    (⟨7, 0, 5⟩ : GBar).arr + 1 ≠ (if 89 < 1 then 1 else if 88 < 89 then 88 else 89) ∧ (⟨7, 87, 88⟩ : GBar).arr + 1 = 88 ∧ (⟨7, 87, 88⟩ : GBar).arr ≠ 0 := by
  decide
/-- R141: the target is clamped to 88, a later count is ignored, and the 88th arrival ends the phase; a phase 2^31 ahead has not passed. -/
theorem test_gbar : (⟨7, 0, 0⟩ : GBar).arrive 89 = ⟨7, 1, 88⟩ ∧ (⟨7, 1, 88⟩ : GBar).arrive 2 = ⟨7, 2, 88⟩ ∧
    (⟨2 ^ 32 - 1, 87, 88⟩ : GBar).arrive 3 = ⟨0, 0, 0⟩ ∧ phasePassed 0 (2 ^ 32 - 1) = true ∧ phasePassed 7 7 = false ∧
    phasePassed (2 ^ 31) 0 = false := by decide +kernel
/-- The gang's barrier 1 has reached a phase; context 0 has arrived in the phase given. -/
def atBarrier (phase : Nat) (arrived : Tbl Nat) : State :=
  let s := helping 10
  (s.setGang 1 { demoGang with bars := [(1, ⟨phase, 0, 0⟩)] }).modCtx 0 (fun x => { x with arrived := arrived })
/-- Whether the phase that a GBAR of barrier `A` and count `B` waits for is over, its own arrival made. -/
def barrierOver (s : State) (a b : Nat) : Bool :=
  let x := s.ctx 0
  let n := (x.x a).toNat % 8
  let ph := (s.gbar 0 n).phase
  let u := match tget x.arrived s.ctl.syl with
    | some _ => s
    | none => ((s.drainAll 0).modGBar x.gang n (fun g => g.arrive (x.x b).toNat)).modCtx 0 (fun q =>
        { q with arrived := tset q.arrived s.ctl.syl (8 * ph + n) })
  let m := tgetD (u.ctx 0).arrived s.ctl.syl 0
  phasePassed (u.gbar 0 (m % 8)).phase (m / 8)

theorem witness_HelpersAndGangBarriers :
    (∀ r ∈ [(0, 31, 5, 6), (1, 0, 5, 0), (2, 0, 5, 0), (3, 31, 0, 0)], ctxOk (helping 10) 0 0x38 r.1 15 r.2.1 r.2.2.1 r.2.2.2 = true) ∧
    fld ((helping 10).ctx 0).status.toNat 20 4 = 0 ∧ (helping 0).freeHelper 0 = none ∧ (helping 1).freeHelper 0 = none ∧
    (helping 10).freeHelper 0 = some 2 ∧ ((helping 2).setCtx 2 Ctx.zero).freeHelper 0 = none ∧
    ctxOk (helping 1) 0 0x38 0 15 31 5 6 = true ∧
    (helping 10).handleLive 0 0x31 = true ∧ (helping 10).handleLive 0 0x41 = false ∧ ctxOk (helping 10) 0 0x38 1 0 0 6 0 = true ∧
    (tget (helping 10).weave.gangs ((helping 10).ctx 0).gang).isSome = true ∧ ctxOk (helping 10) 0 0x3A 3 15 31 0 0 = true ∧
    ctxOk (atBarrier 0xFFFFFFFF []) 0 0x3A 1 15 31 7 7 = true ∧
    (ctxOk (atBarrier 0xFFFFFFFF []) 0 0x3A 0 15 31 7 7 = true ∧ barrierOver (atBarrier 0xFFFFFFFF []) 7 7 = true) ∧
    (ctxOk (atBarrier 4 []) 0 0x3A 0 15 31 7 8 = true ∧ barrierOver (atBarrier 4 []) 7 8 = false) ∧
    (ctxOk (atBarrier 4 [(0x1000, 25)]) 0 0x3A 0 15 31 7 8 = true ∧ barrierOver (atBarrier 4 [(0x1000, 25)]) 7 8 = true) ∧
    (ctxOk (atBarrier 4 [(0x1000, 33)]) 0 0x3A 0 15 31 7 8 = true ∧ barrierOver (atBarrier 4 [(0x1000, 33)]) 7 8 = false) ∧
    (ctxOk (atBarrier 2 []) 0 0x3A 2 0 0 7 7 = true ∧ phasePassed ((atBarrier 2 []).gbar 0 1).phase (1 : W64).toNat = true) ∧
    (ctxOk (atBarrier 2 []) 0 0x3A 2 0 0 7 8 = true ∧ phasePassed ((atBarrier 2 []).gbar 0 1).phase (2 : W64).toNat = false) := by
  and_intros <;> decide +kernel

/-- The pipe of the gang with the entries and the closed bits given. -/
def piped (l : List PipeEntry) (pclosed cclosed : Bool) : State :=
  (ganged { Ctx.zero with xs := [(5, 1), (6, 9)] }).setGang 1 { demoGang with
    pipes := [{ demoPipe with entries := l, pclosed := pclosed, cclosed := cclosed }] }

theorem witness_PipeFormsAndPorts : let s := piped [.value 7, .value 8] false false
    (ctxOk s 0 0x39 0 15 31 48 0 = true ∧ s.conPipe 0 48 = some (0, demoPipe) ∧ demoPipe.cclosed = false ∧ demoPipe.entries.head? = some (.value 7)) ∧
    (ctxOk s 0 0x39 1 15 31 49 0 = true ∧ s.conPipe 0 49 = none ∧ s.proPipe 0 49 = some (0, demoPipe)) ∧
    (ctxOk s 0 0x39 1 15 31 55 0 = true ∧ s.conPipe 0 55 = none ∧ s.proPipe 0 55 = none) ∧
    (∀ q ∈ [48, 49, 55], ctxOk s 0 0x39 2 15 0 q 0 = true) ∧
    (ctxOk s 0 0x39 3 15 31 48 5 = true ∧ (s.src 0 5).2.conPipe 0 48 = some (0, demoPipe) ∧ min (s.src 0 5).1.toNat demoPipe.values.length = 1) ∧
    (ctxOk s 0 0x39 3 15 31 48 6 = true ∧ min (s.src 0 6).1.toNat demoPipe.values.length = 2) ∧
    (ctxOk s 0 0x39 3 15 31 48 0 = true ∧ min (s.src 0 0).1.toNat demoPipe.values.length = 0) ∧
    (ctxOk s 0 0x39 3 15 31 49 5 = true ∧ (s.src 0 5).2.conPipe 0 49 = none) ∧
    (tget s.weave.gangs (s.ctx 0).gang = some demoGang ∧ demoGang.pipes[0]? = some demoPipe ∧ consumerPipe demoGang.pipes (s.ctx 0).role 0 = some 0 ∧
      demoPipe.entries = .value 7 :: [.value 8] ∧ producerPipe demoGang.pipes (s.ctx 0).role 1 = some 0) ∧
    (ctxOk s 0 0x00 0 0 49 48 48 = true ∧ ctxOk s 0 0x00 0 0 31 48 5 = true) := by and_intros <;> decide +kernel

/-- Context 0 executes the REPF that stands first in a segment; x6 holds 0xFFFF. -/
def replaying (ws : List Nat) : State :=
  let s := (State.reset.setCtx 0 { Ctx.zero with xs := [(6, 0xFFFF)] }).placeGroup ws
  { s with ctl := { s.ctl with cur := .ctx 0, group := placeBase + 0x28, syl := placeBase + 0x28 } }

theorem witness_WeaveReplay : let s := replaying [0xBB004604, 0x80004209, 0xC0086188]
    ctxOk s 0 0x3B 0 0 1 6 0 = true ∧ (match (s.src 0 6).2.segOf 0 s.ctl.syl with
      | .ok g => match (s.src 0 6).2.blockWords 0 g 2 (s.ctl.syl + 4) with
        | .ok (ws, _) => blockLegal 0 0 0xFFFF ws && ws == [0x80004209, 0xC0086188]
        | _ => false
      | _ => false) = true := by and_intros <;> decide +kernel

/-- A frame launch with one entry, one mortise over the first 4 KiB of bench 0's tensor SRAM and two tenons: a guard's and a store's. -/
def demoFrame : FrameLaunch :=
  { queue := 128, index := 3, asid := 0, seed := 9, align := false, tsq := false, dtag := 7, nframes := 2, flen := 100, fslots := 4, holdmax := 5
    pausebnd := 1, entries := [⟨10, 0, 1, 0, [(0, 1000)]⟩], morts := [⟨0, 50, 0, true, [(0, 0, 4096)], 1⟩]
    tenons := [⟨1, 3, 0, 0⟩, ⟨0, 0, 0, 0⟩], dicts := [], sctr := 4, siginc := 1, readyAt := 0 }
/-- It runs, at FCNT `f`, with its mortise open. -/
def framing (s : State) (f : Nat) : State :=
  { s with frame := { s.frame with running := true, launch := some demoFrame, fcnt := BitVec.ofNat 64 f, flen := 100, openM := [0] } }
/-- The page at 0x4000 is mapped to the first page of bench 0's tensor SRAM. -/
def sramPage (s : State) : State :=
  s.modCore 0 (fun k => { k with tlb := [⟨0, { identityLeaf with va := 0x4000, pa := sramBase, size := 4096, nc := true }⟩] })

/-- A page typed BF16 in blocks of 16: the page at 0x4000, in tensor SRAM, or the first 1 GiB. -/
def blockLeaf (sram : Bool) : Leaf :=
  if sram then { identityLeaf with va := 0x4000, pa := sramBase, size := 4096, typed := true, fmt := 0x12 }
  else { identityLeaf with typed := true, fmt := 0x12 }
/-- Context 0, whose group a port has let through, reads such a page; it holds the elements given. -/
def blockRead (sram : Bool) (elems : Option (Leaf × Nat)) : State :=
  (framing (ganged { pointers with granted := true, elems := elems }) 20).modCore 0 (fun k => { k with tlb := [⟨0, blockLeaf sram⟩] })
/-- What the read of the scale byte gives after that of the elements: a value, a wait, or neither. -/
def scaleRead (s : State) : Option Bool :=
  match s.ldyfPart 0 0x4000 with
  | .ok (p, t) =>
    if !p.leaf.typed || p.leaf.geo == 3 || !okay (t.sramGate 0 [p]) then none
    else match t.loadWhole 0 p with
      | .ok (_, u) => (match (u.modCtx 0 (fun x => { x with granted := false })).loadScale 0 p.leaf 0x4000 with
        | .ok _ => some true
        | .error (.wait _) => some false
        | _ => none)
      | _ => none
  | _ => none
theorem witness_LocalMemoryAndDecodingLoad_scale : identityLeaf.geo ≠ 3 ∧ ctxOk (blockRead false none) 0 0x2B 3 15 47 5 0 = true ∧
    ctxOk (blockRead true (some (blockLeaf true, 5))) 0 0x2B 3 15 47 5 0 = true ∧ at_ (blockRead true none) 5 0 4 = 0x4000 ∧
    scaleRead (blockRead false none) = some true ∧ scaleRead (blockRead true none) = some false ∧
    okay ((blockRead true (some (blockLeaf true, 5))).loadScale 0 (blockLeaf true) 0x4000) = true := by and_intros <;> decide +kernel
/-- R31, R299: the scale byte too lies within an open region, or its access raises MORTISE_BREACH. -/
theorem test_ldyf_scale_breach : (match ({ blockRead true (some (blockLeaf true, 5)) with
      frame := { (blockRead true none).frame with openM := [] } } : State).loadScale 0 (blockLeaf true) 0x4000 with
    | .error (.cause c _ _) => c
    | _ => 0) = cBreach := by decide +kernel

theorem witness_WeaveTenons : let s := sramPage (framing (ganged { Ctx.zero with xs := [(5, 0x4FF8), (6, 1)] }) 20)
    (ctxOk s 0 0x3D 0 15 0 0 6 = true ∧ s.tenonCheck 0 0 = .ok 0 ∧ (isQ 0 = true ∨ s.tenonCheck 0 ((s.ctx 0).x 0) = .ok 0)) ∧
    (ctxOk s 0 0x3D 1 15 0 5 6 = true ∧ okay (s.stageCheck 0 0x4FF8) = true ∧ okay (s.stageCheck 0 ((s.ctx 0).x 5)) = true) ∧
    ctxOk s 0 0x3D 2 15 31 6 0 = true := by
  and_intros
  · decide +kernel
  · rfl
  · exact .inr rfl
  all_goals decide +kernel

theorem witness_PreciseTrap : let s := ganged Ctx.zero
    ∀ code ∈ [1, 0x1F], code < 0x20 ∧ (s.ctx 0).priv = false ∧ s.tvec (s.ctx 0) ≠ 0 := by decide +kernel

theorem witness_TrapReturnAndLaunchWide : let s := ganged Ctx.zero
    let p := ganged { Ctx.zero with status := 1, epc := 0x3003 }
    (∀ i ∈ [0, 63], ctxOk s 0 0x7E 0 15 0 0 0 = true ∧ immOk none 0x7E 0 i = true) ∧ (s.ctx 0).priv = false ∧ s.tvec (s.ctx 0) ≠ 0 ∧
    (ctxOk p 0 0x7E 0 15 0 0 63 = true ∧ (p.ctx 0).cause &&& 0xFFFFFFFF00FF = (p.ctx 0).cause) ∧
    (ctxOk p 0 0x7E 3 15 0 0 0 = true ∧ p.immU 6 0 = 0 ∧ (p.ctx 0).priv = true) ∧ ctxOk s 0 0x7E 3 15 0 0 0 = true ∧
    (tget s.weave.launches (s.launchOf (s.ctx 0)) = some demoLaunch ∧ (0x20 ≤ 0x20 ∨ (s.ctx 0).priv = true ∨ s.tvec (s.ctx 0) = 0)) ∧
    (tget p.weave.launches (p.launchOf (p.ctx 0)) = some demoLaunch ∧ (p.ctx 0).priv = true) := by and_intros <;> decide +kernel

theorem witness_SpecialRegisters : let s := ganged Ctx.zero
    let p := ganged { Ctx.zero with status := 1 }
    (∀ n ∈ [0, 18], ctxOk p 0 0x7E 1 15 31 0 n = true ∧ ∃ r, sysReg n = some r) ∧
    (ctxOk s 0 0x7E 1 15 31 0 16 = true ∧ (∃ r, sysReg 16 = some r ∧ r.userRead = true)) ∧
    (ctxOk s 0 0x7E 1 15 31 0 17 = true ∧ (∃ r, sysReg 17 = some r ∧ r.userRead = false)) ∧
    (ctxOk (withExt s 2) 0 0x7E 1 15 31 0 63 = true ∧ ∃ r, sysReg (2 * 64 + 63) = some r) ∧
    (ctxOk s 0 0x7E 2 15 0 31 1 = true ∧ (∃ r, sysReg 1 = some r ∧ r.userWrite = true)) ∧
    (ctxOk s 0 0x7E 2 15 0 31 2 = true ∧ (∃ r, sysReg 2 = some r ∧ r.userWrite = false)) ∧
    (ctxOk p 0 0x7E 2 15 0 31 13 = true ∧ (∃ r, sysReg 13 = some r ∧ r.systemWrite = true)) ∧
    (ctxOk p 0 0x7E 2 15 0 31 14 = true ∧ (∃ r, sysReg 14 = some r ∧ r.systemWrite = false)) := by
  refine ⟨fun n h => ?_, ⟨?_, _, rfl, rfl⟩, ⟨?_, _, rfl, rfl⟩, ⟨?_, _, rfl⟩, ⟨?_, _, rfl, rfl⟩, ⟨?_, _, rfl, rfl⟩, ⟨?_, _, rfl, rfl⟩, ?_, _, rfl, rfl⟩
  · simp only [List.mem_cons, List.not_mem_nil, or_false] at h
    rcases h with rfl | rfl
    · exact ⟨by decide +kernel, _, rfl⟩
    · exact ⟨by decide +kernel, _, rfl⟩
  all_goals decide +kernel

theorem witness_ImmediateExtension : (atCtx Ctx.zero).ctl.cur ≠ .none ∧ 0xFFFFFF < 2 ^ 24 ∧ 255 < 2 ^ 8 ∧
    (atCtx Ctx.zero).ctx? 0 = some Ctx.zero := by decide +kernel

/-! ### Witnesses: vector, matrix and winnow forms -/

/-- A range that lies in tensor SRAM, outside try-square mode: it is free (`State.rangeFree`). -/
def freeRange (s : State) (off n : Nat) : Bool := n == 0 || (decide (off + n ≤ Config.sramBytes) && !s.trySquare)

/-- The bench with a descriptor in a5 and an 8-bit FMTSEL. -/
def quantising (v : Nat) : Bench := { guarded with a := [(5, BitVec.ofNat 64 v)], fmtsel := 0x83 }

theorem witness_FrameVectorConvert : (∀ hi, ∀ r ∈ minors 0x5C 2 ++ minors 0x5F 1, formF (atSlot .v0 guarded) .v0 hi r = true) ∧
    (∀ r ∈ [36, 4, 32, 0], slotOk (atSlot .v1 guarded) 0 .v1 0x5C 3 15 63 63 r = true) ∧
    (∀ v ∈ [0, 0x34], okay ((atSlot .v0 (quantising v)).qdesc ((quantising v).ra 5).toNat false) = true ∧
      okay (selFmt (quantising v).fmtsel.toNat) = true ∧ ∀ x ∈ [0, 1, 2], slotOk (atSlot .v0 (quantising v)) 0 .v0 0x5E x 15 63 63 5 = true) ∧
    (∀ v ∈ [0, 0x1034], okay ((atSlot .v0 (quantising v)).qdesc ((quantising v).ra 5).toNat true) = true ∧
      slotOk (atSlot .v0 (quantising v)) 0 .v0 0x5E 3 15 63 63 5 = true) := by and_intros <;> decide +kernel

/-- a5 holds the last 1 KiB of tensor SRAM, a6 its end. -/
def edge : Bench := { guarded with a := [(5, BitVec.ofNat 64 (Config.sramBytes - 1024)), (6, BitVec.ofNat 64 Config.sramBytes)], w0 := 1024, w1 := 1024 }

theorem witness_FrameLanesAndMemory : (∀ hi, ∀ r ∈ minors 0x60 3 ++ minors 0x65 1 ++ [(0x67, 1), (0x67, 2), (0x67, 3)],
      formF (atSlot .v0 guarded) .v0 hi r = true) ∧
    (∀ hi, ∀ r ∈ minors 0x63 1, formF (atSlot .x guarded) .x hi r = true) ∧ (∀ hi, ∀ r ∈ minors 0x64 1, formF (atSlot .l guarded) .l hi r = true) ∧
    (slotOk (atSlot .v0 guarded) 0 .v0 0x67 0 15 31 63 7 = true ∧ 7 < guarded.width .v0 / 32) ∧
    (slotOk (atSlot .v0 guarded) 0 .v0 0x67 0 15 31 63 8 = true ∧ guarded.width .v0 / 32 ≤ 8) ∧
    (∀ r ∈ [(0, 128), (1, 128), (2, 4), (3, 128)], let s := atSlot .v0 edge
      (slotOk s 0 .v0 0x66 r.1 15 62 5 7 = true ∧ slotOk s 0 .v0 0x66 r.1 15 62 6 63 = true ∧ slotOk s 0 .v0 0x66 r.1 15 62 6 0 = true) ∧
      (∀ p ∈ [(5, 7), (6, 63)], let at_ := (edge.ra p.1 + s.immS 6 p.2 * BitVec.ofNat 64 r.2).toNat / r.2 * r.2
        freeRange s at_ r.2 = true) ∧
      Config.sramBytes < (edge.ra 6 + s.immS 6 0 * BitVec.ofNat 64 r.2).toNat / r.2 * r.2 + r.2) := by and_intros <;> decide +kernel

/-- An operand's descriptor word (R219). -/
def descWord (fmt stride base : Nat) : Nat := fmt * 2 ^ 56 + 3 * 2 ^ 54 + stride / 64 * 2 ^ 22 + base
/-- The bench with a descriptor in a5, an ACTIVE latch of the format, and handles 1 and 2 bound. -/
def multiplying (fmt : Nat) : Bench :=
  { guarded with a := [(5, BitVec.ofNat 64 (descWord fmt 256 64))], active := ⟨true, [], [], fmt, 3, 0, 7⟩
                 h := [(1, AccSlot.filled 0), (2, AccSlot.filled 0)] }

theorem witness_MatrixProducts : ∀ r ∈ [(0x68, 0, 0x83, MatClass.b8, false), (0x68, 1, 1, .i8, false), (0x68, 2, 9, .i4, false),
      (0x68, 3, 0x12, .bf, false), (0x69, 0, 0x83, .b8, true), (0x69, 1, 1, .i8, true), (0x69, 2, 0x12, .bf, true)],
    ∀ p ∈ [(15, 1, 0), (1, 0, 7)], let k := multiplying r.2.2.1
    let s := atSlot .m k
    let d := matDesc (k.ra 5).toNat
    let n := 16 * (p.2.2 + 1)
    slotOk s 0 .m r.1 r.2.1 15 p.1 5 (32 * p.2.1 + p.2.2) = true ∧ okay (s.checkDesc (k.ra 5).toNat) = true ∧
    matClass d.fmt d.geo d.tbl = some r.2.2.2.1 ∧ k.active.valid = true ∧ matClass k.active.fmt k.active.geo k.active.tbl = some r.2.2.2.1 ∧
    p.2.2 ≤ k.active.kg ∧ (p.2.1 = 1 ∨ okay (k.bound p.1) = true) ∧ k.arrayBusy ≤ k.tick ∧ (k.flights p.1).all id = true ∧
    (k.active.tbl = 0 ∨ tblValid (s.compander k.active.tbl) = true) ∧
    ∀ i ∈ List.range 128, freeRange s (d.row i) (if r.2.2.2.2 then rowLen d.fmt (n / 2) + n / 8 else rowLen d.fmt n) = true ∧
      freeRange s (d.scaleRow i) (blocksOf d.geo n) = true := by decide +kernel

theorem witness_SparseSelection : (∀ f ∈ [1, 0x83, 9], ∀ n ∈ [0, 1], slotOk (atSlot .m { guarded with fmtsel := f }) 0 .m 0x69 3 15 63 63 n = true) ∧
    (isB8 0x83 = true ∧ (9 : Byte).toNat ≠ 1 ∧ isB8 9 = false) ∧ ([.nan, .nan, .nan, .nan] : List Fv).length = 4 := by decide +kernel

theorem witness_LatchesAndSlots : let k := multiplying 0x83
    let s := atSlot .m k
    (∀ g ∈ [0, 7], slotOk s 0 .m 0x6C 0 15 0 5 g = true ∧ okay (s.checkDesc (k.ra 5).toNat) = true ∧
      ∀ i ∈ List.range 128, let d := matDesc (k.ra 5).toNat
        freeRange s (d.row i) (rowLen d.fmt (16 * (g + 1))) = true ∧ freeRange s (d.scaleRow i) (blocksOf d.geo (16 * (g + 1))) = true) ∧
    (slotOk (atSlot .m { k with a := [(6, 4)] }) 0 .m 0x6C 1 15 0 6 0 = true ∧ s.frame.fcnt.toNat + 4 ≤ k.lastAnchor + 4) ∧
    (slotOk (atSlot .m { k with a := [(6, 3)] }) 0 .m 0x6C 1 15 0 6 0 = true ∧ k.lastAnchor + 3 < s.frame.fcnt.toNat + 4) ∧
    (slotOk s 0 .m 0x6C 2 15 0 0 0 = true ∧ slotOk s 0 .m 0x6C 3 15 31 0 0 = true) ∧
    (∀ v ∈ [0, 0x1FF, 0x207], okay (checkPos v) = true) ∧ slotOk s 0 .m 0x6A 1 15 63 1 0 = true ∧ (k.slotOf 1).isSome = true ∧ k.flights 1 = [] ∧
    (slotOk s 0 .m 0x6A 1 15 63 15 0 = true ∧ k.slotOf 15 = none) ∧
    (let q := k.lands 5 1 1 true (AccSlot.filled 0) 0
     slotOk (atSlot .m q) 0 .m 0x6A 1 15 63 1 0 = true ∧ (q.slotOf 1).isSome = true ∧ q.flights 1 ≠ []) ∧
    slotOk s 0 .m 0x6A 2 15 1 63 0 = true ∧ slotOk s 0 .m 0x6A 0 15 1 0 0 = true ∧ slotOk s 0 .m 0x6A 3 15 15 0 0 = true ∧ k.flights 15 = [] ∧
    k.arrayBusy ≤ k.tick := by and_intros <;> decide +kernel

/-- P's descriptor for `n` columns. -/
def soft (n : Nat) : Bench := { multiplying 0x12 with a := [(5, BitVec.ofNat 64 (descWord 0x12 256 64 + (n - 1) * 2 ^ 32))] }

theorem witness_StreamingSoftMaximum : (∀ n ∈ [1, 128], let k := soft n
      let v := (k.ra 5).toNat
      let d := matDesc v
      slotOk (atSlot .m k) 0 .m 0x6B 0 15 1 2 5 = true ∧ fld v 39 11 = 0 ∧ d.fmt = 0x12 ∧ d.geo = 3 ∧ d.tbl = 0 ∧ d.stride ≠ 0 ∧
      d.base % 64 = 0 ∧ (k.slotOf 1).isSome = true ∧ (k.slotOf 2).isSome = true ∧ k.arrayBusy ≤ k.tick ∧ k.flights 1 = [] ∧ k.flights 2 = [] ∧
      ∀ r ∈ List.range 128, freeRange (atSlot .m k) (d.row r) (128 * fmtWidth d.fmt / 8) = true) ∧
    slotOk (atSlot .m (soft 1)) 0 .m 0x6B 1 15 1 2 0 = true ∧ slotOk (atSlot .m (soft 1)) 0 .m 0x6B 2 15 1 0 0 = true ∧
    slotOk (atSlot .m (soft 1)) 0 .m 0x6B 3 15 15 0 0 = true ∧ (soft 1).flights 15 = [] := by and_intros <;> decide +kernel

/-- A bench with winnow entries 0 (F32, no copy) and 63 (BF16, with a copy) valid; a5 holds the second's descriptor, a6 all ones. -/
def winnowing : Bench :=
  let d (fmt pv : Nat) : W64 := BitVec.ofNat 64 (fmt * 2 ^ 56 + pv * 2 ^ 55 + (if pv = 1 then 0x100000 else 0) * 2 ^ 32 + 8 * 2 ^ 22)
  { guarded with win := [(0, ⟨true, d 0x10 0, false, []⟩), (63, ⟨true, d 0x12 1, false, []⟩)]
                 a := [(5, d 0x12 1), (6, 0xFFFFFFFF), (7, 0x0000FFFF0000FFFF), (8, 0xFFFFFFFFFFFFFFFF)] }

theorem witness_WinnowForms : let k := winnowing
    let s := atSlot .c k
    (∀ e ∈ [0, 63], (k.entryAt e).valid = true ∧ k.winBusy ≤ k.tick ∧ (∀ r ∈ List.range 128, let d := winDesc (k.entryAt e).desc
        freeRange s (d.base + d.stride * r) d.rowLen = true) ∧
      slotOk s 0 .c 0x70 0 15 63 0 e = true ∧ slotOk s 0 .c 0x70 1 15 14 63 e = true ∧ slotOk s 0 .c 0x70 2 15 0 0 e = true ∧
      slotOk s 0 .c 0x70 3 15 0 63 e = true) ∧
    ((k.entryAt 62).valid = false ∧ slotOk s 0 .c 0x70 0 15 63 0 62 = true ∧ slotOk s 0 .c 0x70 1 15 2 63 62 = true ∧
      slotOk s 0 .c 0x70 2 15 0 0 62 = true ∧ slotOk s 0 .c 0x70 3 15 0 63 62 = true) ∧
    ((winDesc (k.entryAt 0).desc).pv = false ∧ (winDesc (k.entryAt 63).desc).pv = true ∧
      freeRange s (winDesc (k.entryAt 63).desc).pin (128 * (winDesc (k.entryAt 63).desc).rowLen) = true) ∧
    slotOk s 0 .c 0x71 0 15 31 0 0 = true ∧ (∀ b ∈ [0, 1, 2], slotOk s 0 .c 0x71 1 15 31 0 b = true) ∧
    (slotOk s 0 .c 0x71 2 15 0 5 63 = true ∧ okay (checkWinDesc (k.ra 5)) = true) ∧
    (slotOk s 0 .c 0x71 2 15 1 6 0 = true ∧ (k.ra 6).toNat < 2 ^ 32) ∧
    (slotOk s 0 .c 0x71 2 15 2 7 0 = true ∧ fld (k.ra 7).toNat 48 16 = 0 ∧ fld (k.ra 7).toNat 16 16 = 0) ∧
    slotOk s 0 .c 0x71 2 15 1 6 1 = true ∧ slotOk s 0 .c 0x71 3 15 0 8 0 = true := by and_intros <;> decide +kernel

/-! ### Witnesses: engines -/

/-- A cut list's image of one dimension of F32 elements, with the header's other bits and the extent, box and stride given (R304). -/
def image (bits base dbase extent box stride : Nat) : ClReg :=
  ⟨[0x10 * 2 ^ 56 + 2 ^ 52 + bits, base, dbase, 0, 0, 0, extent * 2 ^ 32 + box, 0, stride].flatMap (leBytes 8), 0x8000⟩
/-- Bench 0 of a frame launch at FCNT 20 with the first 1 GiB pinned, register 15 of its cut lists filled, a5 5000, and watermark
channel 7 over 64 bytes at 64. -/
def copying (r : ClReg) : State :=
  let s := framing (atSlot .c { guarded with clr := [(15, r)], a := [(5, 5000)], wm := [(7, ⟨BitVec.ofNat 64 (2 ^ 63 + 64 * 2 ^ 32 + 64), 0, []⟩)] }) 20
  { s with frame := { s.frame with pinned := [⟨0, identityLeaf⟩] } }
/-- What bench 0's acceptance of a copy asks (R302, R311, R312). -/
def accepts (s : State) (kind : CpyKind) (row : Nat) : Bool :=
  let k := s.bench 0
  let cut := (tgetD k.clr 15 ClReg.zero).cut
  (cut.row (cut.kindBad kind true (kind.channel k.wm).cfg) true false (k.arena cut) == row) &&
    (row != 0 || (match s.benchElems 0 cut (k.arena cut) with
      | .ok es => !timedPast cut 0 s.frame.fcnt.toNat (k.lastAnchor + (k.ra 5).toNat % 2 ^ 32) (s.placed 0 cut (k.arena cut)) && okay (s.engineOwned 0 cut es)
      | _ => false))
/-- The bench's engine with the copies that it may hold. -/
def engineFull (s : State) : State :=
  let q : Copy := ⟨0, ClReg.zero, 0, 0, 0, [], [], [], [], 0, none, 0, false, 0⟩
  { s with frame := { s.frame with copies := (List.range Config.copyLimit).map (fun i => (i, q)) } }
/-- Context 0 of the gang with cut list 3 filled, and the cluster's channel 7 over 64 bytes at 64. -/
def weaveCopying (r : ClReg) (n : Nat) : State :=
  let s := ganged { Ctx.zero with clr := [(3, r)] }
  let q : BteCopy := ⟨0, 0, true, ClReg.zero, 0, 0, 0, 0, 0, 0, none, 1, 1, 0, 0, []⟩
  s.modCluster 0 (fun k => { k with wm := [(7, ⟨BitVec.ofNat 64 (2 ^ 63 + 64 * 2 ^ 32 + 64), 0, []⟩)], bte := (List.range n).map (fun i => (i, q)) })
def weaveRow (s : State) (kind : CpyKind) : Nat :=
  let cut := (tgetD (s.ctx 0).clr 3 ClReg.zero).cut
  cut.row (cut.kindBad kind false (kind.channel (s.cluster 0).wm).cfg) false (s.clx (s.ctx 0)) cut.base

theorem witness_EngineCopies :
    (∀ p ∈ [(0, CpyKind.box, 0, 0), (1, .mcast, 2 ^ 30 + 0xFFFF, 0), (2, .red, 2 ^ 47, 0), (3, .lin 7, 0, 7)],
      let s := copying (image p.2.2.1 0x4000 64 16 16 4)
      slotOk s 0 .c 0x74 p.1 15 15 5 p.2.2.2 = true ∧ accepts s p.2.1 0 = true ∧ s.copiesOf 0 < Config.copyLimit ∧
      Config.copyLimit ≤ (engineFull s).copiesOf 0 ∧ slotOk (engineFull s) 0 .c 0x74 p.1 15 15 5 p.2.2.2 = true) ∧
    (∀ p ∈ [(0, CpyKind.box, 0, 0), (1, .mcast, 2 ^ 30 + 0xFFFF, 0), (2, .red, 2 ^ 47, 0), (3, .lin 7, 0, 7)],
      accepts (copying (image p.2.2.1 0x4000 64 16 0 4)) p.2.1 2 = true ∧ accepts (copying (image p.2.2.1 0x4001 64 16 16 4)) p.2.1 3 = true) ∧
    (∀ p ∈ [(0, CpyKind.box, 2 * 2 ^ 34 + 3 * 2 ^ 32, 0), (2, .red, 2 ^ 47 + 2 * 2 ^ 34 + 3 * 2 ^ 32, 0), (3, .lin 7, 2 * 2 ^ 34 + 3 * 2 ^ 32, 7)],
      (∀ n ∈ [0, Config.bteLimit], ctxOk (weaveCopying (image p.2.2.1 0x4000 64 16 16 4) n) 0 0x74 p.1 15 3 0 p.2.2.2 = true) ∧
      weaveRow (weaveCopying (image p.2.2.1 0x4000 64 16 16 4) 0) p.2.1 = 0 ∧ weaveRow (weaveCopying (image p.2.2.1 0x4000 64 16 0 4) 0) p.2.1 = 2 ∧
      weaveRow (weaveCopying (image p.2.2.1 0x4001 64 16 16 4) 0) p.2.1 = 3) ∧
    (∀ n ∈ [0, Config.bteLimit], ctxOk (weaveCopying ClReg.zero n) 0 0x74 1 15 3 0 0 = true ∧
      ((weaveCopying ClReg.zero n).cluster 0).bte.length = n) := by and_intros <;> decide +kernel

theorem witness_BarrierObjects : let s := atSlot .c edge
    let w := ganged { Ctx.zero with xs := [(5, 0xFFFFF), (6, 9)] }
    (slotOk s 0 .c 0x75 0 15 0 5 31 = true ∧ slotOk s 0 .c 0x75 1 15 31 5 31 = true ∧ (∀ p ∈ [0, 1], slotOk s 0 .c 0x75 3 15 15 5 p = true) ∧
      (edge.ra 5).toNat / 16 * 16 < Config.sramBytes) ∧
    (ctxOk w 0 0x75 0 15 0 5 6 = true ∧ ctxOk w 0 0x75 1 15 31 5 6 = true ∧ (∀ p ∈ [0, 1], ctxOk w 0 0x75 2 15 0 5 p = true ∧
      ctxOk w 0 0x75 3 15 31 5 p = true) ∧ (w.src 0 5).1.toNat / 16 * 16 < 2 ^ 20 ∧ w.clx (w.ctx 0) = true ∧
      (w.localBar 0 ((w.src 0 5).1.toNat / 16 * 16)).phase = 0) := by and_intros <;> decide +kernel

theorem witness_BarrierPhase : let o : BarObj := (BarObj.ofBytes (List.replicate 16 0)).init 2
    o.arrv = 2 ∧ (o.arrive 0).arrv = 1 ∧ (o.arrive 0).pend + 0 = 0 ∧ (o.arrive 64).pend + 0 ≠ 0 ∧
    ((o.arrive 64).arrive 0).arrv = 0 ∧ ((o.arrive 64).arrive 0).pend - BitVec.ofNat 64 64 = 0 ∧
    ((o.arrive 64).arrive 0).pend - BitVec.ofNat 64 32 ≠ 0 := by and_intros <;> decide +kernel

/-- The bench's segment holds, as data, the image of a cut list at 0x1000. -/
def dataBench : Bench :=
  let bs := (image 0 0x4000 64 16 16 4).bytes
  { guarded with a := [(5, 0x1007)]
                 halves := [(0, ⟨0xFD8, 0x1000, 18, [0, 0, 0], (List.range 18).map (fun i => leNat ((bs.drop (4 * i)).take 4)), 0, 0, true⟩)] }

theorem witness_WatermarksAndCutLists :
    (∀ p ∈ [(Config.sramBytes, 0), (0, Config.sramBytes)], let s := atSlot .c { guarded with a := [(5, BitVec.ofNat 64 p.1), (6, BitVec.ofNat 64 p.2)] }
      slotOk s 0 .c 0x77 0 15 7 5 6 = true ∧ p.1 < 2 ^ 22 ∧ p.2 < 2 ^ 22 ∧ p.1 + p.2 ≤ Config.sramBytes) ∧
    (let w := ganged { Ctx.zero with xs := [(5, 0x100000)] }
     ctxOk w 0 0x77 0 15 7 5 0 = true ∧ (w.src 0 5).1.toNat + 0 ≤ 2 ^ 20 ∧ (w.ctx 0).x 5 = (w.src 0 5).1) ∧
    (slotOk (atSlot .c guarded) 0 .c 0x77 1 15 31 7 0 = true ∧ ctxOk (ganged Ctx.zero) 0 0x77 1 15 31 7 0 = true ∧
      slotOk (atSlot .c guarded) 0 .c 0x77 3 15 31 15 0 = true ∧ ctxOk (ganged Ctx.zero) 0 0x77 3 15 31 3 0 = true) ∧
    (slotOk (atSlot .c dataBench) 0 .c 0x77 2 15 15 5 0 = true ∧ (match (tgetD dataBench.halves 0 Half.empty).codeBytes 0x1000 48 with
      | .ok hd => okay ((tgetD dataBench.halves 0 Half.empty).codeBytes 0x1030 (imageLength (leNat (hd.take 8)) - 48))
      | _ => false) = true) ∧
    (ctxOk (ganged pointers) 0 0x77 2 15 3 7 0 = true ∧ okay (preCut 7 (ganged pointers) 0) = true ∧
      okay (((ganged pointers).src 0 7).2.readCut 0 0x7FC0) = true) := by and_intros <;> decide +kernel

/-- A cut list of one dimension. -/
def oneDim (dir base pitch : Nat) (d : Dim) : Cut := { (image (dir * 2 ^ 46) base 0 64 16 4).cut with dpitch := pitch, dims := [d] }
theorem witness_WatermarksAndCutLists_rows :
    (∀ p ∈ [({ oneDim 0 0x4000 0 ⟨64, 16, 0, 4⟩ with mode := 3 }, 1), (oneDim 0 0x4000 0 ⟨64, 0, 0, 4⟩, 2), (oneDim 0 0x4001 0 ⟨64, 16, 0, 4⟩, 3),
      (oneDim 1 0x4000 0 ⟨64, 16, 0, 2⟩, 3), (oneDim 1 0x4000 0 ⟨64, 16, 0, 0⟩, 4), (oneDim 0 0x4000 8 ⟨64, 16, 0, 4⟩, 4),
      ({ oneDim 0 0x4000 0 ⟨64, 16, 0, 4⟩ with dbase := 0x300000 }, 5), ({ oneDim 0 0x4000 0 ⟨64, 16, 0, 4⟩ with dbase := 0x2FFFC0 }, 0)],
      p.1.dims.length = p.1.ndim ∧ p.1.row false true false p.1.base = p.2) := by decide +kernel

/-- A jig's program (R320): its mode, and a copy of F32 elements as its template. -/
def jigProgram (mode per : Nat) : List Byte :=
  leBytes 8 (mode * 2 ^ 62 + per * 2 ^ 16) ++ leBytes 8 (if mode = 0 then 600 * 2 ^ 32 else 0) ++ List.replicate 160 0 ++ (image 0 0x4000 64 16 2 4).bytes ++
    List.replicate 264 0
/-- Bench 0 with a program of the mode, in the state given, which it may load again from the last 512 bytes of its SRAM. -/
def jigging (mode per : Nat) (st : JigState) : State :=
  let s := atSlot .c { guarded with jig := ⟨jigProgram mode per, 0, st, 0, 0, 0, []⟩, a := [(5, BitVec.ofNat 64 (Config.sramBytes - 512))] }
  { s with mem := s.mem.rawPut (sramPa 0 (Config.sramBytes - 512)) (jigProgram 0 per) }

theorem witness_JigForms :
    (∀ st ∈ [JigState.idle, .loaded, .run], slotOk (jigging 0 1 st) 0 .c 0x76 0 15 0 5 0 = true) ∧
    ((Config.sramBytes - 512) / 64 * 64 + 512 ≤ Config.sramBytes ∧ okay ((jigging 0 1 .idle).checkOwner 0 (Config.sramBytes - 512) 512) = true) ∧
    (⟨(jigging 0 1 .idle).mem.rawBytes (sramPa 0 (Config.sramBytes - 512)) 512, Config.sramBytes - 512, .loaded, 0, 0, 0, []⟩ : Jig).legal = true ∧
    (⟨(jigging 0 0 .idle).mem.rawBytes (sramPa 0 (Config.sramBytes - 512)) 512, Config.sramBytes - 512, .loaded, 0, 0, 0, []⟩ : Jig).legal = false ∧
    (∀ m ∈ [0, 1], slotOk (jigging m 1 .loaded) 0 .c 0x76 1 15 0 0 0 = true ∧ ((jigging m 1 .loaded).bench 0).jig.mode = m) ∧
    (∀ st ∈ [JigState.idle, .loaded, .run], slotOk (jigging 0 1 st) 0 .c 0x76 2 15 0 0 0 = true ∧ slotOk (jigging 0 1 st) 0 .c 0x76 3 15 31 0 0 = true) := by
  and_intros <;> decide +kernel

/-- Channel 63 from bench 0 to bench 0, of F32 elements and 8 ticks, with the landed entries given; FCNT 20, a5 the operand. -/
def channelling (xpkg : Bool) (a : Nat) (landed : List (Nat × W1024)) : State :=
  let s := framing (atSlot .c { guarded with a := [(5, BitVec.ofNat 64 a)] }) 20
  { s with frame := { s.frame with channels := [(63, ⟨0, 0, 0, xpkg, 0, 0x10, 256, 2, 8, [], landed, []⟩)] } }
/-- The same channel with no latency. -/
def atOnce (landed : List (Nat × W1024)) : State :=
  let s := channelling false 20 landed
  { s with frame := { s.frame with channels := [(63, ⟨0, 0, 0, false, 0, 0x10, 256, 2, 0, [], landed, []⟩)] } }

theorem witness_ChannelForms :
    (∀ x ∈ [false, true], slotOk (channelling x 28 []) 0 .c 0x78 0 15 63 63 5 = true ∧ 20 + 8 ≤ ((channelling x 28 []).bench 0).lastAnchor + 28) ∧
    (slotOk (channelling false 27 []) 0 .c 0x78 0 15 63 63 5 = true ∧ ((channelling false 27 []).bench 0).lastAnchor + 27 < 20 + 8) ∧
    (∀ l ∈ [[], [(20, 7)], [(19, 7), (20, 8)]], slotOk (channelling false 0 l) 0 .c 0x78 1 15 63 63 0 = true ∧
      slotOk (channelling true 0 l) 0 .c 0x78 3 15 31 63 0 = true) ∧
    (∀ l ∈ [[], [(19, 7), (19, 8)]], slotOk (atOnce l) 0 .c 0x78 0 15 63 63 5 = true ∧ ((atOnce l).bench 0).lastAnchor + 20 = 20) ∧
    (∀ o ∈ [0, 1, 2], slotOk (channelling false 0 [(20, 7)]) 0 .c 0x78 2 15 63 63 o = true ∧ (chanOp 0x10 o).isSome = true ∧
      (chanOp 3 o).isSome = true) := by and_intros <;> decide +kernel

/-- The same state with a page table of address space 0 that maps the first 1 GiB to itself (R271, R272). -/
def tabled (s : State) : State :=
  { s with
    host := { s.host with asidtb := 0x100000 }
    mem := (((s.mem.rawPut 0x100000 (leBytes 8 (2 ^ 63 + 0x101000))).rawPut 0x101000 (leBytes 8 (2 ^ 63 + 0x102 * 64))).rawPut 0x102000
      (leBytes 8 (2 ^ 63 + 0x103 * 64))).rawPut 0x103000 (leBytes 8 (2 ^ 63 + 2 ^ 62 + 15)) }
/-- Group entry 5 of address space 0 in the given state, over four F32 elements at 0x4000 with the sum at 0x4100. -/
def grouped (st : Nat) : State :=
  let s := tabled (ganged { Ctx.zero with xs := [(5, 0x7FC0), (6, 511), (7, 3), (8, 300)] })
  { s with eng := { s.eng with
      groups := [(5, { Group.unbound with asid := some 0, state := st, gid := 9, nmem := 4, count := 4, src := 0x4000, dst := 0x4100, tmo := 100 })]
      ring := [(0, [0x8001000000000000, 0, 0, 0]), (3, [0x8000000000000000, 0, 0, 0])], ringN := 4 } }
/-- The descriptor of a group of two members and one F32 element stands at 0x7FC0. -/
def described (st : Nat) : State :=
  let s := grouped st
  { s with mem := s.mem.rawPut 0x7FC0 ([9 * 2 ^ 48 + 2 * 2 ^ 40 + 1 * 2 ^ 32 + 1, 0x4000, 0x4100, 100 * 2 ^ 32].flatMap (leBytes 8)) }

theorem witness_SplineAndRing :
    (∀ d ∈ [0, 5, 63], ctxOk (described 2) 0 0x79 0 15 d 5 0 = true ∧ ((described 2).group d).asid ≠ some 1) ∧
    (ctxOk (described 1) 0 0x79 0 15 5 5 0 = true ∧ ((described 1).group 5).asid = some 0 ∧ ((described 1).group 5).state = 1) ∧
    (match ((described 2).src 0 5).2.readWords 0 0x7FC0 4 with
      | .ok (bs, _) => (groupDesc bs).isSome
      | _ => false) = true ∧
    (∀ d ∈ [5, 63], ctxOk (grouped 0) 0 0x79 1 15 d 0 0 = true) ∧ ((grouped 0).group 63).asid = none ∧
    (∀ st ∈ [0, 1, 2, 3], ctxOk (grouped st) 0 0x79 2 15 5 0 0 = true ∧ ctxOk (grouped st) 0 0x79 3 15 31 5 0 = true ∧ ((grouped st).group 5).asid = some 0) ∧
    (okay (((grouped 0).drainAll 0).groupDst ((grouped 0).ctx 0) ((grouped 0).group 5)) = true ∧
      okay (((grouped 0).drainAll 0).groupSrc ((grouped 0).ctx 0) ((grouped 0).group 5)) = true) ∧
    (∀ n ∈ [5, 63], slotOk (framing (atSlot .c guarded) 20) 0 .c 0x79 3 15 31 n 0 = true ∧ (framing (atSlot .c guarded) 20).frame.launch = some demoFrame) ∧
    (∀ a ∈ [0, 6, 7, 8], ctxOk (grouped 0) 0 0x7A 0 15 0 a 5 = true ∧ ctxOk (grouped 0) 0 0x7A 1 15 31 a 0 = true ∧ ctxOk (grouped 0) 0 0x7A 2 15 31 a 0 = true ∧
      ctxOk (grouped 0) 0 0x7A 3 15 31 a 3 = true ∧ ((grouped 0).src 0 a).1.toNat < 512) ∧
    (okay ((grouped 0).readWords 0 (0x7FC0 / 8 * 8) 4) = true ∧ 256 ≤ ((grouped 0).src 0 6).1.toNat ∧ ((grouped 0).src 0 7).1.toNat < 256) ∧
    (ringLive (grouped 0).eng.ring 4 3 = true ∧ ringLive (grouped 0).eng.ring 4 2 = false ∧ (∀ e, e < 3 → 0 < e → ringLive (grouped 0).eng.ring 4 e = false) ∧
      ∀ d, d ≤ 4 → 0 < d → ringLive [] 4 ((3 + d) % 4) = false) ∧
    (∀ a ∈ [0, 511], slotOk (atSlot .c { guarded with a := [(5, BitVec.ofNat 64 a)] }) 0 .c 0x7A 1 15 31 5 0 = true ∧
      slotOk (atSlot .c { guarded with a := [(5, BitVec.ofNat 64 a)] }) 0 .c 0x7A 3 15 31 5 3 = true ∧ a < 512) := by and_intros <;> decide +kernel

/-- Connection 5 of address space 0 is open and a work request of the kind and length given stands at 0x7FC0 (R346); `n` tickets of
the context are open. -/
def requesting (op len n : Nat) : State :=
  let s := tabled (ganged { Ctx.zero with xs := [(5, 0x7FC0), (6, 5), (7, 11), (8, 12)] })
  let r : RmaReq := ⟨1, 0, 0, 0, 0, 11, 0, true, 0, op, 0, none, 5, 0, 0, 0, 0, 0, 0, none, 0, none⟩
  { s with
    eng := { s.eng with conns := [(5, ⟨0, [], true, 0, none⟩)], reqs := (List.range n).map (fun i => (i, { r with ticket := 11 + i })) }
    mem := s.mem.rawPut 0x7FC0 ([op * 2 ^ 60 + 5, 0x4000, 0x5000, len, 1, 2, 3, 0].flatMap (leBytes 8)) }

theorem witness_RemoteAccess :
    (∀ p ∈ [(0x3E, 0, 0), (0x3E, 1, 1), (0x3F, 0, 2), (0x3F, 2, 3)], ∀ l ∈ (if p.2.2 = 2 then [8] else [0, 8]), ∀ n ∈ [0, Config.rmaTicketLimit],
      let s := requesting p.2.2 l n
      ctxOk s 0 p.1 p.2.1 15 31 5 0 = true ∧ okay (preReq 5 (some p.2.2) s 0) = true ∧ okay ((s.src 0 5).2.readReq 0 0x7FC0 (some p.2.2)) = true ∧
      s.openTickets 0 = n ∧ (match s.span 0 true .read 0x4000 l with
        | .ok ps => okay (s.spanReach 0 0x4000 ps)
        | _ => false) = true) ∧
    (∀ n ∈ [0, Config.rmaTicketLimit], ctxOk (requesting 0 8 n) 0 0x3E 2 15 31 6 0 = true ∧
      (requesting 0 8 n).connOpen ((requesting 0 8 n).src 0 6).1.toNat ((requesting 0 8 n).ctx 0).asid.toNat = true) ∧
    (∀ op ∈ [0, 4], ∀ n ∈ [0, Config.rmaTicketLimit], ctxOk (requesting op 8 n) 0 0x3E 3 15 31 5 6 = true ∧ okay (preReq 5 none (requesting op 8 n) 0) = true ∧
      okay (((requesting op 8 n).src 0 5).2.readReq 0 0x7FC0 none) = true) ∧
    (ctxOk (requesting 0 8 1) 0 0x3F 1 15 31 7 0 = true ∧ ctxOk ((requesting 0 8 1).completeReq 0 0) 0 0x3F 1 15 31 7 0 = true ∧
      ctxOk (requesting 0 8 1) 0 0x3F 1 15 31 8 0 = true ∧ ((requesting 0 8 1).eng.reqs.find? (fun r => (requesting 0 8 1).ownsReq 0 r.2 && r.2.ticket == 12)) = none ∧
      (((requesting 0 8 1).eng.reqs.find? (fun r => (requesting 0 8 1).ownsReq 0 r.2 && r.2.ticket == 11)).map (·.2.status)) = some none ∧
      ((((requesting 0 8 1).completeReq 0 0).eng.reqs.find? (fun r => (requesting 0 8 1).ownsReq 0 r.2 && r.2.ticket == 11)).map (·.2.status)) =
        some (some 0)) := by and_intros <;> decide +kernel

/-! ### Witnesses: events -/

/-- Context 0 of the gang, waiting since tick 0 of 100. -/
def parked (w : Wait) : State :=
  let s := ganged { Ctx.zero with wait := some w, since := some 0 }
  { s with ctl := { s.ctl with now := 100 } }

theorem witness_ContextWakes : (∀ w ∈ [Wait.wfe 0, .wfe 1, .wfe 100, .pipe false, .pipe true, .join, .gwait, .event, .barrier, .fill, .drain, .watermark, .engine,
      .spline, .ticket, .yield [], .yield [1]], ((parked w).ctx? 0).map (·.wait) = some (some w) ∧ ((parked w).ctx? 0).map (·.halted) = some false) ∧
    100 ≤ (parked (.wfe 100)).waited 0 ∧ 11 ≤ (parked (.yield [1])).waited 0 ∧
    ((atCtx { Ctx.zero with replay := some ⟨[0x80004209], 0x1004, 0, 0, 0, 0, 0⟩ }).ctx? 0).map (·.replay.isSome) = some true := by
  and_intros <;> decide +kernel

/-- The cluster holds a copy of sixteen elements of HBM to local memory of which `n` are done. -/
def transferring (n : Nat) : State :=
  let s := weaveCopying ClReg.zero 0
  let q : BteCopy := ⟨0, 0, true, image (2 * 2 ^ 34 + 3 * 2 ^ 32) 0x4000 64 16 16 4, 0, 0, 0, n, 0, 0, none, 1, 1, 0, 0, []⟩
  s.modCluster 0 (fun k => { k with bte := [(4, q)] })
/-- The same copy from a page that no translation maps. -/
def straying : State :=
  let s := weaveCopying ClReg.zero 0
  let q : BteCopy := ⟨0, 0, true, image (2 * 2 ^ 34 + 3 * 2 ^ 32) 0x80000000 64 16 16 4, 0, 0, 0, 0, 0, 0, none, 1, 1, 0, 0, []⟩
  s.modCluster 0 (fun k => { k with bte := [(4, q)] })
def noCopy : BteCopy := ⟨0, 0, true, ClReg.zero, 0, 0, 0, 0, 0, 0, none, 0, 0, 0, 0, []⟩
/-- What the next part of cluster 0's copy 4 gives. -/
def partOf (s : State) : State × Nat × Option Stop :=
  let q := tgetD (s.cluster 0).bte 4 noCopy
  let n := min q.clr.cut.partSize (q.clr.cut.count - q.done)
  s.bteRun 0 4 q q.clr.cut (q.elemsOf q.clr.cut (q.done + n) q.clr.cut.count) (q.elemsOf q.clr.cut q.done (q.done + n)) 0
/-- The queue of die 0 holds `n` shoot-downs of everything. -/
def shooting (n : Nat) : State :=
  let s := mapped (atCtx Ctx.zero)
  { s with host := { s.host with bootstat := 0 }, eng := { s.eng with sdq := [(0, List.replicate n ⟨2, 0, 5, 0, 0⟩)] } }

theorem witness_MemoryAndShootdownEvents :
    (((mapped (atCtx Ctx.zero)).modCore 0 (fun k => { k with sb := [⟨0, false, 0x4000, [1], false, false, 0⟩] })).core 0).sb ≠ [] ∧
    (∀ w ∈ [Wait.port 3, .join], let s := (parked w).setBench 3 { Bench.zero with port := [.ctx 0, .ctx 5] }
      (s.bench 3).port = .ctx 0 :: [.ctx 5] ∧ (s.ctx? 0).map (·.wait) = some (some w) ∧ s.ctx? 5 = none) ∧
    (∀ s ∈ [transferring 8, straying],
     let q := tgetD (s.cluster 0).bte 4 noCopy
     (tget (s.cluster 0).bte 4).isSome = true ∧ 0 < min q.clr.cut.partSize (q.clr.cut.count - q.done)) ∧
    (partOf (transferring 8)).2.2.isNone = true ∧ (match (partOf straying).2.2 with
      | some (.elem _ _ _ _) => true
      | _ => false) = true ∧
    (let s := transferring 16
     let q := tgetD (s.cluster 0).bte 4 noCopy
     q.clr.cut.count ≤ q.done ∧ s.issuer q = true ∧ s.issuer { q with gen := 1 } = false) ∧
    homeDie (0x4000 / 64 * 64) = 0 ∧ homeDie (0x6000 / 64 * 64) = 1 ∧
    ((shooting 0).bootHold = false ∧ (tgetD (shooting 0).eng.sdq 0 []).length < Config.shootdownQueue) ∧
    ((shooting 1).usesOpen ⟨2, 0, 5, 0, 0⟩ = false ∧ (tgetD (shooting 1).eng.sdq 0 []).length < Config.shootdownQueue) := by and_intros <;> decide +kernel

/-- Bench 0 runs a block released at 0, whose first bundle anchors 40 ticks later; the bench is held at FCNT 40. -/
def lateAnchor : State :=
  framing (atSlot .c { guarded with busy := true, bubble := 5, pc := 0x1000
                                    halves := [(0, ⟨0xFD8, 0x1000, 2, [3], [0x7D010403, 0xFC0000A0], 0, 0, true⟩)] }) 40
/-- The frame plane held by a cause, at FCNT 20. -/
def holding (c : Cause) (held : Nat) : State :=
  let s := framing (atSlot .c guarded) 20
  { s with frame := { s.frame with causes := [c], held := held, holdmax := 5, tenonHeld := [0], posts := [(0, 3)], staged := [(0, sramBase, 1)] } }
/-- The package aligned as its own leader with hold horizon 256; its aligned launch runs, with demand of 3 ticks at FCNT 20. -/
def alignedState : State :=
  let s := framing (atSlot .c guarded) 20
  { s with
    frame := { s.frame with launch := some { demoFrame with align := true } }
    host := { s.host with bootstat := 0, alignstat := BitVec.ofNat 64 (2 ^ 63 + 256), notices := [(20, (3, 1)), (276, (3, 1))] } }

theorem witness_FrameTickEvents :
    (let s := (framing (atSlot .c { guarded with halves := [(0, ⟨0xFD8, 0x1000, 1, [], [], 0, 0, false⟩)] }) 10)
     (s.bench 0).halves.any (fun h => !h.2.ready && decide (h.2.readyAt ≤ s.ctl.now)) = true ∧ s.frame.pending = false ∧
       s.frame.launch = some demoFrame ∧ s.releaseNow 0 = true) ∧
    (framing (atSlot .c guarded) 110).releaseNow 0 = true ∧ lateAnchor.anchorDue 0 = true ∧ alignedState.remoteDue = true ∧
    ((holding ⟨2, 0, 0, 0⟩ 5).frame.held ≠ 0 ∧ (holding ⟨2, 0, 0, 0⟩ 5).frame.causes.any (holding ⟨2, 0, 0, 0⟩ 5).remains = false) ∧
    (holding ⟨2, 0, 0, 0⟩ 6).frame.holdmax.toNat < (holding ⟨2, 0, 0, 0⟩ 6).holdTime ∧
    ((holding ⟨4, 0, 0, 0⟩ 5).frame.launch = some demoFrame ∧ demoFrame.morts[0]? = some ⟨0, 50, 0, true, [(0, 0, 4096)], 1⟩ ∧
      0 ∈ (holding ⟨4, 0, 0, 0⟩ 5).frame.openM ∧ 0 ∈ (holding ⟨4, 0, 0, 0⟩ 5).frame.tenonHeld ∧ (holding ⟨4, 0, 0, 0⟩ 5).allPosted 0 = true) ∧
    (let s := { holding ⟨4, 0, 0, 0⟩ 5 with frame := { (holding ⟨4, 0, 0, 0⟩ 5).frame with posts := [], staged := [] } }
     s.frame.launch = some demoFrame ∧ demoFrame.morts[0]? = some ⟨0, 50, 0, true, [(0, 0, 4096)], 1⟩ ∧ 0 ∈ s.frame.openM ∧ s.allPosted 0 = false) ∧
    alignedState.frame.remoteSlot = none ∧
    ({ alignedState with frame := { alignedState.frame with remoteSlot := some 2 } } : State).remoteDue = true ∧
    (63, 5) ∉ (holding ⟨2, 0, 0, 0⟩ 5).frame.lateLinks ∧ (63, 5) ∈ [(63, 5)] := by and_intros <;> decide +kernel

/-- Bench 0, at its tick 30, has an effect due. -/
def landing (e : Effect) : State := framing (atSlot .c { guarded with tick := 30, pend := [⟨30, 0, e⟩] }) 20
/-- The copy of `copying` in flight, with a granule asked. -/
def flying : State :=
  let s := copying (image 0 0x4000 64 16 16 4)
  { s with frame := { s.frame with copies := [(7, ⟨0, tgetD (s.bench 0).clr 15 ClReg.zero, 20, 0, 0, [], [⟨0x4000, false, 0, true, some 16, true, [], true⟩], [],
      [], 0, none, 0, false, 0x1000⟩)] } }
/-- What makes an acceptance. -/
theorem accept_spec {s : State} {b : Nat} {clr : ClReg} {kindBad : Bool} {faddr due : Nat} {linear : Option (Nat × Nat)} {es : List CopyElem}
    (h0 : clr.cut.row kindBad true false ((s.bench b).arena clr.cut) = 0) (h1 : s.copiesOf b < Config.copyLimit)
    (h2 : s.benchElems b clr.cut ((s.bench b).arena clr.cut) = .ok es)
    (h3 : timedPast clr.cut b s.frame.fcnt.toNat due (s.placed b clr.cut ((s.bench b).arena clr.cut)) = false)
    (h4 : s.engineOwned b clr.cut es = .ok ()) : ∃ u, s.acceptCopy b clr kindBad faddr due linear = .ok u := by
  simp only [State.acceptCopy, lowerCode, h0, h1, h2, h3, h4, need, bind, Except.bind, pure, Except.pure]
  simp

/-- Bench 0's jig has an iteration due, whose copy is accepted where `accept_spec` says. -/
def iterating (mode : Nat) : State :=
  let s := copying ClReg.zero
  s.setBench 0 { s.bench 0 with tick := 31, jig := ⟨jigProgram mode 10, 0, .run, 2, 10, 0, [3]⟩ }

def iterJig : Jig := ((iterating 0).bench 0).jig
/-- The cut list of that copy. -/
def templated : ClReg := iterJig.template (iterJig.sAt 2) (iterJig.dAt 2)

/-- The copy has one granule at 0x4000 to ask or sample and one element there; `pin` tells whether its page is pinned. -/
def sampling (write pin : Bool) (ecc : List (Nat × Nat × Nat)) : State :=
  let s := flying
  let r := image (if write then 2 ^ 46 else 0) 0x4000 64 16 16 4
  let q : Copy := ⟨0, r, 20, 0, 0, [⟨0, 0x4000, 0x4000, 0, identityLeaf⟩], [⟨0x4000, write, 0, true, some 20, false, [], false⟩], [], [1, 2], 0, none, 0,
    false, 0x1000⟩
  { s with frame := { s.frame with pinned := if pin then s.frame.pinned else [], flagEcc := ecc, copies := [(7, q)] } }
/-- The error that the element of the copy meets at its granule's slot. -/
def lostAt (s : State) : Option (Option CopyElem) := (tget s.frame.copies 7).map (fun q => 
  (q.broken s (fun x => q.clr.cut.inGranule 0x4000 x || q.reaches s.frame.fcnt.toNat x)).map (·.1))
/-- A store whose element lies in tensor SRAM. -/
def storing (pin : Bool) : State :=
  let s := sampling true true []
  let leaf : Leaf := { identityLeaf with pa := sramBase, nc := true }
  { s with frame := { s.frame with
      pinned := if pin then [⟨0, leaf⟩] else []
      copies := s.frame.copies.map (fun c => (c.1, { c.2 with elems := [⟨0, 0x4000, sramBase + 0x4000, 0, leaf⟩] })) } }
/-- The entry that channel 63 has on its way, within the package or from another. -/
def arriving (xpkg : Bool) (landed : List (Nat × W1024)) : State :=
  let s := channelling xpkg 0 landed
  { s with frame := { s.frame with channels := [(63, ⟨0, 0, 0, xpkg, 0, 0x10, 256, 2, 8, if xpkg then [] else [(20, 12, 5)], landed,
    if xpkg then [(20, 5)] else []⟩)] } }

theorem witness_FrameLandings :
    (∀ p ∈ [(Effect.isResult, Effect.a 5 7), (Effect.isMatrix, .slot 3 true ⟨[], [], []⟩), (Effect.isKeep, .keep 20 [(0, [1])]), (Effect.isLatch, .latch Latch.empty)],
      ((landing p.2).bench 0).pend.filter (fun e => decide (e.at_ ≤ 30) && p.1 e.eff) = [⟨30, 0, p.2⟩]) ∧
    (let s := { landing (.latch Latch.empty) with frame := { (landing (.latch Latch.empty)).frame with lpass := [(0, 20, Latch.empty)] } }
     s.frame.lpass.filter (fun e => e.1 == 0 && e.2.1 == s.frame.fcnt.toNat) = [(0, 20, Latch.empty)]) ∧
    ((tget flying.frame.copies 7).map (fun q => (q.bench, q.grans.length)) = some (0, 1)) ∧
    (let s := { landing (.latch Latch.empty) with frame := { (landing (.latch Latch.empty)).frame with lpass := [(0, 20, Latch.empty)] } }
     (s.setBench 0 { s.bench 0 with pend := [] }).frame.lpass = [(0, 20, Latch.empty)]) ∧
    (∀ w ∈ [false, true], lostAt (sampling w true []) = some none ∧ (lostAt (sampling w false [])).map (·.isSome) = some true) ∧
    ((sampling false true []).eccAt 0x4000 = none ∧ (sampling false true [(0x4000, 0, 9)]).eccAt 0x4000 = some (0, 9) ∧
      (sampling false true [(0x4000, 1, 0)]).eccAt 0x4000 = some (0 + 1, 0)) ∧
    (∀ p ∈ [true, false], (tget (storing p).frame.copies 7).map (fun q => (q.clr.cut.dir, (q.broken (storing p) (fun x => !isHbm x.pa || q.reaches 20 x)).isNone)) =
      some (1, p)) ∧
    (∀ x ∈ [false, true], ∀ l ∈ [[], [(19, 7), (20, 8)]], (tget (arriving x l).frame.channels 63).map (fun c =>
      (c.xpkg, c.flying.length, c.inbound.length, decide (c.landed.length < c.depth))) = some (x, if x then 0 else 1, if x then 1 else 0, l == [])) ∧
    (∀ l ∈ [[], [(19, 7), (20, 8)]], (tget (channelling false 0 l).frame.channels 63).map (fun c => decide (c.landed.length < c.depth)) = some (l == [])) ∧
    ((iterating 1).bench 0).jig.state = .run ∧ ((iterating 1).bench 0).jig.mode ≠ 0 ∧ ((iterating 0).bench 0).jig.mode = 0 ∧
    ((iterating 0).bench 0).tick = 10 + 1 + 2 * ((iterating 0).bench 0).jig.per ∧
    (templated.bytes = (image 0 0 0 16 2 4).bytes ∧ templated.addr = 0) ∧ (iterJig.anchor + iterJig.due + 2 * iterJig.per = 620) ∧
    ((image 0 0 0 16 2 4).cut.row false true false (((iterating 0).bench 0).arena (image 0 0 0 16 2 4).cut) = 0) ∧
    (iterating 0).copiesOf 0 < Config.copyLimit ∧
    (match (iterating 0).benchElems 0 (image 0 0 0 16 2 4).cut (((iterating 0).bench 0).arena (image 0 0 0 16 2 4).cut) with
      | .ok es => !timedPast (image 0 0 0 16 2 4).cut 0 (iterating 0).frame.fcnt.toNat 620
          ((iterating 0).placed 0 (image 0 0 0 16 2 4).cut (((iterating 0).bench 0).arena (image 0 0 0 16 2 4).cut)) && okay ((iterating 0).engineOwned 0 (image 0 0 0 16 2 4).cut es)
      | _ => false) = true := by and_intros <;> decide +kernel

/-- Frame queue 128 of address space 0 with one record: two frames of 1,024 ticks, one entry whose segment is two bundles, and the first
1 GiB pinned; `bits` are the record's. -/
def queued (bits : Nat) : State :=
  let s := tabled (atCtx Ctx.zero)
  let words (l : List Nat) : List Byte := l.flatMap (leBytes 8)
  let m := s.mem.rawPut 0x200000 (words [2, 1024 * 2 ^ 32 + 2 ^ 16 + 4, 1024 * 2 ^ 32 + 65536, 0x200040, 0, 0, 0, 0])
  let m := m.rawPut 0x200040 (words [10 * 2 ^ 32 + 3, 1, 0, 0, 0, 0x300000, 0, 0])
  let m := m.rawPut 0x300000 (words [2 ^ 62 + 2 * 2 ^ 32 + 8, 0, 0, 0, 3] ++ leBytes 4 0x7D010003 ++ leBytes 4 0xFD000001)
  let m := m.rawPut 0x400000 (words [0, 1])
  let m := m.rawPut 0x500000 (words [0x200000, 0x400000, 2 ^ 32 + bits, 0, 7, 9, 0, 0])
  { s with
    mem := m
    host := { s.host with
      bootstat := 0
      queues := [(128, { Queue.zero with cfg := BitVec.ofNat 64 (2 ^ 63 + 2 * 2 ^ 36), base := 0x500000, tail := 1 })] } }
/-- How the set-up of that record ends: 0 it stands, 1 it is refused, 2 an uncorrectable error ends it; and the words whose correctable
errors its reads met. -/
def setupOf (s : State) : Nat × List Nat :=
  let r := (s.buildFrame 128 0 0 (FrameRecord.ofBytes (s.recordBytes 128 0))).outcome
  ((match r.1 with
    | .ok _ => 0
    | .error none => 1
    | .error (some _) => 2), r.2)
/-- The demonstration launch runs, with no window open. -/
def running (f : Nat) : State :=
  let s := framing (atSlot .c guarded) f
  { s with frame := { s.frame with openM := [], pausebnd := 1 } }
/-- A weave launch in a given state. -/
def launched (st : LaunchState) (ended : List Nat) : State :=
  let s := ganged Ctx.zero
  { s with
    ctl := { s.ctl with now := 400000 }
    weave := { s.weave with launches := [(1, { demoLaunch with state := st, ended := ended })] }
    host := { s.host with bootstat := 0, queues := [(0, { Queue.zero with cfg := BitVec.ofNat 64 (2 ^ 63), records := [1] })] } }
/-- The launch's gang waits, on the dies given, while the gangs given run. -/
def dispatching (dies : Nat) (gs : Tbl Gang) : State :=
  let s := launched .ready []
  { s with weave := { s.weave with gangs := gs, launches := [(1, { demoLaunch with state := .ready, placed := [], dies := dies })] } }
/-- Whether a cluster is open to gang 0 of launch 1 on a die (R111, R127). -/
def openTo (s : State) (die i : Nat) : Bool :=
  decide (64 * die ≤ i ∧ i < 64 * die + 64) && s.fits { demoLaunch with state := .ready, placed := [], dies := 3 } i &&
    (match (s.dispatcher die).reserved with
      | some (x, y, z) => (x == 1 && y == 0) || z != i
      | none => true)
/-- Its gang stops. -/
def stopping (halted : List Nat) : State :=
  (ganged { Ctx.zero with wait := some (.pipe true) }).setGang 1 { demoGang with stopping := true, haltedRoles := halted }

theorem witness_LaunchEvents :
    (let s := queued 0
     let bs := s.recordBytes 128 0
     s.nextFrame = some 128 ∧ (FrameRecord.ofBytes bs).legal bs = true ∧ s.asidValid (s.queue 128).asid = true ∧ (FrameRecord.ofBytes bs).align = false ∧
       (setupOf s).1 = 0 ∧ s.recordBad 128 0 = false) ∧
    (let s := queued 1
     (FrameRecord.ofBytes (s.recordBytes 128 0)).legal (s.recordBytes 128 0) = false ∧ s.nextFrame = some 128) ∧
    (let s := queued (2 ^ 19)
     let bs := s.recordBytes 128 0
     (FrameRecord.ofBytes bs).legal bs = true ∧ s.asidValid 0 = true ∧ (FrameRecord.ofBytes bs).align = true ∧ s.aligned = false ∧ s.nextFrame = some 128) ∧
    (let s := running 200
     s.frame.launch = some demoFrame ∧ s.frame.running = true ∧ demoFrame.nframes * demoFrame.flen ≤ s.frame.fcnt.toNat ∧
       s.frame.benches.all (fun b => !b.2.busy) = true ∧ s.frame.openM = [] ∧ s.frame.latches = [] ∧ s.frame.pauseReq = none ∧
       s.frame.pauseAsked = none ∧ (s.queue 128).roomFor 1 = true) ∧
    (let q : Queue := { Queue.zero with cfg := BitVec.ofNat 64 (2 ^ 36) }
     q.roomFor 2 = true ∧ ({ (running 200).frame with pauseAsked := some (128, 0) } : Frame).pauseAsked ≠ none) ∧
    (let s := { running 60 with frame := { (running 60).frame with pauseReq := some (128, 0x600000, 20) } }
     s.pauseNow = true) ∧ 15 + 4 * (running 20).frame.pausebnd.toNat < (running 20).frame.fcnt.toNat ∧
    (launched .waiting []).readyNow 1 { demoLaunch with state := .waiting, ended := [] } = true ∧
    (demoLaunch.age < 3 ∧ demoLaunch.readyAt + 131072 * (demoLaunch.age + 1) ≤ (launched .ready []).ctl.now ∧ demoLaunch.undeferred ≠ [0, 1] ∧
      demoLaunch.readyAt + Config.deferralTicks ≤ (launched .ready []).ctl.now) ∧
    ([0].length = demoLaunch.ngang ∧ demoLaunch.faults = [] ∧ (launched .running [0]).requestsOpen 1 = false ∧
      ((launched .running [0]).queue 0).roomFor 1 = true) ∧
    (((dispatching 1 []).candidates 0).length = 1 ∧ (dispatching 1 []).dispatchable 1 = false ∧ (dispatching 3 []).dispatchable 1 = true ∧
      ({ demoLaunch with state := .ready, placed := [] } : Launch).waits = true ∧ (0 : Nat) ∉ ([] : List Nat)) ∧
    (openTo (dispatching 3 []) 0 0 = true ∧ openTo (dispatching 3 []) 1 64 = true ∧
      (let s := dispatching 3 [(5, demoGang)]
       openTo s 0 0 = false ∧ openTo s 0 1 = true) ∧
      (let s := dispatching 3 []
       let t : State := { s with weave := { s.weave with dispatchers := [(0, { s.dispatcher 0 with reserved := some (2, 0, 0) })] } }
       openTo t 0 0 = false ∧ openTo t 0 1 = true) ∧ openTo (dispatching 3 []) 1 0 = false) ∧
    (stopping []).haltsNow 1 { demoGang with stopping := true, haltedRoles := [] } 0 = true ∧
    (stopping [0]).savesNow 1 { demoGang with stopping := true, haltedRoles := [0] } = true := by and_intros <;> decide +kernel

theorem witness_QueueEvents :
    (let s := launched .running []
     s.bootHold = false ∧ idxSub 1 (s.queue 0).head ≤ 2 ^ (s.queue 0).logn ∧ 2 ^ (s.queue 0).logn < idxSub 2 (s.queue 0).head ∧
       (s.queue 0).enabled = true ∧ (s.queue 1).enabled = false ∧ (s.queue 0).chead = (s.queue 0).ctail ∧ (s.queue 127).records = [] ∧
       (s.queue 0).records = 1 :: [] ∧ s.hasWork 0 = true ∧ s.hasWork 1 = false ∧ (s.queue 0).room = true) ∧
    (∀ st ∈ [LaunchState.ready, .running, .preempted], (tget (launched st []).weave.launches 1).map (·.state) = some st) ∧
    (let s := { running 20 with host := { (running 20).host with bootstat := 0 } }
     s.bootHold = false ∧ s.frame.launch = some demoFrame ∧ demoFrame.queue = 128 ∧ s.frame.running = true ∧ s.frame.pauseReq = none ∧
       s.frameAligned = false ∧ s.frame.pauseAsked = none) ∧ alignedState.alignedRuns = true ∧
    (let s := { alignedState with host := { alignedState.host with bootstat := 5 } }
     s.bootHold = false ∧ s.frameAligned = true ∧ s.isLeader = false ∧ s.frame.pauseReq = none ∧ s.frame.pauseAsked = none) ∧
    (({ alignedState with frame := { alignedState.frame with pauseAsked := some (128, 9) } } : State).alignedRuns = true) ∧
    ((launched .running []).queue 1).records = [] ∧ tget (launched .running []).host.parked 130 = none ∧
    ((launched .running []).queue 130).held = none ∧ (launched .running []).hasWork 130 = false ∧
    (∀ z ∈ [0, 5], let k : Queue := { Queue.zero with cfg := BitVec.ofNat 64 z, completions := [⟨0, 0, [], false⟩], armed := true }
      k.room = true ∧ k.window = false ∧ (fld k.cfg.toNat 0 16 = 0 ↔ z = 0)) := by and_intros <;> decide +kernel

/-- Bytes of a legal connection descriptor. -/
def legalDesc : List Byte := List.replicate 24 0 ++ leBytes 8 (2 ^ 48 + 1024 * 2 ^ 32 + 1) ++ List.replicate 224 0
/-- The package out of boot hold with connection 5, which has the tag-9 request of the kind given; group 5 waits; the switch has a first
contribution of two. -/
def fabric (op : Nat) (cached : Bool) (armed : Option Nat) : State :=
  let s := grouped 1
  let r : RmaReq := ⟨1, 0, 0, 0, 0, 11, 0, true, 0, op, 0, none, 5, 0x4000, 0x5000, 2, 9, 0, 0, armed, 0, none⟩
  { s with
    eng := { s.eng with conns := [(5, ⟨0, legalDesc, cached, 0, none⟩)], reqs := [(4, r)], switch := [(9 * 2 ^ 32 + 1, ⟨9, 1, 2, 0, false, 1, 50, [(0, [7])], false⟩)] }
    host := { s.host with bootstat := 0, ccspill := 1, ccdesc := [(0x18, 1), (0x1D, 4), (0x1E, 1)] }
    ctl := { s.ctl with now := 50 } }

/-- A command on a connection stands, due at tick `due`; `spill` is CCSPILL. -/
def commanded (opens : Bool) (asid conn : Nat) (desc : List Byte) (due spill : Nat) : State :=
  let s := fabric 0 true none
  { s with host := { s.host with ccCmd := some ⟨opens, asid, conn, desc, due⟩, ccspill := BitVec.ofNat 64 spill } }
/-- A descriptor is well formed (R418). -/
def formed (desc : List Byte) : Bool :=
  let w := leNat ((desc.drop 0x18).take 8)
  decide (fld w 48 8 ≠ 0 ∧ 1024 ≤ fld w 32 16 ∧ fld w 32 16 ≤ 9216 ∧ ∀ x ∈ desc.drop 0x20, x = 0)

theorem witness_FabricEvents :
    (∀ op ∈ [0, 1, 2, 3, 5], let s := fabric op true none
      (tget s.eng.reqs 4).map (fun r => (r.op, r.status, r.armed, r.len)) = some (op, none, none, 2) ∧ s.connCached 5 = true ∧
      (fabric op false none).connCached 5 = false) ∧
    okay ((grouped 1).reach 0 true .write 0x4000 2) = true ∧ okay ((grouped 1).reach 0 true .read 0x4000 2) = true ∧
    (let s := fabric 4 true (some 9)
     (s.eng.reqs.find? (fun z => z.2.conn == 5 && z.2.armed == some 8)) = none ∧
       (s.eng.reqs.find? (fun z => z.2.conn == 5 && z.2.armed == some 9)).map (fun r => r.2.op) = some 4) ∧
    (let s := fabric 3 true none
     (tget s.eng.conns 5).map (fun k => (decide (k.retry ≤ 0), decide (k.retry ≤ 1))) = some (false, true) ∧
       okay ((s.setReq 4 { (tgetD s.eng.reqs 4 ⟨0, 0, 0, 0, 0, 0, 0, true, 0, 0, 0, none, 0, 0, 0, 0, 0, 0, 0, none, 0, none⟩) with retries := 1 }).startReq 4) = true) ∧
    (∀ op ∈ [0, 1], let s := fabric op true (some 9)
     (s.eng.reqs.find? (fun z => z.2.conn == 5 && z.2.armed == some 9)).map (fun r => (r.1, r.2.op)) = some (4, op) ∧
       (s.weave.gangs.find? (fun z => z.2.launch == 1 && z.2.idx == 0)).map (fun z => z.2.cores[0]?) = some (some 0) ∧
       okay ((if op = 1 then (s.useConn 5).send (.sendAnswer 5 9 true) else ((s.useConn 5).send (.sendAnswer 5 9 true)).drainAll 0).startReq 4) = true) ∧
    ((fabric 0 true none).bootHold = false ∧ (fabric 0 true none).host.ccCmd = none ∧ (commanded true 0 5 [] 50 1).host.ccCmd.isSome = true) ∧
    ((commanded false 0 5 [] 50 1).ctl.now < 51 ∧ 50 ≤ (commanded false 0 5 [] 50 1).ctl.now) ∧
    (tget (commanded false 0 6 [] 50 1).eng.conns 6 = none ∧ (tget (commanded false 0 5 [] 50 1).eng.conns 5).map (·.asid) = some 0) ∧
    ((commanded true 0 6 [] 50 0).host.ccspill = 0 ∧ (commanded true 0 6 [] 50 1).host.ccspill ≠ 0 ∧ formed legalDesc = true ∧ formed [] = false) ∧
    (let e : SwitchEntry := ⟨9, 1, 2, 0, false, 1, 50, [(0, [7])], false⟩
     tget (fabric 0 true none).eng.switch (9 * 2 ^ 32 + 1) = some e ∧ e.agrees ⟨9, 1, 2, 1, 0, false, 1, 0, [8]⟩ = true ∧ e.parts.length + 1 = e.nmem ∧
       ({ e with nmem := 3 } : SwitchEntry).agrees ⟨9, 1, 3, 2, 0, false, 1, 0, [8]⟩ = true ∧ e.parts.length + 1 < 3 ∧ e.deadline ≤ (fabric 0 true none).ctl.now) ∧
    (let g := (fabric 0 true none).group 5
     g.asid.isSome = true ∧ g.state = 1 ∧ g.gid = 9 ∧ g.sent = 0) := by and_intros <;> decide +kernel

/-- The package aligns, with `m` other members and DTAG 7; port 3 is enabled. -/
def aligning (m : Nat) : State :=
  let s := atCtx Ctx.zero
  { s with host := { s.host with bootstat := 0, aligning := true, ports := [3], alignctl := BitVec.ofNat 64 (m * 2 ^ 40 + 7) } }
/-- A domain of two members at FCNT 600, with a request for frame 2 and the receipts given. -/
def agreed (l : List (Option Nat × Nat × Option Nat)) : State :=
  let s := framing (atSlot .c guarded) 600
  { s with
    frame := { s.frame with launch := some { demoFrame with align := true } }
    host := { s.host with
      bootstat := 0, alignstat := BitVec.ofNat 64 (2 ^ 63 + 256), alignctl := BitVec.ofNat 64 (2 ^ 40), fclkGot := l
      fclkreq := BitVec.ofNat 64 (2 ^ 63 + 2) } }

theorem witness_DeviceAndAlignmentEvents :
    (let s := { atCtx Ctx.zero with host := { Hst.reset with bootstat := 0, fclkreq := BitVec.ofNat 64 (2 ^ 63) } }
     s.bootHold = false ∧ s.tableHeld 15 = false ∧ s.launchRuns = false ∧ s.frameRuns = false ∧ fld 0x0600000000000000 56 4 ≤ 6 ∧ 6 < fld 0x0700000000000000 56 4) ∧
    ((launched .running []).launchRuns = true ∧ (launched .running []).bootHold = false) ∧
    (let s := { running 200 with host := { (running 200).host with bootstat := 0, fclkreq := BitVec.ofNat 64 (2 ^ 63 + 2) } }
     s.clockDue = true ∧ s.frameRuns = true ∧ s.bootHold = false) ∧
    (let s := { running 20 with frame := { (running 20).frame with pinned := [⟨0, { identityLeaf with typed := true, tbl := 15 }⟩] } }
     s.tableHeld 15 = true) ∧
    (State.reset.bootHold = true ∧ (⟨true, true, true, 131071, 0, 0, 0, 0, [3], []⟩ : BootImage).pkg < 2 ^ 17) ∧
    (regionOf 0xBFFFFFFFF8 = .hbm ∧ 0xBFFFFFFFF8 + 8 ≤ hbmEnd) ∧
    (∀ p ∈ [(256, 352), (65536, 131168)], p.1 % 64 = 0 ∧ 256 ≤ p.1 ∧ p.1 ≤ 65536 ∧ p.1 + 96 ≤ p.2 ∧ p.2 ≤ 131168) ∧ 131071 < 2 ^ 17 ∧
    (let s := aligning 1
     s.host.aligning = true ∧ ([(5, 1, 7)] : List (Nat × Nat × Nat)).length + 1 = s.members ∧ 5 ≠ s.package ∧ 3 ∈ s.host.ports ∧
       fld s.host.alignctl.toNat 0 32 = 7 ∧ (400 + 1) / 2 ≤ 200 ∧ max 256 ((65504 + 32 + 63) / 64 * 64) = 65536 ∧
       65536 < max 256 ((65505 + 32 + 63) / 64 * 64)) ∧
    (∀ l ∈ [[(none, 2, some 344), (some 5, 2, some 344)], [(none, 2, none), (some 5, 2, none)]], let s := agreed l
     s.clockDue = true ∧ s.aligned = true ∧ s.frame.fcnt.toNat % s.frame.flen.toNat = 0) ∧
    (agreed [(none, 2, some 344)]).clockDue = false ∧ (agreed [(none, 2, some 344), (some 5, 2, some 345)]).clockDue = false ∧
    ({ alignedState with frame := { alignedState.frame with remoteSlot := some 2 } } : State).alignedRuns = true ∧
    tget alignedState.host.notices (max (0 + alignedState.horizon) alignedState.frame.fcnt.toNat) = none ∧
    alignedState.isLeader = true ∧ alignedState.alignedRuns = true ∧ tget alignedState.host.notices (21 + alignedState.horizon) = none ∧
    tget alignedState.host.notices (20 + alignedState.horizon) = some (3, 1) ∧ alignedState.frame.endAt = none ∧
    ({ alignedState with frame := { alignedState.frame with pending := true } } : State).frame.pending = true := by and_intros <;> decide +kernel

/-! ### Witnesses: encoding, the step, frames and invariants -/

/-- A code of a format stands for a number. -/
def isNum (f : Fmt) (c : Nat) (q : Rat) : Bool :=
  match f.value c with
  | .fin d => decide (d.rat = q)
  | _ => false
theorem witness_LanesAndFlags : (∀ n ∈ [1, 8, 16, 32, 64], 0 < n) ∧
    (∀ p ∈ [(f32, ((2 ^ 25 - 1) * 2 ^ 103 : Rat), 0x3F800000), (f16, (65520 : Rat), 0x3C00), (bf16, ((2 ^ 9 - 1) * 2 ^ 119 : Rat), 0x3F80)],
      isNum p.1 p.2.2 1 = true ∧ p.2.2 < 2 ^ p.1.width ∧ p.2.2 + 1 < p.1.infCode ∧ (1 : Rat) < p.2.1 ∧ (⟨true, 1, 0⟩ : Dy).rat = -1 ∧
      (⟨false, 2 ^ 30 + 1, -30⟩ : Dy).rat ≠ 1 ∧ p.2.1 ≤ (⟨false, 1, 128⟩ : Dy).rat ∧ p.1.value p.1.nanCode = .nan ∧
      p.1.value p.1.infCode = .inf false ∧ isNum p.1 0 0 = true ∧
      (⟨false, 1, 1⟩ : Dy).rat = (⟨false, 1, 0⟩ : Dy).rat + (⟨false, 1, 0⟩ : Dy).rat ∧
      (⟨false, 1, 0⟩ : Dy).rat + (⟨true, 1, 0⟩ : Dy).rat = 0 ∧ (⟨false, 1, 0⟩ : Dy).rat * (⟨false, 1, 1⟩ : Dy).rat = (⟨false, 1, 1⟩ : Dy).rat ∧
      (⟨false, 3, 0⟩ : Dy).rat = (⟨false, 1, 0⟩ : Dy).rat * (⟨false, 1, 1⟩ : Dy).rat + (⟨false, 1, 0⟩ : Dy).rat ∧
      (⟨false, 3, 0⟩ : Dy).rat * (⟨false, 1, 1⟩ : Dy).rat = (⟨false, 6, 0⟩ : Dy).rat) ∧
    (isNum f32 1 (1 / 2 ^ 149) = true ∧ isNum f32 0x7F7FFFFF ((2 ^ 24 - 1) * 2 ^ 104) = true ∧ isNum f32 0xBF800000 (-1) = true ∧
      ((2 ^ 25 - 1) * 2 ^ 103 : Rat) ≤ 2 ^ 149) ∧
    (f32.value (fsub f32 .rne 0 (expT 1) (expT 0)).1 ≠ .nan ∧ isNum f32 0x3F000000 (1 / 2) = true ∧
      f32.value (fsub f32 .rne 0 (expT 65) (expT 64)).1 ≠ .nan) ∧
    (∀ fmt ∈ [0x82, 0x83, 0xC3, 0xA3, 0xE3], fmt < 256 ∧ isB8 fmt = true ∧ 2 ≤ fmt % 8) ∧
    (intRange 1 = some (-128, 127) ∧ ieeeOf 0x12 = some bf16 ∧ (match elemValue 0x83 0x42 with
      | .fin x => decide (x.m ≠ 0)
      | _ => false) = true) ∧
    ((⟨false, 3, 0⟩ : Dy).rat = (⟨false, 3, 0⟩ : Dy).rat * 2 ^ (127 - (127 : Int)) ∧ ((⟨false, 3, 0⟩ : Dy).rat - (3 : Int)).abs ≤ 1 / 2 ∧
      ((⟨false, 5, -1⟩ : Dy).rat - (2 : Int)).abs = 1 / 2) := by
  and_intros <;> decide +kernel
theorem witness_DecodeEncode : ∀ i ∈ ([.add ⟨0, 0, 0, 0, 0⟩, .add ⟨1, 15, 63, 63, 63⟩, .br ⟨1, 15, 1048575⟩, .ext ⟨16777215⟩, .pause ⟨1, 262143⟩,
    .bhdr ⟨1, 255, 3, 3, 1, 1, 255⟩, .mmBf16 ⟨1, 15, 15, 63, 1, 7⟩, .osmUpd ⟨1, 15, 15, 15, 63⟩] : List Instr), i.wf = true ∧ (encode i).isSome = true := by
  decide +kernel
theorem witness_EncodeDecode : 0x7FFFFFFF < 2 ^ 32 ∧ decode 0 = .ok (.add ⟨0, 0, 0, 0, 0⟩) ∧ decode 0x7FFFFFFF = .ok (.ext ⟨0xFFFFFF⟩) :=
  ⟨by decide, rfl, rfl⟩

/-- A word that a run gives: the one syllable of the group, legal, and decoded. -/
noncomputable def groupOf (r : Run (List (Nat × Nat) × Seg × State)) (pc : Nat) : Bool :=
  match r with
  | .ok ([(a, w)], _, _) => decide (a = pc) && groupLegal [w] && okay (decode w)
  | _ => false

theorem witness_StepRunsInstruction_event : let s := { State.reset with ctl := { Ctl.reset with agenda := [.event (.pcapWrite 0), .event (.link 5)] } }
    s.ctl.agenda = .event (.pcapWrite 0) :: [.event (.link 5)] ∧ (∀ t, exec (.pcapWrite 0) t ≠ .fault .noSubject) ∧
    exec (.link 5) State.reset = .fault .noSubject := ⟨rfl, fun _ h => (nomatch (show Host.Outcome.next _ = Host.Outcome.fault Fault.noSubject from h)), rfl⟩
theorem witness_StepRunsInstruction_group : let s := State.reset.placeGroup [0x88000000]
    let t : State := { s with ctl := { s.ctl with agenda := [] } }
    let pc := placeBase + 0x28
    s.ctl.agenda = .issue 0 :: [] ∧ (t.ctx? 0).map (·.pc.toNat) = some pc ∧ groupOf ((t.beginGroup 0 pc pc).fetchGroup 0 pc) pc = true ∧
    (match t.segOf 0 pc with
      | .ok g => (match t.fetchSyl 0 g pc with
          | .ok (w, _) => sOf w
          | _ => false) && t.execBit 0 g 0 == some true && (match t.codeLine 0 (pc / 64 * 64) with
          | some (pa, _, u) => okay (u.eccMeet pa 64)
          | none => false)
      | _ => false) = true := by and_intros <;> decide +kernel
theorem witness_StepRunsInstruction_link : (let h : Half := ⟨0xFD8, 0x1000, 2, [3], [0x7D010003, 0xFD000001], 0, 0, true⟩
     h.next = 0 ∧ h.body + 4 * h.nsyl = 0x1008) ∧
    (let h : Half := ⟨0xFD8, 0x1000, 2, [3], [0x7D010003, 0xFD000001], 0x1FD8, 0, true⟩
     let s := atSlot .c { guarded with halves := [(0, h), (1, ⟨0x1FD8, 0x2000, 2, [3], [0x7D010003, 0xFD000001], 0, 0, true⟩)] }
     h.next ≠ 0 ∧ (s.chained 0 (s.bench 0) h.next).map (·.body) = some 0x2000) := by and_intros <;> decide +kernel
theorem witness_StepRunsInstruction_bundle : let s := State.reset.placeBundle (bundleOf 0x88000000 7)
    let t : State := { s with ctl := { s.ctl with agenda := [] } }
    let p := (s.bench 0).examine 4 ⟨(s.bench 0).half, (s.bench 0).pc⟩
    s.ctl.agenda = .bundle 0 :: [] ∧ (s.bench 0).busy = true ∧ (s.bench 0).bubble ≤ (s.bench 0).tick ∧ p.2 = true ∧
    (match tget (s.bench 0).halves p.1.half with
      | some h => (match h.bundle p.1.addr with
          | .ok ws => (match bundleSlots p.1.addr ws with
              | some ss => ss.all (fun x => okay (decode x.word) && !isHaltSyl x.word) && okay (decode (ws.getD 0 0)) &&
                  (match (t.setBench 0 { s.bench 0 with pc := p.1.addr, half := p.1.half }).anchoring (s.bench 0) ss with
                    | .go => true
                    | _ => false) && (t.trapIn 0 ss).isNone
              | none => false)
          | _ => false)
      | none => false) = true := by and_intros <;> decide +kernel
theorem witness_StepRunsInstruction_plan : State.reset.ctl.agenda = [] := rfl

theorem witness_IllegalAndNullified : let s := atCtx Ctx.zero
    (s.ctl.cur = .ctx 0 ∧ (s.ctx? 0).isSome = true) ∧ legalW 0 0 32 0 0 = false ∧ legalW 0x28 2 0 32 0 = false ∧ legalW 0x2A 3 0 48 0 = false ∧
    legalW 0x40 0 31 32 32 = false ∧ legalW 0x50 0 0 0 0 = false ∧ (takesExt 0 0 = false ∧ takesExt 0x40 0 = false) ∧
    (∀ r ∈ [(0, 0, 31, 31, 55), (0x28, 2, 31, 31, 63), (0x2A, 3, 31, 31, 63), (0x40, 0, 47, 47, 47)], legalW r.1 r.2.1 r.2.2.1 r.2.2.2.1 r.2.2.2.2 = true ∧
      immOk s.ctl.ext r.1 r.2.1 r.2.2.2.2 = true ∧ (s.ctx 0).guard 7 = false) ∧
    (immOk (some 63) 0x18 0 0 = true ∧ immOk none 0x18 0 0 = false ∧ immOk none 0x7C 0 0 = false ∧ immOk none 0x5D 2 33 = false) ∧
    (let t := atSlot .v0 Bench.zero
     t.ctl.cur = .slot 0 .v0 ∧ legalF 0x50 0 64 0 0 = false ∧ legalF 0 0 32 0 0 = false ∧ slotTakes .v0 0 0 = false ∧ slotTakes .v0 0x50 0 = true ∧
       (t.bench 0).width .v0 / 32 = 8 ∧ legalF 0x66 3 62 31 63 = true ∧ legalF 0x66 3 63 31 63 = true ∧
       (∀ p ∈ [(SlotName.v0, 0x50, 0, 63, 63, 63), (.a0, 0, 0, 31, 31, 31), (.v1, 0x66, 3, 62, 31, 63), (.c, 0x7C, 3, 31, 31, 4), (.m, 0x6B, 0, 1, 2, 31)],
         slotTakes p.1 p.2.1 p.2.2.1 = true ∧ legalF p.2.1 p.2.2.1 p.2.2.2.1 p.2.2.2.2.1 p.2.2.2.2.2 = true ∧
           immOk none p.2.1 p.2.2.1 p.2.2.2.2.2 = true ∧ (t.bench 0).rg 15 = false)) ∧
    (0x80800000 < 2 ^ 32 ∧ okay (decode 0x80800000) = true ∧ fld 0x80800000 20 4 = 8) ∧ okay (decode 0x19000000) = false := by
  and_intros <;> decide +kernel

/-- Whether a run of an instruction retires. -/
def retired (r : Answer) : Bool :=
  match r with
  | .next t => decide (t.ctl.verdict = .retired)
  | _ => false

theorem witness_WeaveRegisterFrame : retired (exec (.add ⟨1, 0, 31, 5, 7⟩) (ganged pointers)) = true ∧ retired (exec (.yfmaF32 ⟨1, 0, 47, 32, 33⟩) (ganged pointers)) = true ∧
    retired (exec (.sltiu ⟨1, 0, 0, 5, 255⟩) (ganged pointers)) = true ∧ retired (exec (.popc ⟨1, 0, 31, 5⟩) (ganged pointers)) = true ∧
    retired (exec (.lih ⟨1, 0, 31, 16383⟩) (ganged pointers)) = true ∧ retired (exec (.lea ⟨1, 0, 31, 5, 6, 3⟩) (ganged pointers)) = true ∧
    retired (exec (.ins ⟨1, 0, 31, 5, 0⟩) (withExt (ganged pointers) 63)) = true := by and_intros <;> decide +kernel
theorem witness_BenchRegisterFrame : retired (exec (.add ⟨1, 0, 31, 5, 7⟩) (atSlot .a0 edge)) = true ∧ retired (exec (.vfmaF32 ⟨1, 0, 63, 0, 33⟩) (atSlot .v0 edge)) = true ∧
    retired (exec (.sltiu ⟨1, 0, 31, 5, 255⟩) (atSlot .a1 edge)) = true ∧ retired (exec (.pnot ⟨1, 0, 15, 5⟩) (atSlot .a0 edge)) = true ∧
    retired (exec (.lih ⟨1, 0, 31, 16383⟩) (atSlot .a0 edge)) = true ∧ retired (exec (.lea ⟨1, 0, 31, 5, 6, 3⟩) (atSlot .a1 edge)) = true ∧
    retired (exec (.extr ⟨1, 0, 31, 5, 0⟩) (withExt (atSlot .a0 edge) 63)) = true ∧ retired (exec (.vcvtF32I32 ⟨1, 0, 63, 5, 4⟩) (atSlot .v1 edge)) = true := by
  and_intros <;> decide +kernel
theorem witness_RegisterFiles : (7 < 8 ∧ 32 ≤ 47 ∧ 15 < 16) ∧ (∀ p ∈ [(0, 1024), (512, 512), (0, 0)], p.1 + p.2 ≤ 1024) := by decide
theorem witness_StoredBytes : (∀ off, regionOf 0x4000 ≠ .device off) ∧ (∀ off, regionOf (hostBase + 8) ≠ .device off) ∧ (∀ off, regionOf sramBase ≠ .device off) := by
  refine ⟨fun _ h => ?_, fun _ h => ?_, fun _ h => ?_⟩
  · rw [show regionOf 0x4000 = .hbm by decide] at h; cases h
  · rw [show regionOf (hostBase + 8) = .host by decide] at h; cases h
  · rw [show regionOf sramBase = .sram 0 0 by decide] at h; cases h
theorem witness_CanonicalKept : State.reset.Canonical ∧ ∃ t, step State.reset = .next t := ⟨⟨by decide, by decide⟩, _, rfl⟩

/-! ### Witnesses for the further clauses of the statements -/

theorem witness_WaitsAndEndings_bound : let s := waiting 0 (some 0)
    let t : State := { s with ctl := { s.ctl with agenda := [.phase phWaits] } }
    Act.phase phWaits ∉ s.ctl.agenda ∧ ctxOk t 0 0x25 0 0 31 2 3 = true ∧ (100 : W64).toNat ≤ t.waited 0 ∧
      Act.phase phWaits ∈ t.ctl.agenda := by and_intros <;> decide +kernel

theorem witness_PipeFormsAndPorts_same_port : let s := piped [.value 1, .value 8, .value 9] false false
    ctxOk s 0 0x39 3 15 31 48 48 = true ∧ ((s.src 0 48).2.conPipe 0 48).map (fun p => p.2.values.length) = some 2 ∧
      (s.src 0 48).1.toNat = 1 := by and_intros <;> decide +kernel

/-- Context 0's replay unit is to run the block at its syllable `pos`, in execution `k` of those after the first. -/
def repeating (r : Replay) : State :=
  let s := atCtx { Ctx.zero with replay := some r }
  { s with ctl := { s.ctl with agenda := [.replay 0, .phase 0] } }
/-- A syllable of the block, strided, decodes and names no port; `last` tells whether it ends its group. -/
noncomputable def unitRuns (r : Replay) (n : Nat) (last : Bool) : Bool :=
  match r.words[r.pos + n]? with
  | some w =>
    let v := strideWord r.fm (r.k * r.stride) w
    sOf v == last && okay (decode v) && (match sigW (majOf v) (xOf v) with
      | some g => (srcFields g (dOf v) (aOf v) (bOf v) ++ dstFields g (dOf v)).all (fun q => !isQ q)
      | none => true)
  | none => false
/-- The same block runs while the group at context 0's PC reads what it writes. -/
def awaited : State :=
  let s := State.reset.placeGroup [0xC0086188]
  s.modCtx 0 (fun x => { x with replay := some ⟨[0xC0086188], 0x1004, 0, 0, 0, 0, 0⟩ })
theorem witness_WeaveReplay_unit :
    (∀ r ∈ ([⟨[0xC0086188], 0x1004, 0, 0, 0, 0, 0⟩, ⟨[0xC0086188, 0xC008A18E], 0x1004, 7, 1, 2, 1, 1⟩, ⟨[0xC0086188], 0x1004, 4, 3, 2, 2, 0⟩] : List Replay),
      (repeating r).ctl.agenda = .replay 0 :: [.phase 0] ∧ ((repeating r).ctx 0).replay = some r ∧ r.k ≤ r.count ∧ unitRuns r 0 true = true) ∧
    (let r : Replay := ⟨[0x7F000007, 0x88020801], 0x1004, 0, 0, 1, 0, 0⟩
     unitRuns r 0 false = true ∧ unitRuns r 1 true = true ∧ strideWord r.fm (r.k * r.stride) 0x7F000007 = 0x7F000007) ∧
    (∀ w ∈ [0xC0086188, 0x88020801, 0xBB004604, 0xBFF86188 % 2 ^ 26 + 0xC0000000], ∀ n ∈ [0, 1], (sigW (majOf w) (xOf w)).isSome = true ∧ w < 2 ^ 32 ∧
      dOf w + n < 64 ∧ aOf w + n < 64 ∧ bOf w + n < 64) ∧
    awaited.interlocked 0 = true := by and_intros <;> decide +kernel

/-- The frame plane runs at FCNT `f`, with the mortises of `m` open, the posts and the causes given. -/
def timed (f : Nat) (m : List Nat) (posts : Tbl W64) (causes : List Cause) : State :=
  let s := framing (ganged Ctx.zero) f
  { s with frame := { s.frame with openM := m, posts := posts, causes := causes } }
theorem witness_WeaveTenons_status :
    (256 ≤ (256 : W64).toNat ∧ State.reset.frame.running = false ∧ (timed 20 [] [] []).frame.launch = some demoFrame ∧
      demoFrame.tenons[(2 : W64).toNat]? = none) ∧
    (timed 20 [0] [] []).frame.running = true ∧ demoFrame.tenons[(0 : W64).toNat]? = some ⟨1, 3, 0, 0⟩ ∧
    demoFrame.tenons[(1 : W64).toNat]? = some ⟨0, 0, 0, 0⟩ ∧
    demoFrame.morts[0]? = some ⟨0, 50, 0, true, [(0, 0, 4096)], 1⟩ ∧ (0 : Nat) < demoFrame.flen ∧
    (∀ p ∈ [[], [(0, (7 : W64))]], let s := timed 20 [0] p []
      (tget s.frame.posts 0).isSome = !p.isEmpty ∧ 0 ∈ s.frame.openM ∧ s.frame.causes = [] ∧ s.frame.fcnt.toNat % 100 = 20) ∧
    (∀ f ∈ [49, 50], let s := timed f [0] [] [⟨2, 0, 0, 0⟩]
      0 ∈ s.frame.openM ∧ s.frame.causes ≠ [] ∧ (s.frame.fcnt.toNat % 100 = 50 % demoFrame.flen ↔ f = 50)) ∧
    (∀ p ∈ [(60, 100, 1), (100, 100, 1), (120, 200, 2)], let s := timed p.1 [] [] []
      0 ∉ s.frame.openM ∧ s.frame.fcnt.toNat ≤ p.2.1 ∧ p.2.1 % demoFrame.flen = 0 ∧ (∀ d, d < p.2.1 - p.1 → (p.1 + d) % demoFrame.flen ≠ 0) ∧
      p.2.1 / demoFrame.flen = p.2.2 ∧ demoFrame.nframes = 2) := by and_intros <;> decide +kernel

theorem witness_SpecialRegisters_numbers : let s := ganged Ctx.zero
    let t : State := { s with frame := { s.frame with slip := [(5, (7, 9))] } }
    (s.ctl.cur = .ctx 0 ∧ (s.ctx? 0).isSome = true ∧ sysReg (s.immU 6 19) = none ∧ sysReg (s.immU 6 63) = none ∧
      sysReg ((withExt s 3).immU 6 0) = none) ∧
    tget s.weave.gangs (s.ctx 0).gang = some demoGang ∧ tget s.weave.launches demoGang.launch = some demoLaunch ∧
    tget t.frame.slip 5 = some (7, 9) := by
  refine ⟨⟨rfl, rfl, rfl, rfl, rfl⟩, ?_, ?_, ?_⟩ <;> decide +kernel

theorem witness_FrameLanesAndMemory_landed : let w : EndWrite := ⟨2, 0, 0, 0, sramBase + 4, .bytes [1, 2]⟩
    let s : State := { State.reset with frame := { State.reset.frame with ends := [w] } }
    State.reset.frame.ends.filter (·.cls != 3) = [] ∧ s.frame.ends.filter (·.cls != 3) = [w] ∧ w.op = .bytes [1, 2] ∧
      sramPa 0 0 + 3 < w.pa ∧ w.pa ≤ sramPa 0 0 + 4 ∧ sramPa 0 0 + 5 < w.pa + 2 := by and_intros <;> decide +kernel

theorem witness_MatrixProducts_landed : let k := multiplying 0x83
    (k.tick, 1) ∉ k.landed ∧ (k.tick, 15) ∉ k.landed := by and_intros <;> decide +kernel

theorem witness_DotOrder : let a : Fv := .fin ⟨false, 3, 0⟩
    let z : Fv := .fin ⟨true, 0, 0⟩
    (∀ p ∈ [(a, 0), (z, 0)], ∃ d, p.1 = Fv.fin d) ∧ (⟨true, 0, 0⟩ : Dy).m = 0 ∧ (⟨true, 0, 0⟩ : Dy).neg = true ∧
    (∃ p, p ∈ [(a, 0), (Fv.nan, 1)] ∧ p.1 = Fv.nan) ∧
    (∃ p, p ∈ [(a, 0), (Fv.inf true, 1)] ∧ p.1 = Fv.inf true) ∧ (¬∃ p, p ∈ [(a, 0), (Fv.inf true, 1)] ∧ p.1 = Fv.nan) ∧
    (¬∃ p, p ∈ [(a, 0), (Fv.inf true, 1)] ∧ p.1 = Fv.inf (!true)) ∧
    (∃ p, p ∈ [(Fv.inf false, 0), (Fv.inf true, 1)] ∧ p.1 = Fv.inf false) ∧ (∃ p, p ∈ [(Fv.inf false, 0), (Fv.inf true, 1)] ∧ p.1 = Fv.inf true) := by
  simp

theorem witness_SparseSelection_row : (8, 32) ∈ [(8, 32), (16, 16)] ∧ (16, 16) ∈ [(8, 32), (16, 16)] ∧
    keepTwo ((List.range 4).map (fun n => elemValue 1 (lane 8 (4 * 31 + n) (3 * 256 ^ 127 + 2 * 256 ^ 125)))) = [1, 3] ∧
    keepTwo ((List.range 4).map (fun n => elemValue 0x12 (lane 16 (4 * 15 + n) 0))) = [0, 1] := by and_intros <;> decide +kernel

/-- A cut list of two dimensions of the element type: a box of 2 by 4, of which 2 by 3 are in bounds. -/
def twoDims (elt s0 s1 : Nat) : Cut :=
  { (image 0 0x4000 0 64 2 4).cut with elt := elt, ndim := 2, dims := [⟨64, 2, 0, s0⟩, ⟨3, 4, 0, s1⟩] }
theorem witness_EngineCopies_elements : let s := copying (image 0 0x4000 64 16 16 4)
    (∀ c ∈ [twoDims 0x10 4 256, twoDims 0x12 2 256, twoDims 1 1 64], fmtWidth c.elt / 4 ≠ 1 ∧ c.dims ≠ [] ∧
      fmtWidth c.elt / 4 = 2 * (fmtWidth c.elt / 8) ∧
      (match s.benchElems 0 c 0x4000 with
        | .ok es => es.map (·.idx) == [0, 1, 2, 3, 4, 5] && decide (c.count = 8)
        | _ => false) = true) ∧
    (fmtWidth (twoDims 9 1 32).elt / 4 = 1 ∧ ((twoDims 9 1 32).dims.getD 0 ⟨0, 0, 0, 0⟩).box % 2 = 0 ∧
      (match s.benchElems 0 (twoDims 9 1 32) 0x4000 with
        | .ok es => es.map (·.odd) == [0, 1, 0, 1, 0, 1]
        | _ => false) = true) ∧
    ((twoDims 0x12 2 256).inBounds 5 = true ∧ (twoDims 0x12 2 256).inBounds 6 = false) ∧
    ({ twoDims 0x10 4 256 with mode := 1 } : Cut).mode = 1 ∧ ({ twoDims 0x10 4 256 with fill := 1 } : Cut).fill ≠ 0 ∧ 0xFFFF < 2 ^ 16 := by
  and_intros <;> decide +kernel

/-- A reduction that memory takes part in, on the weave plane. -/
def reducing (elt red : Nat) (d : Dim) : Cut :=
  { (image (2 ^ 34 + 2 ^ 46 + red * 2 ^ 47) 0x4000 0 64 16 4).cut with elt := elt, dims := [d] }
theorem witness_WatermarksAndCutLists_halfBytes :
    (∀ p ∈ [({ oneDim 0 0x4000 0 ⟨64, 16, 0, 1⟩ with elt := 9 }, 0), ({ oneDim 0 0x4000 0 ⟨64, 16, 0, 2⟩ with elt := 9 }, 3),
        ({ oneDim 0 0x4000 0 ⟨64, 15, 0, 1⟩ with elt := 9 }, 3), ({ oneDim 0 0x4000 0 ⟨64, 16, 1, 1⟩ with elt := 9 }, 3),
        ({ oneDim 1 0x4000 0 ⟨64, 16, 0, 1⟩ with elt := 9, ndim := 2, dims := [⟨64, 16, 0, 1⟩, ⟨4, 2, 0, 32⟩] }, 0),
        ({ oneDim 1 0x4000 0 ⟨64, 16, 0, 1⟩ with elt := 9, ndim := 2, dims := [⟨64, 16, 0, 1⟩, ⟨4, 2, 0, 31⟩] }, 4)],
      p.1.dims.length = p.1.ndim ∧ p.1.row false true false p.1.base = p.2) ∧
    (∀ p ∈ [(reducing 0x10 1 ⟨64, 16, 0, 4⟩, 0), (reducing 0x12 2 ⟨64, 16, 0, 4⟩, 0), (reducing 0x12 2 ⟨64, 16, 0, 2⟩, 3),
        (reducing 0x10 3 ⟨64, 16, 0, 0⟩, 4), (reducing 0x12 1 ⟨64, 16, 0, 4⟩, 1)],
      p.1.dims.length = p.1.ndim ∧ p.1.red ≠ 0 ∧ p.1.dir = 1 ∧ p.1.row false false false p.1.base = p.2) := by and_intros <;> decide +kernel

theorem witness_JigForms_states : ∀ st ∈ [JigState.idle, .run], slotOk (jigging 0 1 st) 0 .c 0x76 1 15 0 0 0 = true ∧
    ((jigging 0 1 st).bench 0).jig.state = st := by decide +kernel

/-- Channel 63 from bench `p` to bench `q`. -/
def between (p q : Nat) : State :=
  let s := channelling false 20 []
  { s with frame := { s.frame with channels := [(63, ⟨p, q, 0, false, 0, 0x10, 256, 2, 0, [], [], []⟩)] } }
theorem witness_ChannelForms_role :
    (let s : State := { atOnce [] with frame := { (atOnce []).frame with causes := [⟨2, 0, 0, 0⟩] } }
     slotOk s 0 .c 0x78 0 15 63 63 5 = true ∧ s.frame.causes ≠ [] ∧ (s.bench 0).lastAnchor + ((s.bench 0).ra 5).toNat % 2 ^ 32 = s.frame.fcnt.toNat) ∧
    (atOnce []).frame.causes = [] ∧
    (∀ ch ∈ [62, 63], slotOk (between 1 1) 0 .c 0x78 0 15 ch 63 5 = true ∧ slotOk (between 1 1) 0 .c 0x78 1 15 63 ch 0 = true ∧
      slotOk (between 1 1) 0 .c 0x78 2 15 63 ch 0 = true ∧ slotOk (between 1 1) 0 .c 0x78 3 15 31 ch 0 = true) ∧
    tget (between 1 1).frame.channels 62 = none ∧
    (tget (between 1 1).frame.channels 63).map (fun c => (c.prod, c.cons, c.xpkg)) = some (1, 1, false) := by and_intros <;> decide +kernel

/-- The same with the source address and the connection's address space given. -/
def requestingAt (op laddr asid : Nat) : State :=
  let s := requesting op 8 0
  { s with
    eng := { s.eng with conns := [(5, ⟨asid, [], true, 0, none⟩)] }
    mem := s.mem.rawPut 0x7FC0 ([op * 2 ^ 60 + 5, laddr, 0x5000, 8, 1, 2, 3, 0].flatMap (leBytes 8)) }
theorem witness_RemoteAccess_refusals :
    (∀ p ∈ [(0x3E, 0, 0), (0x3F, 2, 3)], let s := requestingAt p.2.2 0x80000000 0
      ctxOk s 0 p.1 p.2.1 15 31 5 0 = true ∧ okay ((s.src 0 5).2.readReq 0 0x7FC0 (some p.2.2)) = true ∧ s.openTickets 0 = 0 ∧
      (match s.span 0 true .read 0x80000000 8 with
        | .error (.wide _ _ _) => true
        | _ => false) = true) ∧
    (∀ p ∈ [(0x3E, 0, 0), (0x3F, 2, 3)], let s := requesting p.2.2 8 0
      (match s.span 0 true .read 0x4000 8 with
        | .ok ps => okay (s.spanGood ps)
        | _ => false) = true) ∧
    (∀ p ∈ [(0x3E, 0), (0x3E, 1), (0x3E, 3), (0x3F, 0), (0x3F, 2)],
      ctxOk (requesting 5 8 0) 0 p.1 p.2 15 31 5 0 = true ∧ okay (((requesting 5 8 0).src 0 5).2.readWords 0 0x7FC0 8) = true) ∧
    (∀ p ∈ [(0x3E, 0, 0), (0x3E, 1, 1), (0x3E, 3, 4), (0x3F, 0, 2), (0x3F, 2, 3)], let s := requestingAt p.2.2 0x4000 1
      ctxOk s 0 p.1 p.2.1 15 31 5 0 = true ∧ okay ((s.src 0 5).2.readWords 0 0x7FC0 8) = true ∧
      (tget s.eng.conns 5).map (·.asid) = some 1 ∧ ((s.src 0 5).2.ctx 0).asid.toNat = 0) ∧
    (ctxOk (requestingAt 0 0x4000 1) 0 0x3E 2 15 31 6 0 = true ∧ ((requestingAt 0 0x4000 1).src 0 6).1.toNat = 5) := by
  and_intros <;> decide +kernel

/-- The cluster holds a copy of sixteen elements, of which 8 are done: the header's bits, the dense address and the extent are given. -/
def moving (bits dbase extent : Nat) : State :=
  let s := weaveCopying ClReg.zero 0
  let q : BteCopy := ⟨0, 0, true, image bits 0x4000 dbase extent 16 4, 0, 0, 0, 8, 0, 0, none, 1, 1, 0, 0, []⟩
  s.modCluster 0 (fun k => { k with bte := [(4, q)] })
/-- Element `i` of that copy: 0 it is moved, 1 it is out of bounds and filled, 2 it is out of bounds and left alone, 3 it stops. -/
def moves (s : State) (i : Nat) : Nat :=
  let q := tgetD (s.cluster 0).bte 4 noCopy
  let c := q.clr.cut
  if c.inBounds i then
    match s.bteChecked 0 4 q c i with
    | .ok e => if okay ((s.engineFill 0 4 q.asid (c.ta c.base i) e.leaf).bteDense 0 4 q c i) && okay (s.bteStep 0 4 q c (q.elemAt i)) then 0 else 3
    | _ => 3
  else if c.dir = 1 ∨ c.red ≠ 0 then 2
  else if okay (s.bteDense 0 4 q c i) then 1
  else 3
theorem witness_MemoryAndShootdownEvents_elements :
    (∀ p ∈ [(2 * 2 ^ 34 + 3 * 2 ^ 32, 0), (2 ^ 34, 0x5000), (2 ^ 34 + 2 ^ 47, 0x5000), (2 * 2 ^ 34 + 3 * 2 ^ 32 + 2 ^ 46, 0),
        (2 ^ 34 + 2 ^ 46, 0x5000), (2 ^ 34 + 2 ^ 46 + 2 ^ 47, 0x5000), (2 * 2 ^ 34 + 3 * 2 ^ 32 + 2 ^ 46 + 2 ^ 47, 0)],
      moves (moving p.1 p.2 64) 8 = 0 ∧ (moving p.1 p.2 64).frame.flagEcc = []) ∧
    (∀ p ∈ [(2 * 2 ^ 34 + 3 * 2 ^ 32, 0), (2 ^ 34, 0x5000)], moves (moving p.1 p.2 8) 7 = 0 ∧ moves (moving p.1 p.2 8) 8 = 1) ∧
    (∀ p ∈ [(2 ^ 34 + 2 ^ 47, 0x5000), (2 ^ 34 + 2 ^ 46, 0x5000)], moves (moving p.1 p.2 8) 8 = 2) := by and_intros <;> decide +kernel

/-- The copy of `sampling` with its elements' page typed. -/
def typedCopy (fmt : Nat) : Copy :=
  let leaf : Leaf := { identityLeaf with typed := true, fmt := fmt }
  ⟨0, image (2 ^ 50) 0x4000 64 16 16 4, 20, 0, 0, [⟨0, 0x4000, 0x4000, 0, leaf⟩], [], [], [], 0, none, 0, false, 0x1000⟩
/-- The copy that `sampling` holds. -/
def sampled : Copy := (tget (sampling false true []).frame.copies 7).getD (typedCopy 0x10)
theorem witness_FrameLandings_elements :
    (∀ f ∈ [(0x13, some (cShapeFormat, 8)), (0x12, some (cShapeFormat, 8)), (0x10, none)], let s := sampling false true []
      let q := typedCopy f.1
      q.clr.cut.mode = 1 ∧ (s.pinnedLeaf 0x4000).isSome = true ∧ q.elems.map (fun x => s.elemBad q.clr.cut q.elems x) = [f.2] ∧
      (q.broken s (fun _ => true)).map (fun x => (x.2.1, x.2.2.1)) = f.2) ∧
    (∀ x ∈ sampled.elems, (sampling false false []).elemBad sampled.clr.cut sampled.elems x = some (cTranslation, 0)) ∧ sampled.elems ≠ [] ∧
    (∀ op ∈ [EndOp.bytes [1, 2], .elem 1 1 7, .reduce 1 0x3F800000], let w : EndWrite := ⟨2, 0, 0, 0, sramBase, op⟩
      let s : State := { framing (atSlot .c guarded) 20 with frame := { (framing (atSlot .c guarded) 20).frame with ends := [w] } }
      s.frame.ends = [w] ∧ w.cls = 2 ∧ s.frame.subs = [] ∧ s.frame.advances = []) ∧
    ({ landing (.latch Latch.empty) with frame := { (landing (.latch Latch.empty)).frame with causes := [⟨2, 0, 0, 0⟩] } } : State).frame.causes ≠ [] ∧
    ((tget flying.frame.copies 7).map (fun q => (q.bench, q.clr.cut.dir)) = some (0, 0)) := by and_intros <;> decide +kernel

theorem witness_LaunchEvents_errors :
    (let s : State := { queued 0 with frame := { (queued 0).frame with flagEcc := [(0x500000, 1, 0)] } }
     s.nextFrame = some 128 ∧ s.recordBad 128 0 = true) ∧
    (let s : State := { queued 0 with mem := (queued 0).mem.rawPut 0x200000 [0] }
     s.nextFrame = some 128 ∧ s.recordBad 128 0 = false ∧ (FrameRecord.ofBytes (s.recordBytes 128 0)).legal (s.recordBytes 128 0) = true ∧ setupOf s = (1, [])) ∧
    (let s : State := { queued 0 with frame := { (queued 0).frame with flagEcc := [(0x200000, 1, 0)] } }
     s.nextFrame = some 128 ∧ s.recordBad 128 0 = false ∧ (setupOf s).1 = 2) ∧
    (let s : State := { queued 0 with frame := { (queued 0).frame with flagEcc := [((queued 0).host.asidtb.toNat, 1, 0)] } }
     s.nextFrame = some 128 ∧ s.recordBad 128 0 = false ∧ s.eccBad (s.host.asidtb.toNat + 8 * 0) 8 = true ∧
       (queued 0).eccBad ((queued 0).host.asidtb.toNat + 8 * 0) 8 = false) ∧
    (let s : State := { queued 0 with mem := (queued 0).mem.rawPut ((queued 0).host.asidtb.toNat) (leBytes 8 0) }
     s.nextFrame = some 128 ∧ s.recordBad 128 0 = false ∧ s.asidValid 0 = false ∧
       (FrameRecord.ofBytes (s.recordBytes 128 0)).legal (s.recordBytes 128 0) = true) ∧
    (let l : Launch := { demoLaunch with state := .preempting, ended := [0] }
     l.ended.length = l.ngang ∧ l.faults = [] ∧ l.state = .preempting ∧ (launched .preempting [0]).requestsOpen 1 = false ∧
       tget (launched .preempting [0]).weave.launches 1 = some l ∧
       (∀ n ∈ [0, 1], ({ (launched .preempting [0]).queue 0 with cfg := BitVec.ofNat 64 (n * 2 ^ 36) } : Queue).roomFor 2 = (n == 1))) := by
  and_intros <;> decide +kernel

theorem witness_LaunchEvents_bothDies :
    ((dispatching 3 []).candidates 0).map (fun c => (c.launch, c.idx)) = [(1, 0)] ∧
    ((dispatching 3 []).candidates 1).map (fun c => (c.launch, c.idx)) = [(1, 0)] ∧ (dispatching 3 []).dispatchable 1 = true ∧
    (∀ c ∈ (dispatching 3 []).candidates 0, c ∈ (dispatching 3 []).candidates 1 ∧ (dispatching 3 []).gone c = false ∧
      (∀ d ∈ [0, 1], ((dispatching 3 []).consider d true c).gone c = true ∧ (((dispatching 3 []).consider d true c).gone { c with launch := 2 }) = true)) ∧
    (∀ c ∈ (dispatching 1 []).candidates 0, c ∉ (dispatching 1 []).candidates 1 ∧ (dispatching 1 []).gone c = false) ∧
    (∀ c ∈ (dispatching 2 []).candidates 1, c ∉ (dispatching 2 []).candidates 0 ∧ (dispatching 2 []).gone c = false) ∧
    ((dispatching 1 []).candidates 0).length = 1 ∧ ((dispatching 2 []).candidates 1).length = 1 ∧
    (2 : Nat) ∉ [1] ∧ (1 : Nat) ∈ [1] := by and_intros <;> decide +kernel

theorem witness_QueueEvents_leader :
    (let s : State := alignedState
     s.bootHold = false ∧ s.frameAligned = true ∧ s.isLeader = true ∧ s.members = 1 ∧ s.frame.running = true ∧ s.frame.pauseReq = none ∧
       s.frame.pauseAsked = none) ∧
    (let s : State := { alignedState with host := { alignedState.host with alignctl := BitVec.ofNat 64 (2 ^ 40) } }
     s.isLeader = true ∧ s.members ≠ 1 ∧ ({ s with frame := { s.frame with pauseReq := some (128, 0, 20), pauseFrom := 20 } } : State).frame.pauseFrom =
       s.frame.fcnt.toNat) := by and_intros <;> decide +kernel
/-- R400: a member of several pauses at the leader's tick and at no other, R378: one alone at the first at which it rests. -/
theorem test_pause_tick : (∀ p ∈ [(2 ^ 40, 60, true), (2 ^ 40, 59, false), (0, 59, true), (0, 61, false)],
    let s := running 60
    let t : State := { s with
      frame := { s.frame with launch := some { demoFrame with align := true }, pauseReq := some (128, 0, 20), pauseFrom := p.2.1 }
      host := { s.host with bootstat := 0, alignstat := BitVec.ofNat 64 (2 ^ 63 + 256), alignctl := BitVec.ofNat 64 p.1 } }
    t.pauseNow = p.2.2) := by decide +kernel

theorem witness_QueueEvents_waiting :
    (let s : State := { alignedState with frame := { alignedState.frame with running := false, pending := true } }
     s.frame.running = false ∧ s.isLeader = true ∧ s.frame.pending = true ∧ s.frameAligned = true) ∧
    (let s : State := { launched .running [] with host := { (launched .running []).host with resuming := [(128, 0x600000)] } }
     s.bootHold = false ∧ (tget s.host.resuming 128).isSome = true) := by and_intros <;> decide +kernel

/-- What the other package asks of connection 5, at the address given. -/
def asking (op aop addr : Nat) : RemoteRequest := ⟨op, aop, 5, addr, 8, [1, 2], 5, 0⟩
/-- An error of a run. -/
def fails {ε α : Type} (r : Except ε α) : Bool := !okay r
theorem witness_FabricEvents_answers : let s := fabric 0 true none
    let t := s.useConn 5
    (tget s.eng.conns 5).map (fun k => (k.cached, k.asid)) = some (true, 0) ∧
    (∀ aop ∈ [0, 5, 7], (asking 2 aop 0x4000).addr % 8 = 0 ∧ (match t.reach 0 true .both 0x4000 8 with
      | .ok ps => ps.all (fun z => atomicTarget z.pa aop) && okay (t.spanGood ps)
      | _ => false) = true) ∧
    ((atomicNew 0 7 5 0).isSome = true ∧ (atomicNew 5 7 5 0).isSome = false) ∧
    (match t.reach 0 true .read 0x4000 8 with
      | .ok ps => okay (t.spanGood ps)
      | _ => false) = true ∧
    okay (t.reach 0 true .write 0x4000 (asking 0 0 0x4000).data.length) = true ∧
    fails (t.reach 0 true .write 0x80000000 (asking 0 0 0x80000000).data.length) = true ∧ fails (t.reach 0 true .read 0x80000000 8) = true := by
  and_intros <;> decide +kernel

/-- Connection 5, uncached, whose spilled context an uncorrectable error stands at or not; the other package's AMO reaches tensor SRAM. -/
def spilling (bad : Bool) : State :=
  let s := fabric 0 false none
  { s with
    host := { s.host with ccspill := BitVec.ofNat 64 0x20000 }
    frame := { s.frame with flagEcc := if bad then [(0x20500, 1, 0)] else [] } }
/-- The page table's first 2 MiB lie over tensor SRAM, a mortise of bench 0 open. -/
def asked : State :=
  let t := fabric 0 true none
  let m := t.mem.rawPut 0x103000 (leBytes 8 (2 ^ 63 + 0x104 * 64))
  let s := framing { t with mem := m.rawPut 0x104000 (leBytes 8 (2 ^ 63 + 2 ^ 62 + sramBase / 64 + 15)) } 20
  { s with weave := { s.weave with cores := [], clusters := [] } }
theorem witness_FabricEvents_port :
    ((tget (spilling true).eng.conns 5).map (·.cached) = some false ∧ (spilling false).spillAddr 5 = 0x20500 ∧
      (spilling true).eccBad 0x20500 256 = true ∧ (spilling false).eccBad 0x20500 256 = false) ∧
    (match (asked.useConn 5).span 0 true .both 0 8 with
      | .ok (p :: _) => decide (regionOf p.pa = .sram 0 0)
      | _ => false) = true ∧
    ((fabric 0 true none).useConn 5).amoBench 0 (asking 2 0 0x4000) = none ∧
    okay (((fabric 0 true none).useConn 5).remoteAmo 0 (asking 2 0 0x4000)) = true ∧
    fails (((fabric 0 true none).useConn 5).remoteAmo 0 (asking 2 0 0x80000000)) = true ∧
    (asking 2 0 0x4004).addr % 8 ≠ 0 := by and_intros <;> decide +kernel
/-- R260, R297: an RMA.AMO of another package takes its turn at the port of the bench whose tensor SRAM holds its target. -/
theorem test_amo_port : after (execRmaIncomingRequest (asking 2 0 0) asked) (fun t => (t.bench 0).port) = some [.amo 0 (asking 2 0 0)] ∧
    after (execWeavePortAccess 0 (asked.setBench 0 { asked.bench 0 with port := [.amo 0 (asking 2 0 0)] })) (fun t => t.eng.outbox.length) =
      some (asked.eng.outbox.length + 1) := by decide +kernel
theorem witness_MemoryAndShootdownEvents_port : let s := asked.setBench 0 { asked.bench 0 with port := [.amo 0 (asking 2 0 0)] }
    (s.bench 0).port = [.amo 0 (asking 2 0 0)] ∧
    (let t := s.setBench 0 { s.bench 0 with port := [] }
     okay (t.remoteAmo 0 (asking 2 0 0)) = true ∧ fails (t.remoteAmo 0 (asking 2 0 4)) = true) := by and_intros <;> decide +kernel

/-- The leader of a domain of two hears that a package is ready; the notices given have come. -/
def hearing (l : List (Nat × Nat × Nat × Nat)) (pending : Bool) : State :=
  let s := agreed []
  { s with frame := { s.frame with running := !pending, pending := pending }, host := { s.host with ready := l } }
/-- Whether the notices of a tag, with the last, are those of all members, and agree. -/
def round (s : State) (pkg d flen nfr : Nat) : Bool × Bool :=
  let same := (s.host.ready.filter (fun x => x.1 != pkg) ++ [(pkg, d, flen, nfr)]).filter (fun x => x.2.1 == d)
  (same.length == s.members, same.all (fun x => x.2.2 == (flen, nfr)))
theorem witness_DeviceAndAlignmentEvents_ready :
    ((hearing [] false).isLeader = true ∧ round (hearing [] false) 0 7 100 2 = (false, true)) ∧
    round (hearing [(5, 8, 100, 3)] false) 0 7 100 2 = (false, true) ∧ round (hearing [(5, 7, 100, 2)] false) 0 7 100 2 = (true, true) ∧
    round (hearing [(5, 7, 100, 3), (6, 8, 1, 1)] false) 0 7 100 2 = (true, false) ∧ (hearing [(5, 7, 100, 3)] false).frame.pending = false ∧
    (let s := hearing [(5, 7, 100, 3)] true
     s.isLeader = true ∧ round s 0 7 100 2 = (true, false) ∧ s.frame.pending = true ∧
       s.frame.launch = some { demoFrame with align := true } ∧ demoFrame.dtag = 7 ∧ s.frame.pauseReq = none ∧ s.frame.pauseAsked = none) := by
  and_intros <;> decide +kernel

/-! ### Witnesses of layouts, orders and refusals -/

/-- The group that waits for the replay is legal; another, of other registers, does not wait. -/
theorem witness_WeaveReplay_interlock :
    ((awaited.ctx 0).replay.map (fun r => decide (r.k ≤ r.count)) = some true ∧ (match awaited.fetchGroup 0 (awaited.ctx 0).pc.toNat with
      | .ok (ws, _, _) => groupLegal (ws.map (·.2))
      | .error _ => false) = true) ∧
    (let s := State.reset.placeGroup [0x88020801]
     (s.modCtx 0 (fun x => { x with replay := some ⟨[0xC0086188], 0x1004, 0, 0, 0, 0, 0⟩ })).interlocked 0 = false) ∧
    (State.reset.placeGroup [0xC0086188]).interlocked 0 = false := by and_intros <;> decide +kernel
/-- Legal and illegal quantisation, operand and tile descriptors (R194, R219, R247). -/
theorem witness_Layouts : let s := atSlot .m guarded
    okay (s.qdesc 0x34 false) = true ∧ okay (s.qdesc 0x1000 false) = false ∧ okay (s.qdesc 0x1000 true) = true ∧
    okay (s.checkDesc (descWord 0x12 256 64)) = true ∧ okay (s.checkDesc (descWord 0x12 256 65)) = false ∧ matClass 0x13 3 0 = none ∧
    okay (checkWinDesc (winnowing.ra 5)) = true ∧ okay (checkWinDesc (winnowing.ra 6)) = false := by and_intros <;> decide +kernel
/-- WIN.SET of kinds 1 and 2 with a reserved bit set. -/
theorem witness_WinnowForms_reserved : let k := winnowing
    (∀ d ∈ [1, 2], slotOk (atSlot .c k) 0 .c 0x71 2 15 d 8 0 = true) ∧ 2 ^ 32 ≤ (k.ra 8).toNat ∧ fld (k.ra 8).toNat 16 16 ≠ 0 := by
  and_intros <;> decide +kernel
/-- R304: a register's image and a dimension of it; a list that every kind of CPY rejects, and one that a kind takes. -/
theorem witness_WatermarksAndCutLists_layout : let c := (image (2 ^ 46 + 2 ^ 44) 0x4000 64 (2 ^ 32 - 1) 16 4).cut
    (c.ndim = 1 ∧ c.elt = 0x10 ∧ c.dir = 1 ∧ c.skew = 1 ∧ c.base = 0x4000 ∧ c.dbase = 64 ∧ c.dims = [⟨2 ^ 32 - 1, 16, 0, 4⟩] ∧ c.reserved = false) ∧
    (image (2 ^ 16) 0 0 64 16 4).cut.reserved = true ∧
    (let m := (image (2 ^ 30 + 2 ^ 47) 0x4000 64 16 16 4).cut
     m.max_ ≠ 0 ∧ m.red ≠ 0 ∧ m.check true false 0x4000 = 1 ∧ c.max_ = 0) := by and_intros <;> decide +kernel
/-- R341: a channel of a format that CH.RED does not take. -/
theorem witness_ChannelForms_format : let s := channelling false 0 [(20, 7)]
    let t : State := { s with frame := { s.frame with channels := [(63, ⟨0, 0, 0, false, 0, 5, 256, 2, 8, [], [(20, 7)], []⟩)] } }
    slotOk t 0 .c 0x78 2 15 63 63 0 = true ∧ (tget t.frame.channels 63).map (·.ty) = some 5 ∧ chanOp 5 0 = none := by
  and_intros <;> decide +kernel
/-- Three members of which 0 is skipped, with member 1 as its adopter. -/
def adopted : Ring := [(0, [setFld (setFld 0x8000000000000000 62 1 1) 48 9 1, 0, 0, 0]), (1, [0x8000000000000000, 5, 0, 0]), (2, [0x8000000000000000, 6, 0, 0])]
/-- R326: a skip of member 1 makes member 2 adopt both; the only live member has no adopter. -/
theorem test_ring_skip : ringLive adopted 3 1 = true ∧ (let r := ringSkip adopted 3 1
    ringLive r 3 1 = false ∧ (∀ i ∈ [0, 1], fld (ringWord r i 0).toNat 48 9 = 2) ∧ ringWord r 2 0 = ringWord adopted 2 0 ∧ ringWord r 1 1 = 5 ∧
      fld (ringWord (ringSkip r 3 2) 0 0).toNat 48 9 = 0x100) := by and_intros <;> decide +kernel
/-- R342: a descriptor of one member is none. -/
theorem witness_SplineAndRing_descriptor : let bs (n : Nat) := [9 * 2 ^ 48 + n * 2 ^ 40 + 1, 0x4000, 0x4100, 100 * 2 ^ 32].flatMap (leBytes 8)
    groupDesc (bs 1) = none ∧ (groupDesc (bs 2)).map (fun g => (g.gid, g.nmem, g.count, g.src, g.dst, g.tmo)) =
      some (9, 2, 1, 0x4000, 0x4100, 100) := by and_intros <;> decide +kernel
/-- R313: of BF16 elements from dense address 2 on, 0 stands alone in its word, 1 and 2 share the next, whichever part they fall in. R318: a
skew parts a linear copy's address order from the logical one; R57: of elements that all fault, 0 is reported. -/
theorem test_copy_orders :
    (let q : BteCopy := { noCopy with clr := image (2 * 2 ^ 56 + 2 * 2 ^ 34 + 3 * 2 ^ 32) 0x4000 2 64 4 2 }
     q.clr.cut.narrow = true ∧ [(0, 1), (1, 2), (2, 3), (3, 4)].map (fun p => q.elemsOf q.clr.cut p.1 p.2) = [[0], [1, 2], [], [3]]) ∧
    (let q : BteCopy := { noCopy with clr := image (2 ^ 44 + 2 * 2 ^ 34 + 3 * 2 ^ 32) 0x80000000 0x80 64 32 4, linear := some (7, 0) }
     [0, 1, 8].map q.elemAt = [24, 25, 0] ∧ q.clr.cut.da 24 = 0x80 ∧ (match (straying.bteRun 0 4 q q.clr.cut [0, 1] [24, 25] 0).2.2 with
       | some (.elem _ _ _ i) => some i
       | _ => none) = some 0) := by and_intros <;> decide +kernel
/-- R269, R57: of two granules whose reads fail at one tick, the element of the lower logical index is reported. -/
theorem witness_FrameLandings_lost : (lostAt (sampling false true [(0x4000, 1, 0)])).map (·.isSome) = some true := by decide +kernel
/-- R417: a host reads HBM and a register without a row in boot hold, and the other port's queue outside it. -/
theorem witness_DeviceAndAlignmentEvents_hosts : State.reset.bootHold = true ∧ regionOf (devBase + 0x9000) = .device 0x9000 ∧
    queueAt 0x9000 = some (32, 0) ∧ queuePort 32 = 1 ∧
    after (execHostAccess ⟨0, 0, devBase + 0x9000, 8, 0, 0⟩ State.reset) (fun t => (t.host.unsupported, t.host.reply)) = some (false, 0) ∧
    after (execHostAccess ⟨0, 0, devBase + 0x9000, 8, 0, 0⟩ alignedState) (fun t => t.host.unsupported) = some true := by
  and_intros <;> decide +kernel
/-- A launch that ended by a fault of its own at FCNT 15 hears of an earlier one, of a later one; a parked one of either. -/
def settled (z : Option Settling) : State :=
  { alignedState with frame := { alignedState.frame with running := false, settling := z } }
theorem witness_DeviceAndAlignmentEvents_settling : let s := settled (some ⟨0x21, 15, 3⟩)
    s.alignedRuns = false ∧ s.frame.launch.isSome = true ∧ (settled none).alignedRuns = false ∧ s.aligned = true ∧
    after (execFaultNotice 10 1 s) (fun t => (t.frame.settling.map (fun z => (z.at_, z.code == cRemote)))) = some (some (10, true)) ∧
    after (execFaultNotice 15 1 s) (fun t => decide (t = s)) = some true := by and_intros <;> decide +kernel

/-- Context 0's page at 0x4000 maps tensor SRAM, whose mortise is open where `f` says so. -/
def coding (m : List Nat) : State :=
  let s := sramPage (framing (ganged Ctx.zero) 20)
  { s with frame := { s.frame with openM := m } }
/-- The physical region of a line of code, and whether the read of 4 bytes of it passes. -/
def codeRead (s : State) (va : Nat) : Option (Region × Bool) :=
  match s.missError 0 (s.ctx 0).asid.toNat va, s.codeLine 0 (va / 64 * 64) with
  | none, some (pa, _, _) => some (regionOf pa, okay (s.codeMeet 0 va 4))
  | _, _ => none
theorem witness_StepRunsInstruction_code :
    (let s := State.reset.placeGroup [0x88000000]
     let pc := placeBase + 0x28
     codeRead s pc = some (.hbm, true) ∧ codeRead s placeBase = some (.hbm, true) ∧ s.frame.flagEcc = []) ∧
    (let s : State := (State.reset.placeGroup [0x88000000]).modCtx 0 (fun x => { x with pc := BitVec.ofNat 64 (placeBase + 0x2C) })
     (match s.segOf 0 (placeBase + 0x28) with
       | .ok g => s.execBit 0 g 1 == some false && decide ((placeBase + 0x2C - g.body) / 4 = 1)
       | _ => false) = true) ∧
    codeRead (coding []) 0x4000 = some (.sram 0 0, false) ∧ codeRead (coding [0]) 0x4000 = some (.sram 0 0, true) := by
  and_intros <;> decide +kernel

theorem witness_WeaveRegisterFrame_further : (∀ i ∈ [Instr.cmpEq ⟨1, 0, 7, 5, 6⟩, .cmpiNe ⟨1, 0, 7, 5, 63⟩, .pnot ⟨1, 0, 7, 6⟩, .yaddBf16 ⟨1, 0, 47, 32, 33⟩,
      .ymaxI32 ⟨1, 0, 47, 32, 33⟩, .ycvtBf16F32 ⟨1, 0, 47, 32, 33⟩, .yshf ⟨1, 0, 47, 32, 33⟩, .ycvtF32I32 ⟨1, 0, 47, 32⟩, .yrsumF32 ⟨1, 0, 31, 32⟩,
      .ybcast ⟨1, 0, 47, 5⟩, .ycvtF32Bf16 ⟨1, 0, 47, 32, 1⟩], retired (exec i (ganged pointers)) = true) := by decide +kernel
theorem witness_BenchRegisterFrame_further : (∀ i ∈ [Instr.vaddBf16 ⟨1, 0, 63, 5, 4⟩, .vcmpEqF32 ⟨1, 0, 63, 5, 4⟩, .vabsF32 ⟨1, 0, 63, 5⟩,
      .vcvtF32Bf16 ⟨1, 0, 63, 5, 1⟩, .vcvtBf16F32 ⟨1, 0, 63, 5, 1, 4⟩], retired (exec i (atSlot .v0 edge)) = true) ∧
    retired (exec (.vshuf ⟨1, 0, 63, 5, 4⟩) (atSlot .x edge)) = true ∧ retired (exec (.vrot ⟨1, 0, 63, 5, 31⟩) (atSlot .x edge)) = true ∧
    retired (exec (.vmask ⟨1, 0, 14, 5, 0⟩) (atSlot .l edge)) = true ∧ retired (exec (.vld ⟨1, 0, 63, 5, 7⟩) (atSlot .v0 edge)) = true ∧
    retired (exec (.vldb ⟨1, 0, 63, 5, 7⟩) (atSlot .v0 edge)) = true ∧
    retired (exec (.lstat ⟨1, 0, 31⟩) (atSlot .m edge)) = true ∧ retired (exec (.spsel ⟨1, 0, 63, 5, 1⟩) (atSlot .m { edge with fmtsel := 1 })) = true := by
  and_intros <;> decide +kernel

/-! ### Single steps and operations against the manual's values -/

/-- Context 0 with values in x5, x6. -/
def pair (a b : Nat) : State := atCtx { Ctx.zero with xs := [(5, BitVec.ofNat 64 a), (6, BitVec.ofNat 64 b)] }
/-- What a scalar form leaves in x7 of context 0. -/
def x7 (i : Tri → Instr) (a b : Nat) : Option Nat := after (exec (i ⟨1, 0, 7, 5, 6⟩) (pair a b)) (fun t => ((t.ctx 0).x 7).toNat)

-- R83, R84: the values are worked out by hand from the tables of the two rules.
theorem test_add_wraps : x7 .add (2 ^ 64 - 1) 2 = some 1 := by decide +kernel
theorem test_subw_extends : x7 .subw 0 1 = some (2 ^ 64 - 1) ∧ x7 .subw 0x180000000 0 = some 0xFFFFFFFF80000000 := by decide +kernel
theorem test_andn : x7 .andn 0xFF 0x0F = some 0xF0 := by decide +kernel
theorem test_shift_amounts : x7 .shl 1 65 = some 2 ∧ x7 .sar (2 ^ 63) 63 = some (2 ^ 64 - 1) ∧ x7 .rot 1 1 = some (2 ^ 63) := by decide +kernel
theorem test_mul_high : x7 .mulh (2 ^ 64 - 1) (2 ^ 64 - 1) = some 0 ∧ x7 .mulhu (2 ^ 64 - 1) (2 ^ 64 - 1) = some (2 ^ 64 - 2) := by decide +kernel
theorem test_div_corners : x7 .div 7 0 = some (2 ^ 64 - 1) ∧ x7 .div (2 ^ 63) (2 ^ 64 - 1) = some (2 ^ 63) ∧
    x7 .div (2 ^ 64 - 7) 2 = some (2 ^ 64 - 3) := by decide +kernel
theorem test_rem_corners : x7 .rem 7 0 = some 7 ∧ x7 .rem (2 ^ 63) (2 ^ 64 - 1) = some 0 ∧ x7 .rem (2 ^ 64 - 7) 2 = some (2 ^ 64 - 1) := by
  decide +kernel
theorem test_min_signed : x7 .min_ (2 ^ 64 - 1) 1 = some (2 ^ 64 - 1) ∧ x7 .minu (2 ^ 64 - 1) 1 = some 1 := by decide +kernel
theorem test_clz_ctz_zero : after (exec (.clz ⟨1, 0, 7, 5⟩) (pair 0 0)) (fun t => ((t.ctx 0).x 7).toNat) = some 64 ∧
    after (exec (.ctz ⟨1, 0, 7, 5⟩) (pair 0 0)) (fun t => ((t.ctx 0).x 7).toNat) = some 64 := by decide +kernel
-- R11: a write to x0 is discarded. R25: a false guard nullifies.
theorem test_x0_reads_zero : after (exec (.add ⟨1, 0, 0, 5, 6⟩) (pair 3 4)) (fun t => ((t.ctx 0).x 0).toNat) = some 0 := by decide +kernel
theorem test_false_guard : after (exec (.add ⟨1, 1, 7, 5, 6⟩) (pair 3 4)) (fun t => ((t.ctx 0).x 7).toNat) = some 0 := by decide +kernel
-- The 64-bit constant of the scalar chapter's worked example.
theorem test_li : after (exec (.li ⟨1, 0, 9, 0xDEF⟩) (withExt (atCtx { Ctx.zero with xs := [(9, BitVec.allOnes 64)] }) 0x226AF))
    (fun t => ((t.ctx 0).x 9).toNat) = some 0x89ABCDEF := by decide +kernel
theorem test_lih : after (exec (.lih ⟨1, 0, 9, 0x567⟩) (withExt (atCtx { Ctx.zero with xs := [(9, 0x89ABCDEF)] }) 0x48D))
    (fun t => ((t.ctx 0).x 9).toNat) = some 0x0123456789ABCDEF := by decide +kernel
-- The double pop of the weave chapter's worked example: ADD x3, q0, q0 with 5, 7, 9 in the pipe.
theorem test_double_pop : after (exec (.add ⟨1, 0, 3, 48, 48⟩) (piped [.value 5, .value 7, .value 9] false false))
    (fun t => (((t.ctx 0).x 3).toNat, ((tget t.weave.gangs 1).map (fun g => g.pipes.map (·.entries))))) =
    some (12, some [[.value 9]]) := by decide +kernel

/-- A word in each 32-bit lane. -/
def lanes (l : List Nat) : W1024 := BitVec.ofNat 1024 (l.foldr (fun v r => v + 2 ^ 32 * r) 0)
/-- The first lanes of the values that a bench has in flight to v registers. -/
def inFlight (b n : Nat) (t : State) : List (List Nat) :=
  (t.bench b).pend.filterMap (fun p => match p.eff with
    | .v _ _ _ v => some ((List.range n).map (fun i => v.toNat / 2 ^ (32 * i) % 2 ^ 32))
    | _ => none)
/-- The flags that a bench has in flight. -/
def flagsInFlight (b : Nat) (t : State) : Nat :=
  (t.bench b).pend.foldl (fun f p => match p.eff with
    | .flags g => f ||| g.toNat
    | _ => f) 0

-- The table of the packed dot products' worked example.
def dotting : State := atSlot .m { Bench.zero with v := [(1, lanes [2147483600, 2147483600]), (2, lanes [0x807F, 0x7F7F]), (3, lanes [0x7F7F, 0x7F7F])] }
theorem test_vdot4s : after (exec (.vdot4sI8 ⟨1, 0, 1, 2, 3⟩) dotting) (fun t => (inFlight 0 2 t, flagsInFlight 0 t)) =
    some ([[2147483473, 2147483647]], SAT) := by decide +kernel
theorem test_vdot4 : after (exec (.vdot4I8 ⟨1, 0, 1, 2, 3⟩) dotting) (fun t => (inFlight 0 2 t, flagsInFlight 0 t)) =
    some ([[2147483473, 4294967296 - 2147451438]], 0) := by decide +kernel

-- The masking of a score tail in the frame chapter's worked example: VFILL 2 gives -infinity where the guard lane is set.
theorem test_vfill_masks : after (exec (.vfill ⟨1, 0, 4, 3, 2⟩)
      (atSlot .l { Bench.zero with v := [(4, lanes [0x41300000, 0x41300000]), (3, lanes [0xFFFFFFFF, 0])] })) (inFlight 0 2) =
    some [[0x41300000, 0xFF800000]] := by decide +kernel

-- The block of the arithmetic chapter's worked example: B8P3S, scale byte 0x80, compander table 0.
theorem test_quantise_rne :
    ([0x40500000, 0x40580000, 0x48435000, 0x80000000, 0xBF800000].map (fun x => quantise [] 0 0x83 0x80 .rne 0 (f32.value x))) =
      [(0x42, NX), (0x43, NX), (0x7F, OF ||| NX), (0, 0), (0xBC, 0)] := by decide +kernel
theorem test_quantise_rtz : ([0x40500000, 0x40580000].map (fun x => (quantise [] 0 0x83 0x80 .rtz 0 (f32.value x)).1)) = [0x42, 0x42] := by decide +kernel
theorem test_quantise_extended : (quantise [] 0 0xC3 0x80 .rne 0 (f32.value 0x48435000)).1 = 0x7F := by decide +kernel
theorem test_quantise_sr : (quantise [] 0 0x83 0x80 .sr 0x7FFFFF (f32.value 0x40500000)).1 = 0x43 ∧
    (quantise [] 0 0x83 0x80 .sr 0x800000 (f32.value 0x40500000)).1 = 0x42 := by decide +kernel
theorem test_dequantise : ([0x42, 0x43, 0x7F, 0, 0xBC].map (fun c => (dequant [] 0 0x83 0x80 c).1)) =
    [0x40400000, 0x40600000, 0x47E00000, 0, 0xBF800000] := by decide +kernel

-- R36, R37: the constants of the tables, the canonical NaN, gradual underflow and overflow.
theorem test_f32_overflow : fadd f32 .rne 0 0x7F7FFFFF 0x7F7FFFFF = (0x7F800000, OF ||| NX) ∧
    fadd f32 .rtz 0 0x7F7FFFFF 0x7F7FFFFF = (0x7F7FFFFF, OF ||| NX) := by decide +kernel
theorem test_f32_nan_is_canonical : fadd f32 .rne 0 0x7FA00001 0x3F800000 = (0x7FC00000, 0) ∧
    fadd f32 .rne 0 0x7F800000 0xFF800000 = (0x7FC00000, NV) := by decide +kernel
theorem test_f32_subnormal : fmul f32 .rne 0 0x00800000 0x3F000000 = (0x00400000, 0) := by decide +kernel
theorem test_f32_tie_to_even : fadd f32 .rne 0 0x3F800000 0x33800000 = (0x3F800000, NX) ∧
    fadd f32 .rup 0 0x3F800000 0x33800000 = (0x3F800001, NX) := by decide +kernel

-- The fold and finish of the soft-maximum chapter's worked example, rows 0 to 2, acc column 0, three columns kept.
def tail : List Nat := List.replicate 125 0xFF800000
theorem test_osm_row_0 : (fun q => (q.p.take 4, q.m, q.l, q.acc.take 1, q.fl))
      (osmRow 0x12 ([0x40800000, 0x40A00000, 0x40400000] ++ tail) 0x40400000 0x40000000 [0x41000000]) =
    ([0x3F00, 0x3F80, 0x3E80, 0], 0x40A00000, 0x40100000, [0x40000000], 0) := by decide +kernel
theorem test_osm_row_1 : (fun q => (q.p.take 3, q.m, q.l, q.acc, q.fl))
      (osmRow 0x12 (List.replicate 3 0xFF800000 ++ tail) 0xFF800000 0 [0]) = ([0, 0, 0], 0xFF800000, 0, [0], 0) := by decide +kernel
theorem test_osm_row_2 : (fun q => (q.p.take 3, q.m, q.l, q.acc, q.fl))
      (osmRow 0x12 ([0x3F800000, 0x40000000, 0x40400000] ++ tail) 0x40A00000 0x3F800000 [0x40800000]) =
    ([0x3D80, 0x3E00, 0x3E80], 0x40A00000, 0x3FB80000, [0x40800000], 0) := by decide +kernel
theorem witness_StreamingSoftMaximum_rows : (List.replicate 3 0xFF800000 ++ tail).length = 128 ∧
    (List.replicate 3 0xFF800000 ++ tail).foldl (fmax f32) 0xFF800000 = 0xFF800000 ∧
    fmax f32 0x40400000 (([0x40800000, 0x40A00000, 0x40400000] ++ tail).foldl (fmax f32) 0xFF800000) ≠ 0xFF800000 ∧
    (f32.value 0x40400000).lt (f32.value 0x40A00000) = true ∧ (f32.value 0x40A00000).lt (f32.value 0x40A00000) = false ∧
    f32.value 0x7FC00000 = .nan ∧ f32.value 0xFF800000 ≠ .nan := by and_intros <;> decide +kernel
theorem test_osm_finish : (fdiv f32 .rne 0 0x40000000 0x40100000).1 = 0x3F638E39 ∧ (fdiv f32 .rne 0 0x40800000 0x3FB80000).1 = 0x40321643 := by
  decide +kernel

-- One lane of a YADD.F32 under RNE: 1 + 2 = 3.
theorem test_yadd : after (exec (.yaddF32 ⟨1, 0, 33, 33, 34⟩)
      (atCtx { Ctx.zero with ys := [(1, 0x3F800000), (2, 0x40000000)] })) (fun t => ((t.ctx 0).y 33).toNat) = some 0x40400000 := by decide +kernel

-- R61: a scalar form that names no scalar register does not retire.
theorem test_illegal_operand_faults : after (exec (.add ⟨1, 0, 32, 5, 6⟩) (pair 3 4)) (fun t => decide (t.ctl.verdict = .retired)) = some false := by
  decide +kernel

end Sys2Proof.Tests
end

section
/-! O53. Every word that decodes runs in a wrapper of its plane, and a wrapper answers an illegal syllable and a nullified one alike for all
forms. The lemmas are elaborated one after another, as the tests above are, so that the check's memory suffices. -/

set_option Elab.async false

section
/-! What the wrappers of both planes make of a syllable that its encoding rules out, and of a legal one whose guard reads false (R12, R25,
R61, R65, R69). -/

namespace Sys2Proof.Machine

variable {s : State} {c bn maj x g d a b : Nat} {sl : SlotName} {r : Answer}

/-! ### What a plane admits -/

/-- A context takes the form, its fields, its guard field, the EXT before it and its immediate `b` (R12, R61, R62, R69). -/
def State.ctxAdmits (s : State) (maj x g d a b : Nat) : Bool :=
  legalW maj x d a b && g != 8 && !(s.ctl.ext.isSome && !takesExt maj x) && immOk s.ctl.ext maj x b

/-- A slot takes the form, its fields, the EXT before it and its immediate `b` (R61, R62, R65, R69). -/
def State.slotAdmits (s : State) (sl : SlotName) (maj x d a b : Nat) : Bool :=
  legalF maj x d a b && slotTakes sl maj x && !(s.ctl.ext.isSome && !takesExt maj x) && immOk s.ctl.ext maj x b

/-- Fields of a frame form that each name something, but not together, or not in a slot of `width` bits: VSTM with an odd D, VMOVA of a lane
beyond the slot, OSM of one handle twice, WIN.SET of a kind with an entry, FCNT with a source beside kind 4, PAUSE of no tick. -/
def clash (maj x d a b width : Nat) : Bool :=
  match maj, x with
  | 0x66, 3 => d % 2 == 1
  | 0x67, 0 => decide (width / 32 ≤ b)
  | 0x6B, 0 => d == a
  | 0x6B, 1 => d == a
  | 0x71, 2 => d != 0 && b != 0
  | 0x7C, 3 => a != 0 && b != 4
  | 0x7D, 2 => d == 0 && a == 0 && b == 0
  | _, _ => false

theorem legalW_of_none (h : sigW maj x = none) : legalW maj x d a b = false := by simp [legalW, h]
theorem legalF_of_none (h : sigF maj x = none) : legalF maj x d a b = false := by simp [legalF, h]
theorem ctxAdmits_of_none (h : sigW maj x = none) : s.ctxAdmits maj x g d a b = false := by
  simp [State.ctxAdmits, legalW_of_none h]
theorem slotAdmits_of_none (h : sigF maj x = none) : s.slotAdmits sl maj x d a b = false := by
  simp [State.slotAdmits, legalF_of_none h]

theorem onCtx_illegal {sel : Bool} {pre : Run Unit} {body : State → Run State} (hl : (s.ctx? c).isSome = true)
    (h : s.ctxAdmits maj x g d a b = false) : s.onCtx c maj x g d a b sel pre body = finishW s c illegal := by
  obtain ⟨k, hk⟩ := Option.isSome_iff_exists.1 hl
  cases hs : sigW maj x with
  | none => simp only [State.onCtx, hk, hs]
  | some sg =>
    have hbad : (!sg.ok d a b || g == 8 || (s.ctl.ext.isSome && !takesExt maj x) || !immOk s.ctl.ext maj x b) = true := by
      rw [State.ctxAdmits, legalW, hs] at h
      rw [← Bool.not_eq_false', h.symm]
      simp [bne]
    simp only [State.onCtx, hk, hs, hbad, if_true]

theorem onCtx_nullified {pre : Run Unit} {body : State → Run State} (hl : (s.ctx? c).isSome = true)
    (h : s.ctxAdmits maj x g d a b = true) (hg : (s.ctx c).guard g = false) : s.onCtx c maj x g d a b false pre body = retires s := by
  obtain ⟨k, hk⟩ := Option.isSome_iff_exists.1 hl
  rw [State.ctx_of_ctx? hk] at hg
  cases hs : sigW maj x with
  | none => rw [ctxAdmits_of_none hs] at h; cases h
  | some sg =>
    have hgood : (!sg.ok d a b || g == 8 || (s.ctl.ext.isSome && !takesExt maj x) || !immOk s.ctl.ext maj x b) = false := by
      rw [State.ctxAdmits, legalW, hs] at h
      rw [← Bool.not_eq_true', ← h]
      simp [bne]
    simp [State.onCtx, hk, hs, hgood, hg, retires]

theorem onSlot_illegal {sel : Bool} {body : State → Run State} (h : s.slotAdmits sl maj x d a b = false) :
    s.onSlot bn sl maj x g d a b sel body = finishF' s bn illegal := by
  cases hs : sigF maj x with
  | none => simp only [State.onSlot, hs]
  | some sg =>
    have hbad : (!sg.ok d a b || !slotTakes sl maj x || (s.ctl.ext.isSome && !takesExt maj x) || !immOk s.ctl.ext maj x b) = true := by
      rw [State.slotAdmits, legalF, hs] at h
      rw [← Bool.not_eq_false', ← h]
      simp
    simp only [State.onSlot, hs, hbad, if_true]

theorem onSlot_nullified {body : State → Run State} (h : s.slotAdmits sl maj x d a b = true) (hg : (s.bench bn).rg g = false) :
    s.onSlot bn sl maj x g d a b false body = retires s := by
  cases hs : sigF maj x with
  | none => rw [slotAdmits_of_none hs] at h; cases h
  | some sg =>
    have hgood : (!sg.ok d a b || !slotTakes sl maj x || (s.ctl.ext.isSome && !takesExt maj x) || !immOk s.ctl.ext maj x b) = false := by
      rw [State.slotAdmits, legalF, hs] at h
      rw [← Bool.not_eq_true', ← h]
      simp
    simp [State.onSlot, hs, hgood, hg, retires]

/-! ### What a syllable's answer owes its encoding -/

/-- `r` is what a live context owes a syllable of these operands: ILLEGAL_ENCODING where it does not take it, and no effect where it does and
the guard reads false; SEL (major 0x16) takes its guard as an operand. -/
structure CtxScreened (s : State) (maj x g d a b : Nat) (r : Answer) : Prop where
  illegal : ∀ c, s.ctl.cur = .ctx c → (s.ctx? c).isSome = true → s.ctxAdmits maj x g d a b = false →
    r = .next (s.raise c s.ctl.group 1 0 0)
  nullified : ∀ c, s.ctl.cur = .ctx c → (s.ctx? c).isSome = true → s.ctxAdmits maj x g d a b = true → maj ≠ 0x16 →
    (s.ctx c).guard g = false → r = retires s

/-- The same of a slot of a bundle. -/
structure SlotScreened (s : State) (maj x g d a b : Nat) (r : Answer) : Prop where
  illegal : ∀ bn sl, s.ctl.cur = .slot bn sl →
    s.slotAdmits sl maj x d a b = false ∨ clash maj x d a b ((s.bench bn).width sl) = true →
    r = .next (s.benchFault bn s.ctl.group 1 0 0)
  nullified : ∀ bn sl, s.ctl.cur = .slot bn sl → s.slotAdmits sl maj x d a b = true →
    clash maj x d a b ((s.bench bn).width sl) = false → maj ≠ 0x16 → (s.bench bn).rg g = false → r = retires s

/-- Both planes at once. -/
structure Screened (s : State) (maj x g d a b : Nat) (r : Answer) : Prop where
  ctx : CtxScreened s maj x g d a b r
  slot : SlotScreened s maj x g d a b r

theorem CtxScreened.of_onCtx (sel : Bool) (hsel : sel = true → maj = 0x16)
    (h : ∀ c, s.ctl.cur = .ctx c → ∃ pre body, r = s.onCtx c maj x g d a b sel pre body) : CtxScreened s maj x g d a b r where
  illegal c hc hl hn := by
    obtain ⟨pre, body, e⟩ := h c hc
    exact e.trans (onCtx_illegal hl hn)
  nullified c hc hl ha hm hg := by
    obtain ⟨pre, body, e⟩ := h c hc
    cases sel with
    | true => exact absurd (hsel rfl) hm
    | false => exact e.trans (onCtx_nullified hl ha hg)

/-- A form that no context takes. -/
theorem CtxScreened.of_none (hW : sigW maj x = none)
    (h : ∀ c, s.ctl.cur = .ctx c → (s.ctx? c).isSome = true → r = finishW s c Machine.illegal) : CtxScreened s maj x g d a b r where
  illegal c hc hl _ := h c hc hl
  nullified c _ _ ha := by rw [ctxAdmits_of_none hW] at ha; cases ha

theorem SlotScreened.of_onSlot (sel : Bool) (hsel : sel = true → maj = 0x16) (hc : ∀ width, clash maj x d a b width = false)
    (h : ∀ bn sl, s.ctl.cur = .slot bn sl → ∃ body, r = s.onSlot bn sl maj x g d a b sel body) : SlotScreened s maj x g d a b r where
  illegal bn sl hs hn := by
    obtain ⟨body, e⟩ := h bn sl hs
    rw [hc] at hn
    exact e.trans (onSlot_illegal (hn.resolve_right Bool.false_ne_true))
  nullified bn sl hs ha _ hm hg := by
    obtain ⟨body, e⟩ := h bn sl hs
    cases sel with
    | true => exact absurd (hsel rfl) hm
    | false => exact e.trans (onSlot_nullified ha hg)

/-- A form that no slot takes. -/
theorem SlotScreened.of_none (hF : sigF maj x = none) (h : ∀ bn sl, s.ctl.cur = .slot bn sl → r = finishF' s bn Machine.illegal) :
    SlotScreened s maj x g d a b r where
  illegal bn sl hs _ := h bn sl hs
  nullified bn sl _ ha := by rw [slotAdmits_of_none hF] at ha; cases ha

/-! ### The wrappers -/

theorem both_screened {pre : State → Nat → Run Unit} {wb : Nat → State → Run State} {fb : Nat → SlotName → State → Run State}
    (hc : ∀ width, clash maj x d a b width = false := by intro; rfl) : Screened s maj x g d a b (both maj x g d a b pre wb fb s) where
  ctx := .of_onCtx false (fun h => nomatch h) (fun c hc => ⟨pre s c, wb c, by simp only [both, hc]⟩)
  slot := .of_onSlot false (fun h => nomatch h) hc (fun bn sl hs => ⟨fb bn sl, by simp only [both, hs]⟩)

theorem weave_screened {pre : State → Nat → Run Unit} {body : Nat → State → Run State} (hF : sigF maj x = none := by rfl) :
    Screened s maj x g d a b (weave maj x g d a b pre body s) where
  ctx := .of_onCtx false (fun h => nomatch h) (fun c hc => ⟨pre s c, body c, by simp only [weave, hc]⟩)
  slot := .of_none hF (fun bn sl hs => by simp only [weave, hs])

theorem frame_screened {body : Nat → SlotName → State → Run State} (hW : sigW maj x = none := by rfl)
    (hc : ∀ width, clash maj x d a b width = false := by intro; rfl) : Screened s maj x g d a b (frame maj x g d a b body s) where
  ctx := .of_none hW (fun c hc hl => by simp only [frame, hc, onCtx_illegal hl (ctxAdmits_of_none hW)])
  slot := .of_onSlot false (fun h => nomatch h) hc (fun bn sl hs => ⟨body bn sl, by simp only [frame, hs]⟩)

theorem frameIf_screened {ok : Bench → SlotName → Bool} {body : Nat → SlotName → State → Run State} (hW : sigW maj x = none)
    (hc : ∀ k sl, clash maj x d a b (k.width sl) = !ok k sl) : Screened s maj x g d a b (frameIf maj x g d a b ok body s) where
  ctx := .of_none hW (fun c hc hl => by simp only [frameIf, hc, onCtx_illegal hl (ctxAdmits_of_none hW)])
  slot :=
    { illegal := fun bn sl hs hn => by
        rw [hc] at hn
        cases hok : ok (s.bench bn) sl with
        | false => simp only [frameIf, hs, hok]; rfl
        | true =>
          have ha : s.slotAdmits sl maj x d a b = false := by simpa [hok] using hn
          simp only [frameIf, hs, hok, if_true, onSlot_illegal ha]; rfl
      nullified := fun bn sl hs ha hn _ hg => by
        have hok : ok (s.bench bn) sl = true := by simpa [hc] using hn
        simp only [frameIf, hs, hok, if_true, onSlot_nullified ha hg] }

/-- A meaning that goes on from a wrapper's answer `r` owes no more than the wrapper where it keeps these answers. -/
theorem Screened.continued {r' : Answer} (h : Screened s maj x g d a b r)
    (hi : ∀ c, s.ctl.cur = .ctx c → r = .next (s.raise c s.ctl.group 1 0 0) → r' = r)
    (hn : ∀ c, s.ctl.cur = .ctx c → (s.ctx c).guard g = false → r = retires s → r' = r)
    (hs : ∀ bn sl u, s.ctl.cur = .slot bn sl → r = .next u → r' = r) : Screened s maj x g d a b r' where
  ctx :=
    { illegal := fun c hc hl ha => have e := h.ctx.illegal c hc hl ha; (hi c hc e).trans e
      nullified := fun c hc hl ha hm hg => have e := h.ctx.nullified c hc hl ha hm hg; (hn c hc hg e).trans e }
  slot :=
    { illegal := fun bn sl hc ha => have e := h.slot.illegal bn sl hc ha; (hs bn sl _ hc e).trans e
      nullified := fun bn sl hc ha hcl hm hg => have e := h.slot.nullified bn sl hc ha hcl hm hg; (hs bn sl _ hc e).trans e }

end Sys2Proof.Machine
end

section
/-! The operands that the decoder's layouts give the wrappers, against the fields of the word. -/

namespace Sys2Proof.Machine

variable {s : State} {w maj x g d a b : Nat} {r : Answer}

/-- The field that a word's third operand or its immediate stands in (R59, R69). -/
def rawOf (w : Nat) : Nat :=
  let maj := fld w 24 7
  if 0x08 ≤ maj ∧ maj ≤ 0x10 then fld w 0 8 else if maj = 0x11 ∨ maj = 0x12 then fld w 0 14 else fld w 2 6

/-- `r` is what state `s` owes the syllable `w`. -/
def Owed (s : State) (w : Nat) (r : Answer) : Prop :=
  Screened s (fld w 24 7) (fld w 0 2) (fld w 20 4) (fld w 14 6) (fld w 8 6) (rawOf w) r

/-- The majors whose third operand stands in bits [7:2]. -/
def bitsB (maj : Nat) : Bool := decide (maj < 8) || decide (0x12 < maj)

theorem rawOf_bitsB (h : bitsB (fld w 24 7) = true) : rawOf w = fld w 2 6 := by
  simp only [bitsB, Bool.or_eq_true, decide_eq_true_eq] at h
  simp only [rawOf]
  rw [if_neg (by omega), if_neg (by omega)]

/-- A wrapper that is given a word's own fields. -/
theorem Owed.of_fields (hm : fld w 24 7 = maj) (hx : fld w 0 2 = x) (hg : fld w 20 4 = g) (hd : fld w 14 6 = d) (ha : fld w 8 6 = a)
    (hb : fld w 2 6 = b) (h : Screened s maj x g d a b r) (hf : bitsB maj = true := by rfl) : Owed s w r := by
  subst hm
  rw [Owed, rawOf_bitsB hf, hx, hg, hd, ha, hb]
  exact h

/-! ### Layouts without unused fields -/

/-- The layouts Tri, Imm6, BinN, Lea and Local. -/
theorem Owed.tri (hm : fld w 24 7 = maj) (hx : fld w 0 2 = x)
    (h : Screened s maj x (fld w 20 4) (fld w 14 6) (fld w 8 6) (fld w 2 6) r) (hf : bitsB maj = true := by rfl) : Owed s w r :=
  .of_fields hm hx rfl rfl rfl rfl h hf

/-! ### Layouts whose unused fields are 0 -/

section unused
variable (hm : fld w 24 7 = maj) (hx : fld w 0 2 = x)
include hm hx

theorem Owed.bin (hu : (fld w 2 6 == 0) = true) (h : Screened s maj x (fld w 20 4) (fld w 14 6) (fld w 8 6) 0 r)
    (hf : bitsB maj = true := by rfl) : Owed s w r :=
  .of_fields hm hx rfl rfl rfl (beq_iff_eq.1 hu) h hf

theorem Owed.unA (hu : (fld w 2 6 == 0 && fld w 14 6 == 0) = true) (h : Screened s maj x (fld w 20 4) 0 (fld w 8 6) 0 r)
    (hf : bitsB maj = true := by rfl) : Owed s w r := by
  simp only [Bool.and_eq_true, beq_iff_eq] at hu
  obtain ⟨hb, hd⟩ := hu
  exact .of_fields hm hx rfl hd rfl hb h hf

/-- The layouts AB and AImm. -/
theorem Owed.ab (hu : (fld w 14 6 == 0) = true) (h : Screened s maj x (fld w 20 4) 0 (fld w 8 6) (fld w 2 6) r)
    (hf : bitsB maj = true := by rfl) : Owed s w r :=
  .of_fields hm hx rfl (beq_iff_eq.1 hu) rfl rfl h hf

/-- The layouts DB and DImm. -/
theorem Owed.db (hu : (fld w 8 6 == 0) = true) (h : Screened s maj x (fld w 20 4) (fld w 14 6) 0 (fld w 2 6) r)
    (hf : bitsB maj = true := by rfl) : Owed s w r :=
  .of_fields hm hx rfl rfl (beq_iff_eq.1 hu) rfl h hf

theorem Owed.unD (hu : (fld w 2 12 == 0) = true) (h : Screened s maj x (fld w 20 4) (fld w 14 6) 0 0 r)
    (hf : bitsB maj = true := by rfl) : Owed s w r := by
  simp only [fld, beq_iff_eq] at hu
  refine .of_fields hm hx rfl rfl ?_ ?_ h hf <;> (simp only [fld]; omega)

/-- The layouts UnB and TrapImm. -/
theorem Owed.unB (hu : (fld w 8 12 == 0) = true) (h : Screened s maj x (fld w 20 4) 0 0 (fld w 2 6) r)
    (hf : bitsB maj = true := by rfl) : Owed s w r := by
  simp only [fld, beq_iff_eq] at hu
  refine .of_fields hm hx rfl ?_ ?_ rfl h hf <;> (simp only [fld]; omega)

theorem Owed.nul (hu : (fld w 2 18 == 0) = true) (h : Screened s maj x (fld w 20 4) 0 0 0 r)
    (hf : bitsB maj = true := by rfl) : Owed s w r := by
  simp only [fld, beq_iff_eq] at hu
  refine .of_fields hm hx rfl ?_ ?_ ?_ h hf <;> (simp only [fld]; omega)

theorem Owed.bare (hu : (fld w 2 22 == 0) = true) (h : Screened s maj x 0 0 0 0 r) (hf : bitsB maj = true := by rfl) : Owed s w r := by
  simp only [fld, beq_iff_eq] at hu
  refine .of_fields hm hx ?_ ?_ ?_ ?_ h hf <;> (simp only [fld]; omega)

theorem Owed.anchor (hu : (fld w 8 16 == 0) = true) (h : Screened s maj x 0 0 0 (fld w 2 6) r)
    (hf : bitsB maj = true := by rfl) : Owed s w r := by
  simp only [fld, beq_iff_eq] at hu
  refine .of_fields hm hx ?_ ?_ ?_ rfl h hf <;> (simp only [fld]; omega)

/-! ### Layouts with narrow fields, whose upper bits are 0 -/

/-- The layouts BinH2, BinN2 and BarTest: one bit of B. -/
theorem Owed.bitB (hu : (fld w 3 5 == 0) = true) (h : Screened s maj x (fld w 20 4) (fld w 14 6) (fld w 8 6) (fld w 2 1) r)
    (hf : bitsB maj = true := by rfl) : Owed s w r := by
  simp only [fld, beq_iff_eq] at hu
  refine .of_fields hm hx rfl rfl rfl ?_ h hf
  simp only [fld]; omega

theorem Owed.barWait (hu : (fld w 3 5 == 0 && fld w 14 6 == 0) = true) (h : Screened s maj x (fld w 20 4) 0 (fld w 8 6) (fld w 2 1) r)
    (hf : bitsB maj = true := by rfl) : Owed s w r := by
  simp only [fld, Bool.and_eq_true, beq_iff_eq] at hu
  refine .of_fields hm hx rfl hu.right rfl ?_ h hf
  simp only [fld]; omega

theorem Owed.binH7 (hu : (fld w 2 5 == 0) = true) (h : Screened s maj x (fld w 20 4) (fld w 14 6) (fld w 8 6) (32 * fld w 7 1) r)
    (hf : bitsB maj = true := by rfl) : Owed s w r := by
  simp only [fld, beq_iff_eq] at hu
  refine .of_fields hm hx rfl rfl rfl ?_ h hf
  simp only [fld]; omega

theorem Owed.cvtHR (hu : (fld w 5 2 == 0) = true)
    (h : Screened s maj x (fld w 20 4) (fld w 14 6) (fld w 8 6) (32 * fld w 7 1 + fld w 2 3) r)
    (hf : bitsB maj = true := by rfl) : Owed s w r := by
  simp only [fld, beq_iff_eq] at hu
  refine .of_fields hm hx rfl rfl rfl ?_ h hf
  simp only [fld]; omega

theorem Owed.cvtR (hu : (fld w 5 3 == 0) = true) (h : Screened s maj x (fld w 20 4) (fld w 14 6) (fld w 8 6) (fld w 2 3) r)
    (hf : bitsB maj = true := by rfl) : Owed s w r := by
  simp only [fld, beq_iff_eq] at hu
  refine .of_fields hm hx rfl rfl rfl ?_ h hf
  simp only [fld]; omega

theorem Owed.lload (hu : (fld w 5 3 == 0 && fld w 14 6 == 0) = true) (h : Screened s maj x (fld w 20 4) 0 (fld w 8 6) (fld w 2 3) r)
    (hf : bitsB maj = true := by rfl) : Owed s w r := by
  simp only [fld, Bool.and_eq_true, beq_iff_eq] at hu
  refine .of_fields hm hx rfl hu.right rfl ?_ h hf
  simp only [fld]; omega

/-- The layouts GuardN and HandleAB: four bits of D. -/
theorem Owed.handleAB (hu : (fld w 18 2 == 0) = true) (h : Screened s maj x (fld w 20 4) (fld w 14 4) (fld w 8 6) (fld w 2 6) r)
    (hf : bitsB maj = true := by rfl) : Owed s w r := by
  simp only [fld, beq_iff_eq] at hu
  refine .of_fields hm hx rfl ?_ rfl rfl h hf
  simp only [fld]; omega

theorem Owed.handleD (hu : (fld w 2 12 == 0 && fld w 18 2 == 0) = true) (h : Screened s maj x (fld w 20 4) (fld w 14 4) 0 0 r)
    (hf : bitsB maj = true := by rfl) : Owed s w r := by
  simp only [fld, Bool.and_eq_true, beq_iff_eq] at hu
  refine .of_fields hm hx rfl ?_ ?_ ?_ h hf <;> (simp only [fld]; omega)

theorem Owed.handleRd (hu : (fld w 12 2 == 0) = true) (h : Screened s maj x (fld w 20 4) (fld w 14 6) (fld w 8 4) (fld w 2 6) r)
    (hf : bitsB maj = true := by rfl) : Owed s w r := by
  simp only [fld, beq_iff_eq] at hu
  refine .of_fields hm hx rfl rfl ?_ rfl h hf
  simp only [fld]; omega

theorem Owed.osmUpd (hu : (fld w 12 2 == 0 && fld w 18 2 == 0) = true)
    (h : Screened s maj x (fld w 20 4) (fld w 14 4) (fld w 8 4) (fld w 2 6) r) (hf : bitsB maj = true := by rfl) : Owed s w r := by
  simp only [fld, Bool.and_eq_true, beq_iff_eq] at hu
  refine .of_fields hm hx rfl ?_ ?_ rfl h hf <;> (simp only [fld]; omega)

theorem Owed.osmMrg (hu : (fld w 2 6 == 0 && fld w 12 2 == 0 && fld w 18 2 == 0) = true)
    (h : Screened s maj x (fld w 20 4) (fld w 14 4) (fld w 8 4) 0 r) (hf : bitsB maj = true := by rfl) : Owed s w r := by
  simp only [fld, Bool.and_eq_true, beq_iff_eq] at hu
  refine .of_fields hm hx rfl ?_ ?_ hu.left.left h hf <;> (simp only [fld]; omega)

theorem Owed.mm (hu : (fld w 5 2 == 0 && fld w 18 2 == 0) = true)
    (h : Screened s maj x (fld w 20 4) (fld w 14 4) (fld w 8 6) (32 * fld w 7 1 + fld w 2 3) r)
    (hf : bitsB maj = true := by rfl) : Owed s w r := by
  simp only [fld, Bool.and_eq_true, beq_iff_eq] at hu
  refine .of_fields hm hx rfl ?_ rfl ?_ h hf <;> (simp only [fld]; omega)

theorem Owed.seqlWr (hu : (fld w 2 6 == 0 && fld w 17 3 == 0) = true)
    (h : Screened s maj x (fld w 20 4) (fld w 14 3) (fld w 8 6) 0 r) (hf : bitsB maj = true := by rfl) : Owed s w r := by
  simp only [fld, Bool.and_eq_true, beq_iff_eq] at hu
  refine .of_fields hm hx rfl ?_ rfl hu.left h hf
  simp only [fld]; omega

theorem Owed.seqlRd (hu : (fld w 2 6 == 1 && fld w 11 3 == 0) = true)
    (h : Screened s maj x (fld w 20 4) (fld w 14 6) (fld w 8 3) 1 r) (hf : bitsB maj = true := by rfl) : Owed s w r := by
  simp only [fld, Bool.and_eq_true, beq_iff_eq] at hu
  refine .of_fields hm hx rfl rfl ?_ hu.left h hf
  simp only [fld]; omega

theorem Owed.pause (hu : (fld w 20 4 == 0) = true)
    (h : Screened s maj x 0 (fld w 2 18 / 4096) (fld w 2 18 / 64 % 64) (fld w 2 18 % 64) r) (hf : bitsB maj = true := by rfl) :
    Owed s w r := by
  refine .of_fields hm hx (beq_iff_eq.1 hu) ?_ ?_ ?_ h hf <;> (simp only [fld]; omega)

end unused

/-! ### Layouts with operands that the form's encoding does not limit -/

/-- Operands that the tables of forms do not tell apart. -/
theorem Screened.congr {x' d' a' b' : Nat} (hW : legalW maj x' d' a' b' = legalW maj x d a b := by rfl)
    (hF : legalF maj x' d' a' b' = legalF maj x d a b := by rfl) (hs : ∀ sl, slotTakes sl maj x' = slotTakes sl maj x := by intro sl; rfl)
    (he : takesExt maj x' = takesExt maj x := by rfl) (hi : ∀ e, immOk e maj x' b' = immOk e maj x b := by intro e; rfl)
    (hc : ∀ width, clash maj x' d' a' b' width = clash maj x d a b width := by intro width; rfl) (h : Screened s maj x g d a b r) :
    Screened s maj x' g d' a' b' r := by
  have hca : s.ctxAdmits maj x' g d' a' b' = s.ctxAdmits maj x g d a b := by simp only [State.ctxAdmits, hW, he, hi]
  have hsa (sl) : s.slotAdmits sl maj x' d' a' b' = s.slotAdmits sl maj x d a b := by simp only [State.slotAdmits, hF, hs, he, hi]
  obtain ⟨⟨ci, cn⟩, si, sn⟩ := h
  exact ⟨⟨by simpa only [hca] using ci, by simpa only [hca] using cn⟩, by simpa only [hsa, hc] using si, by simpa only [hsa, hc] using sn⟩

/-- The majors whose immediate no rule limits. -/
theorem immOk_unlimited {e : Option Nat} (h : 0x18 < maj) (h' : maj < 0x5C) : immOk e maj x b = true := by
  unfold immOk
  rw [if_neg (by omega), if_neg (by omega), if_neg (by omega), if_neg (by omega), if_neg (by omega), if_neg (by omega), if_neg (by omega)]

section unlimited
variable {x' a' b' : Nat}

theorem immOk_congr (h : 0x18 < maj) (h' : maj < 0x5C) (e : Option Nat) : immOk e maj x' b' = immOk e maj x b :=
  (immOk_unlimited h h').trans (immOk_unlimited h h').symm

theorem Screened.imm8 (hlo : 0x08 ≤ maj) (hhi : maj ≤ 0x10) (h : Screened s maj 0 g d a b r) : Screened s maj x' g d a b r := by
  rcases (by omega : maj = 0x08 ∨ maj = 0x09 ∨ maj = 0x0A ∨ maj = 0x0B ∨ maj = 0x0C ∨
    maj = 0x0D ∨ maj = 0x0E ∨ maj = 0x0F ∨ maj = 0x10) with rfl | rfl | rfl | rfl | rfl | rfl | rfl | rfl | rfl <;> exact .congr (h := h)

theorem Screened.wide (hlo : 0x11 ≤ maj) (hhi : maj ≤ 0x12) (h : Screened s maj 0 g d 0 b r) : Screened s maj x' g d a' b r := by
  rcases (by omega : maj = 0x11 ∨ maj = 0x12) with rfl | rfl <;> exact .congr (h := h)

theorem Screened.jump (hlo : 0x20 ≤ maj) (hhi : maj ≤ 0x21) (h : Screened s maj 0 g 0 0 0 r) : Screened s maj x' g d a' b' r := by
  have hi := immOk_congr (maj := maj) (x := 0) (b := 0) (x' := x') (b' := b') (by omega) (by omega)
  rcases (by omega : maj = 0x20 ∨ maj = 0x21) with rfl | rfl <;> exact .congr (hi := hi) (h := h)

theorem Screened.loopk (h : Screened s 0x23 0 g d a b r) : Screened s 0x23 x' g d a b' r :=
  .congr (hi := immOk_congr (by decide) (by decide)) (h := h)

theorem Screened.repf (h : Screened s 0x3B 0 g d a 0 r) : Screened s 0x3B 0 g d a b' r :=
  .congr (hi := immOk_congr (by decide) (by decide)) (h := h)

end unlimited

theorem Owed.imm8 (hm : fld w 24 7 = maj) (hlo : 0x08 ≤ maj) (hhi : maj ≤ 0x10)
    (h : Screened s maj 0 (fld w 20 4) (fld w 14 6) (fld w 8 6) (fld w 0 8) r) : Owed s w r := by
  have hraw : rawOf w = fld w 0 8 := by simp only [rawOf, hm]; exact if_pos ⟨hlo, hhi⟩
  rw [Owed, hm, hraw]
  exact h.imm8 hlo hhi

theorem Owed.wide (hm : fld w 24 7 = maj) (hlo : 0x11 ≤ maj) (hhi : maj ≤ 0x12)
    (h : Screened s maj 0 (fld w 20 4) (fld w 14 6) 0 (fld w 0 14) r) : Owed s w r := by
  have hraw : rawOf w = fld w 0 14 := by
    simp only [rawOf, hm]
    rw [if_neg (by omega), if_pos (by omega)]
  rw [Owed, hm, hraw]
  exact h.wide hlo hhi

theorem Owed.jump (hm : fld w 24 7 = maj) (hlo : 0x20 ≤ maj) (hhi : maj ≤ 0x21) (h : Screened s maj 0 (fld w 20 4) 0 0 0 r) :
    Owed s w r :=
  .tri hm rfl (h.jump hlo hhi) (by simp only [bitsB, Bool.or_eq_true, decide_eq_true_eq]; omega)

theorem Owed.loopk (hm : fld w 24 7 = 0x23) (hu : (fld w 17 7 == 0) = true)
    (h : Screened s 0x23 0 0 (fld w 14 3) (fld w 8 6) (fld w 0 8) r) : Owed s w r := by
  simp only [fld, beq_iff_eq] at hu
  exact .of_fields hm rfl (by simp only [fld]; omega) (d := fld w 14 3) (by simp only [fld]; omega) rfl rfl h.loopk

theorem Owed.repf (hm : fld w 24 7 = 0x3B) (hx : fld w 0 2 = 0) (hu : (fld w 17 3 == 0) = true)
    (h : Screened s 0x3B 0 (fld w 20 4) (fld w 14 3) (fld w 8 6) 0 r) : Owed s w r := by
  simp only [fld, beq_iff_eq] at hu
  exact .of_fields hm hx rfl (d := fld w 14 3) (by simp only [fld]; omega) rfl rfl h.repf

end Sys2Proof.Machine
end

section
/-! Every word that decodes, major by major: the wrapper that its form's meaning runs in, and the operands it gives it. -/

namespace Sys2Proof.Machine

variable {s : State} {w maj x : Nat}

/-- `P` holds of the instruction, where there is one. -/
def Decoded (P : Instr → Prop) : Except DecodeError Instr → Prop
  | .ok i => P i
  | .error _ => True

theorem Decoded.ite {P : Instr → Prop} {q : Bool} {u v : Except DecodeError Instr} (h : q = true → Decoded P u) (h' : Decoded P v) :
    Decoded P (if q = true then u else v) := by
  cases q with
  | true => exact h rfl
  | false => exact h'

/-- A form whose unused fields are to be 0. -/
theorem Decoded.unused {P : Instr → Prop} {i : Instr} {q : Bool} {e : DecodeError} (h : q = true → P i) :
    Decoded P (if q = true then .ok i else .error e) :=
  .ite h trivial

/-- State `s` answers the syllable `w`, of major `maj` and minor `x`, as it owes. -/
abbrev Handled (s : State) (w maj x : Nat) : Prop := Decoded (fun i => Owed s w (exec i s)) (decodeFields maj x w)

/-! ### Forms that do not end in a wrapper -/

theorem raise_verdict_ne (c : Nat) {v : Verdict} (ht : v ≠ .trapped) (hf : v ≠ .faulted) :
    (s.raise c s.ctl.group 1 0 0).ctl.verdict ≠ v := by
  obtain ⟨-, -, -, -, -, e | e⟩ := s.raise_frame c s.ctl.group 1 0 0 <;> rw [e]
  · exact ht.symm
  · exact hf.symm

theorem sel_screened (t : Tri) : Screened s 0x16 0 t.g t.d t.a t.b (execSel t s) where
  ctx := .of_onCtx true (fun _ => rfl) (fun c hc => ⟨_, _, by rw [execSel, hc]⟩)
  slot := .of_onSlot true (fun _ => rfl) (fun _ => rfl) (fun bn sl hs => ⟨_, by rw [execSel, hs]⟩)

theorem bhdr_screened (t : Bhdr) {g d a b : Nat} : Screened s 0x7D 3 g d a b (execBhdr t s) where
  ctx := .of_none rfl (fun c hc hl => by rw [execBhdr, hc]; exact onCtx_illegal hl (ctxAdmits_of_none rfl))
  slot := .of_none rfl (fun bn sl hs => by rw [execBhdr, hs])

theorem ldyf_screened (t : Imm6) : Screened s 0x2B 3 t.g t.d t.a t.i (execLdyf t s) := by
  have h : Screened s 0x2B 3 t.g t.d t.a t.i (weave 0x2B 3 t.g t.d t.a t.i (fun u c => u.ldyfPre c (u.eaOf c t.a t.i 4))
    (fun c u => u.ldyfBody c t.d (u.eaOf c t.a t.i 4)) s) := weave_screened
  refine h.continued (fun c hc e => ?_) (fun c hc _ e => ?_) (fun bn sl u hs e => ?_) <;> rw [execLdyf, e]
  · rw [hc]; exact congrArg _ (if_neg (raise_verdict_ne c (by decide) (by decide)))
  · simp only [retires, hc]; rfl
  · rw [hs]

theorem gbar_screened (t : Tri) : Screened s 0x3A 0 t.g t.d t.a t.b (execGbar t s) := by
  have h : Screened s 0x3A 0 t.g t.d t.a t.b (weave 0x3A 0 t.g t.d t.a t.b noPre (fun c u => u.gbarBody c t) s) := weave_screened
  refine h.continued (fun c hc e => ?_) (fun c hc _ e => ?_) (fun bn sl u hs e => ?_) <;> rw [execGbar, e]
  · rw [hc]; exact if_neg (fun ⟨hv, _⟩ => raise_verdict_ne c (by decide) (by decide) hv)
  · simp only [retires, hc]; exact if_neg (fun ⟨hv, _⟩ => nomatch hv)
  · rw [hs]

theorem trap_screened (t : TrapImm) : Screened s 0x7E 0 t.g 0 0 t.i (execTrap t s) := by
  have h : Screened s 0x7E 0 t.g 0 0 t.i (weave 0x7E 0 t.g 0 0 t.i noPre (fun _ u => .ok u) s) := weave_screened
  refine h.continued (fun c hc e => ?_) (fun c hc hg e => ?_) (fun bn sl u hs e => ?_) <;> rw [execTrap, e]
  · rw [hc]; exact if_neg (fun ⟨_, hv, _⟩ => raise_verdict_ne c (by decide) (by decide) hv)
  · simp only [retires, hc]; exact if_neg (fun ⟨_, _, hp⟩ => Bool.false_ne_true (hg.symm.trans hp))
  · rw [hs]

/-! ### Forms with fields that may not stand together -/

theorem vstm_screened (t : Imm6) : Screened s 0x66 3 t.g t.d t.a t.i (execVstm t s) :=
  frameIf_screened rfl fun _ _ => by rcases Nat.mod_two_eq_zero_or_one t.d with e | e <;> simp [clash, e]

theorem vmova_screened (t : BinN) : Screened s 0x67 0 t.g t.d t.a t.n (execVmova t s) :=
  frameIf_screened rfl fun _ _ => by simp only [clash, ← decide_not, Nat.not_lt]

theorem osmUpd_screened (t : OsmUpd) : Screened s 0x6B 0 t.g t.d t.a t.b (execOsmUpd t s) :=
  frameIf_screened rfl fun _ _ => (Bool.not_not _).symm

theorem osmMrg_screened (t : OsmMrg) : Screened s 0x6B 1 t.g t.d t.a 0 (execOsmMrg t s) :=
  frameIf_screened rfl fun _ _ => (Bool.not_not _).symm

theorem winSet_screened (t : Tri) : Screened s 0x71 2 t.g t.d t.a t.b (execWinSet t s) :=
  frameIf_screened rfl fun _ _ => (Bool.not_or _ _).symm

theorem fcnt_screened (t : Tri) : Screened s 0x7C 3 t.g t.d t.a t.b (execFcnt t s) :=
  frameIf_screened rfl fun _ _ => (Bool.not_or _ _).symm

theorem pause_screened (t : Pause) :
    Screened s 0x7D 2 0 (t.c / 4096) (t.c / 64 % 64) (t.c % 64) (execPause t s) :=
  frameIf_screened rfl fun _ _ => by
    rw [Bool.eq_iff_iff]
    simp only [clash, Bool.and_eq_true, beq_iff_eq, Bool.not_eq_true', bne_eq_false_iff_eq]
    omega

/-! ### Meanings whose wrapper Lean finds only from their own name

The decoder's cases below state `exec` of a constructor; for most of them unification unfolds it down to the wrapper. -/

theorem immAlu_screened {lat g d a raw : Nat} {imm : State → Run W64} {f : W64 → W64 → W64}
    (hc : ∀ width, clash maj x d a raw width = false := by intro; rfl) :
    Screened s maj x g d a raw (immAlu maj x lat g d a raw imm f s) := both_screened hc
theorem addi_screened (t : Imm8) : Screened s 0x08 0 t.g t.d t.a t.i (execAddi t s) := immAlu_screened
theorem andi_screened (t : Imm8) : Screened s 0x09 0 t.g t.d t.a t.i (execAndi t s) := immAlu_screened
theorem ori_screened (t : Imm8) : Screened s 0x0A 0 t.g t.d t.a t.i (execOri t s) := immAlu_screened
theorem xori_screened (t : Imm8) : Screened s 0x0B 0 t.g t.d t.a t.i (execXori t s) := immAlu_screened
theorem shli_screened (t : Imm8) : Screened s 0x0C 0 t.g t.d t.a t.i (execShli t s) := immAlu_screened
theorem shri_screened (t : Imm8) : Screened s 0x0D 0 t.g t.d t.a t.i (execShri t s) := immAlu_screened
theorem sari_screened (t : Imm8) : Screened s 0x0E 0 t.g t.d t.a t.i (execSari t s) := immAlu_screened
theorem slti_screened (t : Imm8) : Screened s 0x0F 0 t.g t.d t.a t.i (execSlti t s) := immAlu_screened
theorem sltiu_screened (t : Imm8) : Screened s 0x10 0 t.g t.d t.a t.i (execSltiu t s) := immAlu_screened
theorem lih_screened (t : Wide) : Screened s 0x12 0 t.g t.d 0 t.i (execLih t s) := both_screened
theorem extr_screened (t : Imm6) : Screened s 0x18 0 t.g t.d t.a t.i (execExtr t s) := both_screened
theorem ins_screened (t : Imm6) : Screened s 0x18 1 t.g t.d t.a t.i (execIns t s) := both_screened
theorem loadFull_screened {size : Nat} {take : Bool} (t : Imm6) : Screened s 0x2C x t.g t.d t.a t.i (loadFull x size take t s) :=
  weave_screened
theorem storeFull_screened {size : Nat} (t : Imm6) (hF : sigF 0x2D x = none := by rfl) :
    Screened s 0x2D x t.g t.d t.a t.i (storeFull x size t s) := weave_screened hF
theorem sete_screened (t : AImm) : Screened s 0x2D 2 t.g 0 t.a t.i (execSete t s) := weave_screened
theorem amo_screened {op : Nat} (t : Tri) (hF : sigF maj x = none := by rfl) : Screened s maj x t.g t.d t.a t.b (amo maj x op t s) :=
  weave_screened hF
theorem cflush_screened (t : Imm6) : Screened s 0x31 0 t.g t.d t.a t.i (execCflush t s) := weave_screened
theorem cinv_screened (t : Imm6) : Screened s 0x31 1 t.g t.d t.a t.i (execCinv t s) := weave_screened
theorem loadLocal_screened {size : Nat} (t : Local) (hF : sigF maj t.m = none := by rfl) :
    Screened s maj t.m t.g t.d t.a t.i (loadLocalForm maj size t s) := weave_screened hF
theorem storeLocal_screened {size : Nat} (t : Local) (hF : sigF maj t.m = none := by rfl) :
    Screened s maj t.m t.g t.d t.a t.i (storeLocalForm maj size t s) := weave_screened hF
theorem repf_screened (t : Repf) : Screened s 0x3B 0 t.g t.f t.a 0 (execRepf t s) := weave_screened
theorem tenonV_screened (t : AB) : Screened s 0x3D 0 t.g 0 t.a t.b (execTenonV t s) := weave_screened
theorem tenonW_screened (t : AB) : Screened s 0x3D 1 t.g 0 t.a t.b (execTenonW t s) := weave_screened
theorem wmSet_screened (t : Tri) : Screened s 0x77 0 t.g t.d t.a t.b (execWmSet t s) := both_screened

theorem minor_cases (hlt : x < 4) : x = 0 ∨ x = 1 ∨ x = 2 ∨ x = 3 := by omega

/-! ### Majors without a minor -/

section majors
variable (hm : fld w 24 7 = maj)
include hm

theorem handled_imm8 (h : maj = 0x08 ∨ maj = 0x09 ∨ maj = 0x0A ∨ maj = 0x0B ∨ maj = 0x0C ∨ maj = 0x0D ∨ maj = 0x0E ∨ maj = 0x0F ∨
    maj = 0x10) : Handled s w maj x := by
  rcases h with rfl | rfl | rfl | rfl | rfl | rfl | rfl | rfl | rfl <;> refine Owed.imm8 hm (by decide) (by decide) ?_
  · exact addi_screened (Imm8.get w)
  · exact andi_screened (Imm8.get w)
  · exact ori_screened (Imm8.get w)
  · exact xori_screened (Imm8.get w)
  · exact shli_screened (Imm8.get w)
  · exact shri_screened (Imm8.get w)
  · exact sari_screened (Imm8.get w)
  · exact slti_screened (Imm8.get w)
  · exact sltiu_screened (Imm8.get w)

theorem handled_wide (h : maj = 0x11 ∨ maj = 0x12) : Handled s w maj x := by
  rcases h with rfl | rfl
  · exact Owed.wide hm (by decide) (by decide) both_screened
  · exact Owed.wide hm (by decide) (by decide) (lih_screened (Wide.get w))

theorem handled_jump (h : maj = 0x20 ∨ maj = 0x21) : Handled s w maj x := by
  rcases h with rfl | rfl <;> exact Owed.jump hm (by decide) (by decide) both_screened

theorem handled_local (h : maj = 0x32 ∨ maj = 0x33 ∨ maj = 0x34 ∨ maj = 0x35) : Handled s w maj x := by
  rcases h with rfl | rfl | rfl | rfl
  · exact Owed.tri hm rfl (loadLocal_screened (Local.get w))
  · exact Owed.tri hm rfl (storeLocal_screened (Local.get w))
  · exact Owed.tri hm rfl (loadLocal_screened (Local.get w))
  · exact Owed.tri hm rfl (storeLocal_screened (Local.get w))

/-! ### Majors whose four minors are alike -/

variable (hx : fld w 0 2 = x) (hlt : x < 4)
include hx hlt

theorem handled_tri_both (h : maj = 0 ∨ maj = 1 ∨ maj = 2 ∨ maj = 3 ∨ maj = 4 ∨ maj = 5 ∨ maj = 6 ∨ maj = 0x13 ∨
    maj = 0x14) : Handled s w maj x := by
  rcases h with rfl | rfl | rfl | rfl | rfl | rfl | rfl | rfl | rfl <;>
    rcases minor_cases hlt with rfl | rfl | rfl | rfl <;>
    exact Owed.tri hm hx both_screened

theorem handled_tri_weave (h : maj = 0x28 ∨ maj = 0x2A ∨ maj = 0x40 ∨ maj = 0x41 ∨ maj = 0x42 ∨ maj = 0x43 ∨
    maj = 0x45) : Handled s w maj x := by
  rcases h with rfl | rfl | rfl | rfl | rfl | rfl | rfl <;>
    rcases minor_cases hlt with rfl | rfl | rfl | rfl <;>
    exact Owed.tri hm hx weave_screened

theorem handled_tri_frame (h : maj = 0x50 ∨ maj = 0x52 ∨ maj = 0x54 ∨ maj = 0x56 ∨ maj = 0x58 ∨ maj = 0x5A ∨ maj = 0x5E ∨ maj = 0x60 ∨
    maj = 0x61 ∨ maj = 0x63 ∨ maj = 0x6D) : Handled s w maj x := by
  rcases h with rfl | rfl | rfl | rfl | rfl | rfl | rfl | rfl | rfl | rfl | rfl <;>
    rcases minor_cases hlt with rfl | rfl | rfl | rfl <;>
    exact Owed.tri hm hx frame_screened

theorem handled_loadFull (h : maj = 0x2C) : Handled s w maj x := by
  subst h
  rcases minor_cases hlt with rfl | rfl | rfl | rfl <;> exact Owed.tri hm hx (loadFull_screened (Imm6.get w))

theorem handled_atomic (h : maj = 0x2E ∨ maj = 0x2F) : Handled s w maj x := by
  rcases h with rfl | rfl <;>
    rcases minor_cases hlt with rfl | rfl | rfl | rfl <;>
    exact Owed.tri hm hx (amo_screened (Tri.get w))

theorem handled_bin_both (h : maj = 7) : Handled s w maj x := by
  subst h
  rcases minor_cases hlt with rfl | rfl | rfl | rfl <;> exact .unused fun u => .bin hm hx u both_screened

theorem handled_bin_weave (h : maj = 0x46) : Handled s w maj x := by
  subst h
  rcases minor_cases hlt with rfl | rfl | rfl | rfl <;> exact .unused fun u => .bin hm hx u weave_screened

theorem handled_bin_frame (h : maj = 0x5F ∨ maj = 0x65) : Handled s w maj x := by
  rcases h with rfl | rfl <;>
    rcases minor_cases hlt with rfl | rfl | rfl | rfl <;>
    exact .unused fun u => .bin hm hx u frame_screened

theorem handled_fence (h : maj = 0x30) : Handled s w maj x := by
  subst h
  rcases minor_cases hlt with rfl | rfl | rfl | rfl <;> exact .unused fun u => .unB hm hx u weave_screened

theorem handled_products (h : maj = 0x68) : Handled s w maj x := by
  subst h
  rcases minor_cases hlt with rfl | rfl | rfl | rfl <;> exact .unused fun u => .mm hm hx u frame_screened

/-! ### Majors whose minors differ -/

theorem handled_vMinMax (h : maj = 0x51 ∨ maj = 0x53 ∨ maj = 0x55 ∨ maj = 0x57 ∨ maj = 0x59 ∨ maj = 0x5B) : Handled s w maj x := by
  rcases minor_cases hlt with rfl | rfl | rfl | rfl
  · rcases h with rfl | rfl | rfl | rfl | rfl | rfl <;> exact Owed.tri hm hx frame_screened
  · rcases h with rfl | rfl | rfl | rfl | rfl | rfl <;> exact Owed.tri hm hx frame_screened
  · rcases h with rfl | rfl | rfl | rfl | rfl | rfl <;> exact .unused fun u => .bin hm hx u frame_screened
  · rcases h with rfl | rfl | rfl | rfl | rfl | rfl <;> exact .unused fun u => .bin hm hx u frame_screened

/-- Predicate logic, SEL, LEA, and the bit fields. -/
theorem handled_predicates (h : maj = 0x15 ∨ maj = 0x16 ∨ maj = 0x17 ∨ maj = 0x18) : Handled s w maj x := by
  rcases h with rfl | rfl | rfl | rfl
  · rcases minor_cases hlt with rfl | rfl | rfl | rfl
    · exact Owed.tri hm hx both_screened
    · exact Owed.tri hm hx both_screened
    · exact Owed.tri hm hx both_screened
    · exact .unused fun u => .bin hm hx u both_screened
  · rcases minor_cases hlt with rfl | rfl | rfl | rfl
    · exact Owed.tri hm hx (sel_screened (Tri.get w))
    · exact trivial
    · exact trivial
    · exact trivial
  · exact Owed.tri hm rfl both_screened
  · rcases minor_cases hlt with rfl | rfl | rfl | rfl
    · exact Owed.tri hm hx (extr_screened (Imm6.get w))
    · exact Owed.tri hm hx (ins_screened (Imm6.get w))
    · exact trivial
    · exact trivial

/-- Jumps by register, the kernel forms of the frame plane, and WFE. -/
theorem handled_transfers (h : maj = 0x22 ∨ maj = 0x23 ∨ maj = 0x24 ∨ maj = 0x25) : Handled s w maj x := by
  rcases h with rfl | rfl | rfl | rfl
  · rcases minor_cases hlt with rfl | rfl | rfl | rfl
    · exact .unused fun u => .unA hm hx u both_screened
    · exact .unused fun u => .bin hm hx u both_screened
    · exact .unused fun u => .unA hm hx u both_screened
    · exact trivial
  · exact .unused fun u => .loopk hm u frame_screened
  · rcases minor_cases hlt with rfl | rfl | rfl | rfl
    · exact .unused fun u => .bare hm hx u frame_screened
    · exact trivial
    · exact trivial
    · exact trivial
  · rcases minor_cases hlt with rfl | rfl | rfl | rfl
    · exact Owed.tri hm hx weave_screened
    · exact trivial
    · exact trivial
    · exact trivial

/-- Unsigned loads, y registers, full/empty stores and cache operations. -/
theorem handled_memory (h : maj = 0x29 ∨ maj = 0x2B ∨ maj = 0x2D ∨ maj = 0x31) : Handled s w maj x := by
  rcases h with rfl | rfl | rfl | rfl
  · rcases minor_cases hlt with rfl | rfl | rfl | rfl
    · exact Owed.tri hm hx weave_screened
    · exact Owed.tri hm hx weave_screened
    · exact Owed.tri hm hx weave_screened
    · exact trivial
  · rcases minor_cases hlt with rfl | rfl | rfl | rfl
    · exact Owed.tri hm hx weave_screened
    · exact Owed.tri hm hx weave_screened
    · exact Owed.tri hm hx weave_screened
    · exact Owed.tri hm hx (ldyf_screened (Imm6.get w))
  · rcases minor_cases hlt with rfl | rfl | rfl | rfl
    · exact Owed.tri hm hx (storeFull_screened (Imm6.get w))
    · exact Owed.tri hm hx (storeFull_screened (Imm6.get w))
    · exact .unused fun u => .ab hm hx u (sete_screened (AImm.get w))
    · exact trivial
  · rcases minor_cases hlt with rfl | rfl | rfl | rfl
    · exact Owed.tri hm hx (cflush_screened (Imm6.get w))
    · exact Owed.tri hm hx (cinv_screened (Imm6.get w))
    · exact Owed.tri hm hx weave_screened
    · exact trivial

/-- Helpers, pipe ports and gang barriers. -/
theorem handled_roles (h : maj = 0x38 ∨ maj = 0x39 ∨ maj = 0x3A) : Handled s w maj x := by
  rcases h with rfl | rfl | rfl
  · rcases minor_cases hlt with rfl | rfl | rfl | rfl
    · exact Owed.tri hm hx weave_screened
    · exact .unused fun u => .unA hm hx u weave_screened
    · exact .unused fun u => .unA hm hx u weave_screened
    · exact .unused fun u => .unD hm hx u weave_screened
  · rcases minor_cases hlt with rfl | rfl | rfl | rfl
    · exact .unused fun u => .bin hm hx u weave_screened
    · exact .unused fun u => .bin hm hx u weave_screened
    · exact .unused fun u => .unA hm hx u weave_screened
    · exact Owed.tri hm hx weave_screened
  · rcases minor_cases hlt with rfl | rfl | rfl | rfl
    · exact Owed.tri hm hx (gbar_screened (Tri.get w))
    · exact Owed.tri hm hx weave_screened
    · exact .unused fun u => .ab hm hx u weave_screened
    · exact .unused fun u => .unD hm hx u weave_screened

/-- REPF, the endings of a context, and tenons. -/
theorem handled_contexts (h : maj = 0x3B ∨ maj = 0x3C ∨ maj = 0x3D) : Handled s w maj x := by
  rcases h with rfl | rfl | rfl
  · rcases minor_cases hlt with rfl | rfl | rfl | rfl
    · exact .unused fun u => .repf hm hx u (repf_screened (Repf.get w))
    · exact trivial
    · exact trivial
    · exact trivial
  · rcases minor_cases hlt with rfl | rfl | rfl | rfl
    · exact .unused fun u => .nul hm hx u weave_screened
    · exact .unused fun u => .ab hm hx u weave_screened
    · exact .unused fun u => .nul hm hx u weave_screened
    · exact Owed.tri hm hx weave_screened
  · rcases minor_cases hlt with rfl | rfl | rfl | rfl
    · exact .unused fun u => .ab hm hx u (tenonV_screened (AB.get w))
    · exact .unused fun u => .ab hm hx u (tenonW_screened (AB.get w))
    · exact .unused fun u => .bin hm hx u weave_screened
    · exact trivial

/-- Remote access. -/
theorem handled_remote (h : maj = 0x3E ∨ maj = 0x3F) : Handled s w maj x := by
  rcases h with rfl | rfl
  · rcases minor_cases hlt with rfl | rfl | rfl | rfl
    · exact .unused fun u => .bin hm hx u weave_screened
    · exact .unused fun u => .bin hm hx u weave_screened
    · exact .unused fun u => .bin hm hx u weave_screened
    · exact Owed.tri hm hx weave_screened
  · rcases minor_cases hlt with rfl | rfl | rfl | rfl
    · exact .unused fun u => .bin hm hx u weave_screened
    · exact .unused fun u => .bin hm hx u weave_screened
    · exact .unused fun u => .bin hm hx u weave_screened
    · exact trivial

/-- Conversions and elements of y registers. -/
theorem handled_yElements (h : maj = 0x44 ∨ maj = 0x47) : Handled s w maj x := by
  rcases h with rfl | rfl
  · rcases minor_cases hlt with rfl | rfl | rfl | rfl
    · exact Owed.tri hm hx weave_screened
    · exact .unused fun u => .bitB hm hx u weave_screened
    · exact .unused fun u => .bin hm hx u weave_screened
    · exact .unused fun u => .bin hm hx u weave_screened
  · rcases minor_cases hlt with rfl | rfl | rfl | rfl
    · exact .unused fun u => .bin hm hx u weave_screened
    · exact Owed.tri hm hx weave_screened
    · exact Owed.tri hm hx weave_screened
    · exact Owed.tri hm hx weave_screened

/-- Conversions of v registers. -/
theorem handled_vConversions (h : maj = 0x5C ∨ maj = 0x5D) : Handled s w maj x := by
  rcases h with rfl | rfl
  · rcases minor_cases hlt with rfl | rfl | rfl | rfl
    · exact .unused fun u => .binH7 hm hx u frame_screened
    · exact .unused fun u => .binH7 hm hx u frame_screened
    · exact .unused fun u => .cvtHR hm hx u frame_screened
    · exact .unused fun u => .cvtHR hm hx u frame_screened
  · rcases minor_cases hlt with rfl | rfl | rfl | rfl
    · exact .unused fun u => .cvtR hm hx u frame_screened
    · exact .unused fun u => .cvtR hm hx u frame_screened
    · exact .unused fun u => .binH7 hm hx u frame_screened
    · exact .unused fun u => .binH7 hm hx u frame_screened

/-- Logic, lane forms and the tensor-SRAM accesses of v registers. -/
theorem handled_lanes (h : maj = 0x62 ∨ maj = 0x64 ∨ maj = 0x66 ∨ maj = 0x67) : Handled s w maj x := by
  rcases h with rfl | rfl | rfl | rfl
  · rcases minor_cases hlt with rfl | rfl | rfl | rfl
    · exact Owed.tri hm hx frame_screened
    · exact Owed.tri hm hx frame_screened
    · exact Owed.tri hm hx frame_screened
    · exact .unused fun u => .bin hm hx u frame_screened
  · rcases minor_cases hlt with rfl | rfl | rfl | rfl
    · exact Owed.tri hm hx frame_screened
    · exact Owed.tri hm hx frame_screened
    · exact Owed.tri hm hx frame_screened
    · exact .unused fun u => .handleAB hm hx u frame_screened
  · rcases minor_cases hlt with rfl | rfl | rfl | rfl
    · exact Owed.tri hm hx frame_screened
    · exact Owed.tri hm hx frame_screened
    · exact Owed.tri hm hx frame_screened
    · exact Owed.tri hm hx (vstm_screened (Imm6.get w))
  · rcases minor_cases hlt with rfl | rfl | rfl | rfl
    · exact Owed.tri hm hx (vmova_screened (BinN.get w))
    · exact .unused fun u => .bin hm hx u frame_screened
    · exact .unused fun u => .bin hm hx u frame_screened
    · exact .unused fun u => .bin hm hx u frame_screened

/-- Sparse products, accumulators, the soft maximum and latches. -/
theorem handled_accumulators (h : maj = 0x69 ∨ maj = 0x6A ∨ maj = 0x6B ∨ maj = 0x6C) : Handled s w maj x := by
  rcases h with rfl | rfl | rfl | rfl
  · rcases minor_cases hlt with rfl | rfl | rfl | rfl
    · exact .unused fun u => .mm hm hx u frame_screened
    · exact .unused fun u => .mm hm hx u frame_screened
    · exact .unused fun u => .mm hm hx u frame_screened
    · exact .unused fun u => .bitB hm hx u frame_screened
  · rcases minor_cases hlt with rfl | rfl | rfl | rfl
    · exact .unused fun u => .handleD hm hx u frame_screened
    · exact .unused fun u => .handleRd hm hx u frame_screened
    · exact .unused fun u => .handleAB hm hx u frame_screened
    · exact .unused fun u => .handleD hm hx u frame_screened
  · rcases minor_cases hlt with rfl | rfl | rfl | rfl
    · exact .unused fun u => .osmUpd hm hx u (osmUpd_screened (OsmUpd.get w))
    · exact .unused fun u => .osmMrg hm hx u (osmMrg_screened (OsmMrg.get w))
    · exact .unused fun u => .handleD hm hx u frame_screened
    · exact .unused fun u => .handleD hm hx u frame_screened
  · rcases minor_cases hlt with rfl | rfl | rfl | rfl
    · exact .unused fun u => .lload hm hx u frame_screened
    · exact .unused fun u => .unA hm hx u frame_screened
    · exact .unused fun u => .nul hm hx u frame_screened
    · exact .unused fun u => .unD hm hx u frame_screened

/-- Winnow forms. -/
theorem handled_winnow (h : maj = 0x70 ∨ maj = 0x71) : Handled s w maj x := by
  rcases h with rfl | rfl
  · rcases minor_cases hlt with rfl | rfl | rfl | rfl
    · exact .unused fun u => .db hm hx u frame_screened
    · exact .unused fun u => .handleAB hm hx u frame_screened
    · exact .unused fun u => .unB hm hx u frame_screened
    · exact .unused fun u => .ab hm hx u frame_screened
  · rcases minor_cases hlt with rfl | rfl | rfl | rfl
    · exact .unused fun u => .unD hm hx u frame_screened
    · exact .unused fun u => .db hm hx u frame_screened
    · exact Owed.tri hm hx (winSet_screened (Tri.get w))
    · exact .unused fun u => .unA hm hx u frame_screened

/-- Copies, barriers, the jig and watermarks. -/
theorem handled_copies (h : maj = 0x74 ∨ maj = 0x75 ∨ maj = 0x76 ∨ maj = 0x77) : Handled s w maj x := by
  rcases h with rfl | rfl | rfl | rfl
  · rcases minor_cases hlt with rfl | rfl | rfl | rfl
    · exact .unused fun u => .bin hm hx u both_screened
    · exact .unused fun u => .bin hm hx u both_screened
    · exact .unused fun u => .bin hm hx u both_screened
    · exact Owed.tri hm hx both_screened
  · rcases minor_cases hlt with rfl | rfl | rfl | rfl
    · exact .unused fun u => .ab hm hx u both_screened
    · exact Owed.tri hm hx both_screened
    · exact .unused fun u => .barWait hm hx u weave_screened
    · exact .unused fun u => .bitB hm hx u both_screened
  · rcases minor_cases hlt with rfl | rfl | rfl | rfl
    · exact .unused fun u => .unA hm hx u frame_screened
    · exact .unused fun u => .nul hm hx u frame_screened
    · exact .unused fun u => .nul hm hx u frame_screened
    · exact .unused fun u => .unD hm hx u frame_screened
  · rcases minor_cases hlt with rfl | rfl | rfl | rfl
    · exact Owed.tri hm hx (wmSet_screened (Tri.get w))
    · exact .unused fun u => .bin hm hx u both_screened
    · exact .unused fun u => .bin hm hx u both_screened
    · exact .unused fun u => .bin hm hx u both_screened

/-- Channels, Spline groups and rings. -/
theorem handled_channels (h : maj = 0x78 ∨ maj = 0x79 ∨ maj = 0x7A) : Handled s w maj x := by
  rcases h with rfl | rfl | rfl
  · rcases minor_cases hlt with rfl | rfl | rfl | rfl
    · exact Owed.tri hm hx frame_screened
    · exact .unused fun u => .bin hm hx u frame_screened
    · exact Owed.tri hm hx frame_screened
    · exact .unused fun u => .bin hm hx u frame_screened
  · rcases minor_cases hlt with rfl | rfl | rfl | rfl
    · exact .unused fun u => .bin hm hx u weave_screened
    · exact .unused fun u => .unD hm hx u weave_screened
    · exact .unused fun u => .unD hm hx u weave_screened
    · exact .unused fun u => .bin hm hx u both_screened
  · rcases minor_cases hlt with rfl | rfl | rfl | rfl
    · exact .unused fun u => .ab hm hx u weave_screened
    · exact .unused fun u => .bin hm hx u both_screened
    · exact .unused fun u => .bin hm hx u weave_screened
    · exact Owed.tri hm hx both_screened

/-- Anchors, sequence lengths and the end of a block. -/
theorem handled_timing (h : maj = 0x7C ∨ maj = 0x7D) : Handled s w maj x := by
  rcases h with rfl | rfl
  · rcases minor_cases hlt with rfl | rfl | rfl | rfl
    · exact .unused fun u => .anchor hm hx u frame_screened
    · exact .unused fun u => .db hm hx u frame_screened
    · exact .unused fun u => .bin hm hx u frame_screened
    · exact Owed.tri hm hx (fcnt_screened (Tri.get w))
  · rcases minor_cases hlt with rfl | rfl | rfl | rfl
    · exact .ite (fun u => .seqlWr hm hx u frame_screened) (.unused fun u => .seqlRd hm hx u frame_screened)
    · exact .unused fun u => .nul hm hx u frame_screened
    · exact .unused fun u => .pause hm hx u (pause_screened (Pause.get w))
    · exact .of_fields hm hx rfl rfl rfl rfl (bhdr_screened (Bhdr.get w))

/-- TRAP, the special registers and ERET. -/
theorem handled_system (h : maj = 0x7E) : Handled s w maj x := by
  subst h
  rcases minor_cases hlt with rfl | rfl | rfl | rfl
  · exact .unused fun u => .unB hm hx u (trap_screened (TrapImm.get w))
  · exact .unused fun u => .db hm hx u weave_screened
  · exact .unused fun u => .ab hm hx u weave_screened
  · exact .unused fun u => .nul hm hx u weave_screened

/-! ### All majors -/

/-- Majors 0x00 to 0x27: the scalar forms of both planes, and the control forms. -/
theorem handled_scalar (hhi : maj < 0x28) : Handled s w maj x := by
  have h : (maj = 0 ∨ maj = 1 ∨ maj = 2 ∨ maj = 3 ∨ maj = 4 ∨ maj = 5 ∨ maj = 6 ∨ maj = 0x13 ∨ maj = 0x14) ∨ maj = 7 ∨ (maj = 0x15 ∨
      maj = 0x16 ∨ maj = 0x17 ∨ maj = 0x18) ∨ (maj = 0x22 ∨ maj = 0x23 ∨ maj = 0x24 ∨ maj = 0x25) ∨ (maj = 0x08 ∨ maj = 0x09 ∨
      maj = 0x0A ∨ maj = 0x0B ∨ maj = 0x0C ∨ maj = 0x0D ∨ maj = 0x0E ∨ maj = 0x0F ∨ maj = 0x10) ∨ (maj = 0x11 ∨ maj = 0x12) ∨
      (maj = 0x20 ∨ maj = 0x21) ∨ (maj = 0x19 ∨ maj = 0x1A ∨ maj = 0x1B ∨ maj = 0x1C ∨ maj = 0x1D ∨ maj = 0x1E ∨ maj = 0x1F ∨
      maj = 0x26 ∨ maj = 0x27) := by omega
  rcases h with h | h | h | h | h | h | h | h
  · exact handled_tri_both hm hx hlt h
  · exact handled_bin_both hm hx hlt h
  · exact handled_predicates hm hx hlt h
  · exact handled_transfers hm hx hlt h
  · exact handled_imm8 hm h
  · exact handled_wide hm h
  · exact handled_jump hm h
  · rcases h with rfl | rfl | rfl | rfl | rfl | rfl | rfl | rfl | rfl <;> trivial

/-- Majors 0x28 to 0x4F: the forms of the weave plane. -/
theorem handled_weave (hlo : 0x28 ≤ maj) (hhi : maj < 0x50) : Handled s w maj x := by
  have h : (maj = 0x28 ∨ maj = 0x2A ∨ maj = 0x40 ∨ maj = 0x41 ∨ maj = 0x42 ∨ maj = 0x43 ∨ maj = 0x45) ∨ maj = 0x2C ∨ (maj = 0x2E ∨
      maj = 0x2F) ∨ maj = 0x30 ∨ maj = 0x46 ∨ (maj = 0x29 ∨ maj = 0x2B ∨ maj = 0x2D ∨ maj = 0x31) ∨ (maj = 0x38 ∨ maj = 0x39 ∨
      maj = 0x3A) ∨ (maj = 0x3B ∨ maj = 0x3C ∨ maj = 0x3D) ∨ (maj = 0x3E ∨ maj = 0x3F) ∨ (maj = 0x44 ∨ maj = 0x47) ∨ (maj = 0x32 ∨
      maj = 0x33 ∨ maj = 0x34 ∨ maj = 0x35) ∨ (maj = 0x36 ∨ maj = 0x37 ∨ maj = 0x48 ∨ maj = 0x49 ∨ maj = 0x4A ∨ maj = 0x4B ∨ maj = 0x4C ∨
      maj = 0x4D ∨ maj = 0x4E ∨ maj = 0x4F) := by omega
  rcases h with h | h | h | h | h | h | h | h | h | h | h | h
  · exact handled_tri_weave hm hx hlt h
  · exact handled_loadFull hm hx hlt h
  · exact handled_atomic hm hx hlt h
  · exact handled_fence hm hx hlt h
  · exact handled_bin_weave hm hx hlt h
  · exact handled_memory hm hx hlt h
  · exact handled_roles hm hx hlt h
  · exact handled_contexts hm hx hlt h
  · exact handled_remote hm hx hlt h
  · exact handled_yElements hm hx hlt h
  · exact handled_local hm h
  · rcases h with rfl | rfl | rfl | rfl | rfl | rfl | rfl | rfl | rfl | rfl <;> trivial

/-- Majors 0x50 to 0x73: the forms of the frame plane. -/
theorem handled_frame (hlo : 0x50 ≤ maj) (hhi : maj < 0x74) : Handled s w maj x := by
  have h : (maj = 0x50 ∨ maj = 0x52 ∨ maj = 0x54 ∨ maj = 0x56 ∨ maj = 0x58 ∨ maj = 0x5A ∨ maj = 0x5E ∨ maj = 0x60 ∨ maj = 0x61 ∨
      maj = 0x63 ∨ maj = 0x6D) ∨ (maj = 0x5F ∨ maj = 0x65) ∨ maj = 0x68 ∨ (maj = 0x51 ∨ maj = 0x53 ∨ maj = 0x55 ∨ maj = 0x57 ∨
      maj = 0x59 ∨ maj = 0x5B) ∨ (maj = 0x5C ∨ maj = 0x5D) ∨ (maj = 0x62 ∨ maj = 0x64 ∨ maj = 0x66 ∨ maj = 0x67) ∨ (maj = 0x69 ∨
      maj = 0x6A ∨ maj = 0x6B ∨ maj = 0x6C) ∨ (maj = 0x70 ∨ maj = 0x71) ∨ (maj = 0x6E ∨ maj = 0x6F ∨ maj = 0x72 ∨ maj = 0x73) := by omega
  rcases h with h | h | h | h | h | h | h | h | h
  · exact handled_tri_frame hm hx hlt h
  · exact handled_bin_frame hm hx hlt h
  · exact handled_products hm hx hlt h
  · exact handled_vMinMax hm hx hlt h
  · exact handled_vConversions hm hx hlt h
  · exact handled_lanes hm hx hlt h
  · exact handled_accumulators hm hx hlt h
  · exact handled_winnow hm hx hlt h
  · rcases h with rfl | rfl | rfl | rfl <;> trivial

/-- Majors 0x74 to 0x7E: the forms of the engines, of time and of the system. -/
theorem handled_engines (hlo : 0x74 ≤ maj) (hhi : maj < 0x7F) : Handled s w maj x := by
  have h : (maj = 0x74 ∨ maj = 0x75 ∨ maj = 0x76 ∨ maj = 0x77) ∨ (maj = 0x78 ∨ maj = 0x79 ∨ maj = 0x7A) ∨ (maj = 0x7C ∨ maj = 0x7D) ∨
      maj = 0x7E ∨ maj = 0x7B := by omega
  rcases h with h | h | h | h | h
  · exact handled_copies hm hx hlt h
  · exact handled_channels hm hx hlt h
  · exact handled_timing hm hx hlt h
  · exact handled_system hm hx hlt h
  · subst h; trivial

theorem handled (hne : maj ≠ 0x7F) : Handled s w maj x := by
  have hm7 : maj < 0x80 := hm ▸ Nat.mod_lt _ (by decide)
  rcases (by omega : maj < 0x28 ∨ (0x28 ≤ maj ∧ maj < 0x50) ∨ (0x50 ≤ maj ∧ maj < 0x74) ∨ (0x74 ≤ maj ∧ maj < 0x7F))
    with h | ⟨h, h'⟩ | ⟨h, h'⟩ | ⟨h, h'⟩
  · exact handled_scalar hm hx hlt h
  · exact handled_weave hm hx hlt h h'
  · exact handled_frame hm hx hlt h h'
  · exact handled_engines hm hx hlt h h'

end majors

theorem exec_owed {i : Instr} (h : decode w = .ok i) (hne : fld w 24 7 ≠ 0x7F) : Owed s w (exec i s) := by
  have hd : Decoded (fun i => Owed s w (exec i s)) (decode w) := handled rfl rfl (Nat.mod_lt _ (by decide)) hne
  rw [h] at hd
  exact hd

end Sys2Proof.Machine
end

section
/-! Obligation O53: the clauses of the statement from what a syllable's answer owes its encoding. -/

namespace Sys2Proof.Machine

variable {s : State} {sl : SlotName} {w maj x g d a b width : Nat}

/-- The EXT before a form without an immediate, or an immediate `raw` out of its form's limits (R62, R69). -/
def State.badImm (s : State) (maj x raw : Nat) : Prop :=
  (s.ctl.ext.isSome = true ∧ takesExt maj x = false) ∨ immOk s.ctl.ext maj x raw = false

theorem ctxAdmits_eq_false_iff :
    s.ctxAdmits maj x g d a b = false ↔ legalW maj x d a b = false ∨ g = 8 ∨ s.badImm maj x b := by
  simp only [State.ctxAdmits, State.badImm, Bool.and_eq_false_iff, bne_eq_false_iff_eq, Bool.not_eq_false', Bool.and_eq_true,
    Bool.not_eq_true', or_assoc]

theorem ctxAdmits_of_not (hl : legalW maj x d a b = true) (hg : g ≠ 8) (hi : ¬s.badImm maj x b) : s.ctxAdmits maj x g d a b = true := by
  rw [← Bool.not_eq_false, ctxAdmits_eq_false_iff, hl]
  rintro (h | h | h)
  · exact Bool.noConfusion h
  · exact hg h
  · exact hi h

theorem slotAdmits_eq_false_iff :
    s.slotAdmits sl maj x d a b = false ↔ legalF maj x d a b = false ∨ slotTakes sl maj x = false ∨ s.badImm maj x b := by
  simp only [State.slotAdmits, State.badImm, Bool.and_eq_false_iff, Bool.not_eq_false', Bool.and_eq_true, Bool.not_eq_true', or_assoc]

theorem slotAdmits_of_not (hl : legalF maj x d a b = true) (ht : slotTakes sl maj x = true) (hi : ¬s.badImm maj x b) :
    s.slotAdmits sl maj x d a b = true := by
  rw [← Bool.not_eq_false, slotAdmits_eq_false_iff, hl, ht]
  rintro (h | h | h)
  · exact Bool.noConfusion h
  · exact Bool.noConfusion h
  · exact hi h

theorem clash_iff : clash maj x d a b width = true ↔
    (maj = 0x66 ∧ x = 3 ∧ d % 2 = 1) ∨ (maj = 0x67 ∧ x = 0 ∧ width / 32 ≤ b) ∨ (maj = 0x6B ∧ x < 2 ∧ d = a) ∨
      (maj = 0x71 ∧ x = 2 ∧ d ≠ 0 ∧ b ≠ 0) ∨ (maj = 0x7C ∧ x = 3 ∧ a ≠ 0 ∧ b ≠ 4) ∨ (maj = 0x7D ∧ x = 2 ∧ d = 0 ∧ a = 0 ∧ b = 0) := by
  unfold clash
  split
  case h_8 vstm vmova osmUpd osmMrg winSet fcnt pause =>
    refine ⟨fun h => Bool.noConfusion h, ?_⟩
    rintro (⟨hm, hx, -⟩ | ⟨hm, hx, -⟩ | ⟨hm, hx, -⟩ | ⟨hm, hx, -⟩ | ⟨hm, hx, -⟩ | ⟨hm, hx, -⟩)
    · exact (vstm hm hx).elim
    · exact (vmova hm hx).elim
    · exact ((by omega : x = 0 ∨ x = 1).elim (osmUpd hm) (osmMrg hm)).elim
    · exact (winSet hm hx).elim
    · exact (fcnt hm hx).elim
    · exact (pause hm hx).elim
  all_goals simp [and_assoc]

/-- Where a word's third operand stands elsewhere than in bits [7:2], it is an immediate, and no table limits it as a field. -/
theorem legal_rawOf (w x d a : Nat) :
    legalW (fld w 24 7) x d a (rawOf w) = legalW (fld w 24 7) x d a (fld w 2 6) ∧
    legalF (fld w 24 7) x d a (rawOf w) = legalF (fld w 24 7) x d a (fld w 2 6) ∧
    ∀ width, clash (fld w 24 7) x d a (rawOf w) width = clash (fld w 24 7) x d a (fld w 2 6) width := by
  cases h : bitsB (fld w 24 7) with
  | true => rw [rawOf_bitsB h]; exact ⟨rfl, rfl, fun _ => rfl⟩
  | false =>
    simp only [bitsB, Bool.or_eq_false_iff, decide_eq_false_iff_not, Nat.not_lt] at h
    generalize rawOf w = b, fld w 2 6 = b', fld w 24 7 = maj at h ⊢
    obtain ⟨hlo, hhi⟩ := h
    rcases (by omega : maj = 0x08 ∨ maj = 0x09 ∨ maj = 0x0A ∨ maj = 0x0B ∨ maj = 0x0C ∨ maj = 0x0D ∨
      maj = 0x0E ∨ maj = 0x0F ∨ maj = 0x10 ∨ maj = 0x11 ∨ maj = 0x12) with
      rfl | rfl | rfl | rfl | rfl | rfl | rfl | rfl | rfl | rfl | rfl <;> exact ⟨rfl, rfl, fun _ => rfl⟩

theorem wordInstr_of_error {e : DecodeError} (h : decode w = .error e) : wordInstr w = none := by rw [wordInstr, h]

/-- A word that no form decodes is answered by a context as an illegal syllable is (R69). -/
theorem runSyl_of_error {e : DecodeError} (h : decode w = .error e) (s : State) (c addr : Nat) :
    s.runSyl c addr w = finishW { s with ctl := { s.ctl with cur := .ctx c, syl := addr } } c illegal := by
  simp only [State.runSyl, wordInstr_of_error h]

/-- A word that no form decodes is answered by a slot as an illegal syllable is (R69). -/
theorem runSlot_of_error {e : DecodeError} (h : decode w = .error e) (s : State) (bn addr : Nat) (sl : SlotName) :
    s.runSlot bn ⟨sl, addr, s.ctl.ext, w⟩ = finishF' { s with ctl := { s.ctl with cur := .slot bn sl, syl := addr } } bn illegal := by
  simp only [State.runSlot, wordInstr_of_error h]

/-- Settles O53: every word that decodes runs in one of the wrappers of the planes, with its own fields. -/
theorem illegalAndNullified : Obligations.IllegalAndNullified := by
  unfold Obligations.IllegalAndNullified
  refine ⟨fun s c bn w sl i _ hdec => ?_, fun s c bn w addr sl e he => ⟨runSyl_of_error he s c addr, runSlot_of_error he s bn addr sl⟩⟩
  intro maj x g d a b raw badImm oddField hne
  obtain ⟨⟨ctxIllegal, ctxNullified⟩, slotIllegal, slotNullified⟩ := exec_owed (s := s) hdec hne
  obtain ⟨hW, hF, hC⟩ := legal_rawOf w x d a
  refine ⟨fun hc hl => ⟨fun hbad => ?_, fun hlegal hg himm hsel hguard => ?_⟩,
    fun hs => ⟨fun hbad => ?_, fun hlegal htakes himm hodd hsel hguard => ?_⟩⟩
  · exact ctxIllegal c hc hl (ctxAdmits_eq_false_iff.2 (by rwa [hW]))
  · exact ctxNullified c hc hl (ctxAdmits_of_not (hW.trans hlegal) hg himm) hsel hguard
  · refine slotIllegal bn sl hs ?_
    rw [slotAdmits_eq_false_iff, hC, clash_iff, hF, or_assoc, or_assoc]
    exact hbad
  · refine slotNullified bn sl hs (slotAdmits_of_not (hF.trans hlegal) htakes himm) ?_ hsel hguard
    rw [hC, ← Bool.not_eq_true, clash_iff]
    exact hodd

end Sys2Proof.Machine
end

end

section
/-! O57. What a landing result changes of its bench, bit by bit for a v register. -/

namespace Sys2Proof.Machine

/-- A number with a field of `n` bits from bit `lo` replaced: the field's bits are the new value's, the others stay. -/
theorem testBit_replaceField (old lo n v i : Nat) :
    (old - fld old lo n * 2 ^ lo + v % 2 ^ n * 2 ^ lo).testBit i =
      if lo ≤ i ∧ i < lo + n then v.testBit (i - lo) else old.testBit i := by
  have hold : old = 2 ^ lo * (2 ^ n * (old / 2 ^ lo / 2 ^ n) + old / 2 ^ lo % 2 ^ n) + old % 2 ^ lo := by
    rw [Nat.div_add_mod, Nat.div_add_mod]
  have hnew : old - fld old lo n * 2 ^ lo + v % 2 ^ n * 2 ^ lo =
      2 ^ lo * (2 ^ n * (old / 2 ^ lo / 2 ^ n) + v % 2 ^ n) + old % 2 ^ lo := by
    rw [fld]
    conv => lhs; lhs; lhs; rw [hold]
    rw [Nat.mul_add, Nat.mul_add, Nat.mul_comm (2 ^ lo) (old / 2 ^ lo % 2 ^ n), Nat.mul_comm (2 ^ lo) (v % 2 ^ n)]
    omega
  have hlow := Nat.mod_lt old (Nat.two_pow_pos lo)
  have hmid (u : Nat) := Nat.mod_lt u (Nat.two_pow_pos n)
  rw [hnew, Nat.testBit_two_pow_mul_add _ hlow]
  conv => rhs; rw [hold, Nat.testBit_two_pow_mul_add _ hlow]
  rw [Nat.testBit_two_pow_mul_add _ (hmid _), Nat.testBit_two_pow_mul_add _ (hmid _), Nat.testBit_mod_two_pow]
  by_cases hi : i < lo
  · simp [hi, Nat.not_le.2 hi]
  · by_cases hin : i - lo < n
    · have : lo ≤ i ∧ i < lo + n := by omega
      simp [hi, hin, this]
    · have : ¬(lo ≤ i ∧ i < lo + n) := by omega
      simp [hi, hin, this]

/-- A v result sets the bits from `lo` to `lo + n - 1` of its register and leaves the others. -/
theorem Bench.apply_v_bit (k : Bench) (i lo n bit : Nat) (v : W1024) (h : lo + n ≤ 1024) :
    (tgetD (k.apply (.v i lo n v)).v i 0).getLsbD bit =
      if lo ≤ bit ∧ bit < lo + n then v.getLsbD (bit - lo) else (tgetD k.v i 0).getLsbD bit := by
  have hfld : fld v.toNat 0 n = v.toNat % 2 ^ n := by simp [fld]
  simp only [Bench.apply, tgetD_tset_self, BitVec.getLsbD_ofNat, hfld, testBit_replaceField, BitVec.testBit_toNat]
  by_cases hb : bit < 1024
  · simp only [hb, decide_true, Bool.true_and]
  · have : ¬(lo ≤ bit ∧ bit < lo + n) := by omega
    simp [hb, this, BitVec.getLsbD_of_ge _ _ (Nat.not_lt.1 hb)]

theorem Bench.apply_v_other (k : Bench) {i j : Nat} (lo n : Nat) (v : W1024) (h : j ≠ i) :
    tgetD (k.apply (.v i lo n v)).v j 0 = tgetD k.v j 0 := tgetD_tset_ne _ _ _ h

/-- Settles O57: the bits of a v register by the field that the result replaces, the other files by reads after writes of their tables. -/
theorem resultsLand : Obligations.ResultsLand := by
  unfold Obligations.ResultsLand
  intro k j
  refine ⟨fun _ _ => rfl, fun _ _ => rfl, fun i lo n v hn => ?_, fun _ => ⟨rfl, rfl, rfl⟩, fun i v => ?_, fun h mm a => ?_, fun h => ?_,
    fun _ => ⟨rfl, rfl⟩, rfl, rfl⟩
  · exact ⟨fun bit => k.apply_v_bit i lo n bit v hn, k.apply_v_other lo n v, rfl, rfl, rfl, rfl⟩
  · exact ⟨tgetD_tset_self _ _ _ _, tgetD_tset_ne _ _ _, rfl, rfl⟩
  · exact ⟨tget_tset_self _ _ _, tget_tset_ne _ _⟩
  · exact ⟨tget_terase_self _ _, tget_terase_ne _⟩

end Sys2Proof.Machine
end

section
/-! O41. The events that end a context's wait. -/

namespace Sys2Proof.Machine

variable {s : State} {c : Nat} {x : Ctx} {w : Wait}

/-- A context that waits as an event asks for, and that no stop token has halted, goes on. -/
theorem wake_eq (hx : s.ctx? c = some x) (hw : x.wait = some w) (hh : x.halted = false) {p : Wait → Bool} (hp : p w = true)
    (a : Nat → Act) : s.wake c p a = .next ((s.setCtx c { x with wait := none }).push [a c]) := by
  simp [State.wake, hx, hw, hh, hp]

theorem foldl_modCore_ctx? {α : Type} (l : List α) (core : α → Nat) (f : Core → Core) (s : State) (c : Nat) :
    (l.foldl (fun t j => t.modCore (core j) f) s).ctx? c = s.ctx? c := by
  induction l generalizing s with
  | nil => rfl
  | cons j l ih => exact ih _

/-- An acquire changes no context. -/
@[simp] theorem State.acquire_ctx? (s : State) (k c : Nat) : (s.acquire k).ctx? c = s.ctx? c := by
  unfold State.acquire
  split
  · exact foldl_modCore_ctx? _ _ _ s c
  · rfl

theorem execYieldResume_over (hx : s.ctx? c = some x) {l : List Nat} (hw : x.wait = some (.yield l)) (hh : x.halted = false)
    (ho : l = [] ∨ 11 ≤ s.waited c) : execYieldResume c s = .next (s.setCtx c { x with wait := none, since := none }) := by
  have hover : s.yieldOver c (.yield l) = true := by simpa [State.yieldOver] using ho
  simp [execYieldResume, hx, hw, hh, hover]

theorem execReplayExecution_pending (hx : s.ctx? c = some x) {r : Replay} (hr : x.replay = some r) :
    execReplayExecution c s = .next (s.push [.replay c]) := by
  simp [execReplayExecution, hx, hr]

/-- Settles O41: each event is a wake for its own kind of wait, but for a replay's and the end of a yield. -/
theorem contextWakes : Obligations.ContextWakes := by
  unfold Obligations.ContextWakes
  refine fun s c x w hx => ⟨fun r hr => execReplayExecution_pending hx hr, fun hw hh => ?_⟩
  have was {v : Wait} (e : w = v) : x.wait = some v := e ▸ hw
  have goes {v : Wait} {p : Wait → Bool} (a : Nat → Act) (e : w = v) (hp : p v = true) := wake_eq hx (was e) hh hp a
  exact ⟨fun _ e => goes .finish e rfl, fun n e h0 hn => goes .finish e (by simp [State.boundPassed, h0, hn]),
    fun _ e => goes .issue e rfl, fun e => goes .finish e rfl, fun e => goes .finish e rfl, fun e => goes .finish e rfl,
    fun e => goes .issue e rfl, fun e => goes .issue rfl (by simpa using e),
    fun e => wake_eq ((s.acquire_ctx? _ c).trans hx) (was e) hh rfl .issue,
    fun e => goes .issue e rfl, fun e => goes .issue e rfl, fun e => goes .issue e rfl, fun _ e => execYieldResume_over hx (was e) hh⟩

end Sys2Proof.Machine
end

section
/-! O7. Loads and stores of the weave plane whose access is granted. -/

namespace Sys2Proof.Machine

variable {s t : State} {c maj x v size ea : Nat} {f : Imm6} {use : Use} {r₀ : List Part × State}

/-- A load that answers passed the checks of R106. -/
theorem checkAccess_of_load (h : s.load c ea size use = .ok (v, t)) : ∃ r, s.checkAccess c ea size use = .ok r := by
  cases hc : s.checkAccess c ea size use with
  | error e => simp only [State.load, hc] at h; cases h
  | ok r => exact ⟨r, rfl⟩

theorem preAccess_ok {i a scale n : Nat} (h : s.checkAccess c (s.eaOf c a i scale) n use = .ok r₀) :
    preAccess a i scale n use s c = .ok () := by
  rw [preAccess, h]; rfl

theorem preLanes_ok {i a : Nat} (h : s.checkAccess c (s.eaOf c a i 32) 32 use = .ok r₀) :
    preLanes a i use s c = .ok () := by
  rw [preLanes, h]; rfl

/-- A load into an x field, or a push, retires with the value extended. -/
theorem loadX_ok (h : s.CtxReady c maj x f.g f.d f.a f.i) (hl : s.load c (s.eaOf c f.a f.i size) size .read = .ok (v, t))
    {ext : Nat → W64} {r : W64} (hr : ext v = r) : loadX maj x size ext f s = retires (t.dst c f.d r) := by
  obtain ⟨_, hc⟩ := checkAccess_of_load hl
  refine weave_ctx_pre_ok h (preAccess_ok hc) ?_
  rw [hl, ← hr]; rfl

theorem storeX_ok (h : s.CtxReady c 0x2A x f.g f.d f.a f.i)
    (hc : s.checkAccess c (s.eaOf c f.a f.i size) size .write = .ok r₀)
    (hs : (s.src c f.d).2.store c (s.eaOf c f.a f.i size) (leBytes size (s.src c f.d).1.toNat) = .ok t) :
    storeX 0x2A x size f s = retires t := weave_ctx_pre_ok h (preAccess_ok hc) hs

theorem execLdy_ok (h : s.CtxReady c 0x2B 0 f.g f.d f.a f.i) (hl : s.load c (s.eaOf c f.a f.i 32) 32 .read = .ok (v, t)) :
    execLdy f s = retires (t.modCtx c (fun k => k.setY f.d (BitVec.ofNat 256 v))) := by
  obtain ⟨_, hc⟩ := checkAccess_of_load hl
  refine weave_ctx_pre_ok h (preLanes_ok hc) ?_
  dsimp only
  rw [hl]; rfl

theorem execLdyb_ok (h : s.CtxReady c 0x2B 2 f.g f.d f.a f.i) (hl : s.load c (s.eaOf c f.a f.i 4) 4 .read = .ok (v, t)) :
    execLdyb f s = retires (t.modCtx c (fun k => k.setY f.d (BitVec.ofNat 256 (ofLanes 32 (List.replicate 8 v))))) := by
  obtain ⟨_, hc⟩ := checkAccess_of_load hl
  refine weave_ctx_pre_ok h (preAccess_ok hc) ?_
  rw [hl]; rfl

theorem execSty_ok (h : s.CtxReady c 0x2B 1 f.g f.d f.a f.i)
    (hc : s.checkAccess c (s.eaOf c f.a f.i 32) 32 .write = .ok r₀)
    (hs : s.store c (s.eaOf c f.a f.i 32) (leBytes 32 ((s.ctx c).y f.d).toNat) = .ok t) : execSty f s = retires t := by
  refine weave_ctx_pre_ok h (preLanes_ok hc) ?_
  dsimp only
  rw [hs]; rfl

/-- Settles O7: a granted access passes the test before the pipes, and the body's load or store then stands. -/
theorem loadsAndStores : Obligations.LoadsAndStores := by
  unfold Obligations.LoadsAndStores
  refine ⟨fun s t c v f => ?_, fun s t c f r₀ => ?_⟩
  · exact ⟨fun h hl => loadX_ok h hl rfl, fun h hl => loadX_ok h hl rfl, fun h hl => loadX_ok h hl rfl,
      fun h hl => loadX_ok h hl (BitVec.signExtend_eq _), fun h hl => loadX_ok h hl rfl, fun h hl => loadX_ok h hl rfl,
      fun h hl => loadX_ok h hl rfl, execLdy_ok, execLdyb_ok⟩
  · exact ⟨storeX_ok, storeX_ok, storeX_ok, storeX_ok, execSty_ok⟩

end Sys2Proof.Machine
end

section
/-! O1. The scalar forms of three registers: a row each, in the words of R83 and R84, and what a row's form does on either plane. -/

namespace Sys2Proof.Machine

variable {s : State} {c b maj x lat : Nat} {sl : SlotName}

/-! ### Values -/

theorem ofBool_decide (p : Prop) [Decidable p] : ofBool (decide p) = if p then 1 else 0 := by
  simp only [ofBool, decide_eq_true_eq]

theorem ofBool_bne (A B : W64) : ofBool (A != B) = if A = B then 0 else 1 := by
  by_cases h : A = B <;> simp [ofBool, h]

/-- The greater of two by a comparison that reads `<` is the greater by `≤`: equal words are one. -/
theorem ite_lt_eq_ite_le {A B : W64} {lt le : Prop} [Decidable lt] [Decidable le] (h : le ↔ lt ∨ A = B) :
    (if lt then B else A) = if le then B else A := by
  by_cases hl : lt
  · rw [if_pos hl, if_pos (h.2 (.inl hl))]
  · by_cases e : A = B
    · simp only [e, ite_self]
    · rw [if_neg hl, if_neg (fun hle => (h.1 hle).elim hl e)]

theorem max_slt (A B : W64) : (if A.slt B then B else A) = if A.toInt ≤ B.toInt then B else A := by
  simp only [BitVec.slt, decide_eq_true_eq]
  exact ite_lt_eq_ite_le (Int.le_iff_lt_or_eq.trans (or_congr_right BitVec.toInt_inj))

theorem max_ult (A B : W64) : (if A.ult B then B else A) = if A.toNat ≤ B.toNat then B else A := by
  simp only [BitVec.ult, decide_eq_true_eq]
  exact ite_lt_eq_ite_le (Nat.le_iff_lt_or_eq.trans (or_congr_right BitVec.toNat_inj))

theorem min_slt (A B : W64) : (if B.slt A then B else A) = if A.toInt ≤ B.toInt then A else B := by
  simp only [BitVec.slt, decide_eq_true_eq, ← Int.not_le, ite_not]

theorem min_ult (A B : W64) : (if B.ult A then B else A) = if A.toNat ≤ B.toNat then A else B := by
  simp only [BitVec.ult, decide_eq_true_eq, ← Nat.not_le, ite_not]

/-! ### Rows -/

/-- Instruction `i` is the three-register form of a major and minor: value `v` of A and B, after `lat` ticks on the frame plane. -/
def TriRow (i : Tri → Instr) (maj x lat : Nat) (v : W64 → W64 → W64) : Prop := ∀ t, exec (i t) = triAlu maj x lat v t

theorem TriRow.of_value {i : Tri → Instr} {u v : W64 → W64 → W64} (e : ∀ A B, u A B = v A B) (h : TriRow i maj x lat u) :
    TriRow i maj x lat v := (funext fun A => funext (e A) : u = v) ▸ h

theorem triAlu_ctx {v : W64 → W64 → W64} {t : Tri} (h : s.CtxReady c maj x t.g t.d t.a t.b) : triAlu maj x lat v t s =
    retires (((s.src c t.a).2.src c t.b).2.dst c t.d (v (s.src c t.a).1 ((s.src c t.a).2.src c t.b).1)) := both_ctx_ok h rfl

theorem triAlu_slot {v : W64 → W64 → W64} {t : Tri} (h : s.SlotReady b sl maj x t.g t.d t.a t.b) : triAlu maj x lat v t s =
    retires (s.sends b lat (.a t.d (v ((s.bench b).ra t.a) ((s.bench b).ra t.b)))) := both_slot_ok h rfl

theorem TriRow.ctx {i : Tri → Instr} {v : W64 → W64 → W64} (r : TriRow i maj x lat v) {t : Tri}
    (h : s.CtxReady c maj x t.g t.d t.a t.b) : exec (i t) s =
      retires (((s.src c t.a).2.src c t.b).2.dst c t.d (v (s.src c t.a).1 ((s.src c t.a).2.src c t.b).1)) :=
  (congrFun (r t) s).trans (triAlu_ctx h)

theorem TriRow.slot {i : Tri → Instr} {v : W64 → W64 → W64} (r : TriRow i maj x lat v) {t : Tri}
    (h : s.SlotReady b sl maj x t.g t.d t.a t.b) :
    exec (i t) s = retires (s.sends b lat (.a t.d (v ((s.bench b).ra t.a) ((s.bench b).ra t.b)))) :=
  (congrFun (r t) s).trans (triAlu_slot h)

theorem add_row : TriRow .add 0x00 0 1 (fun A B => A + B) := fun _ => rfl
theorem sub_row : TriRow .sub 0x00 1 1 (fun A B => A - B) := fun _ => rfl
theorem addw_row : TriRow .addw 0x00 2 1 (fun A B => ((A + B).setWidth 32).signExtend 64) := fun _ => rfl
theorem subw_row : TriRow .subw 0x00 3 1 (fun A B => ((A - B).setWidth 32).signExtend 64) := fun _ => rfl
theorem and_row : TriRow .and_ 0x01 0 1 (fun A B => A &&& B) := fun _ => rfl
theorem or_row : TriRow .or_ 0x01 1 1 (fun A B => A ||| B) := fun _ => rfl
theorem xor_row : TriRow .xor_ 0x01 2 1 (fun A B => A ^^^ B) := fun _ => rfl
theorem andn_row : TriRow .andn 0x01 3 1 (fun A B => A &&& ~~~B) := fun _ => rfl
theorem shl_row : TriRow .shl 0x02 0 1 (fun A B => A <<< (B.toNat % 64)) := fun _ => rfl
theorem shr_row : TriRow .shr 0x02 1 1 (fun A B => A >>> (B.toNat % 64)) := fun _ => rfl
theorem sar_row : TriRow .sar 0x02 2 1 (fun A B => A.sshiftRight (B.toNat % 64)) := fun _ => rfl
theorem rot_row : TriRow .rot 0x02 3 1 (fun A B => A.rotateRight (B.toNat % 64)) := fun _ => rfl
theorem mul_row : TriRow .mul 0x03 0 3 (fun A B => A * B) := fun _ => rfl
theorem mulh_row : TriRow .mulh 0x03 1 3 (fun A B => BitVec.ofInt 64 (A.toInt * B.toInt / 2 ^ 64)) := fun _ => rfl
theorem mulhu_row : TriRow .mulhu 0x03 2 3 (fun A B => BitVec.ofNat 64 (A.toNat * B.toNat / 2 ^ 64)) := fun _ => rfl
theorem mulw_row : TriRow .mulw 0x03 3 3 (fun A B => ((A * B).setWidth 32).signExtend 64) := fun _ => rfl
theorem div_row : TriRow .div 0x04 0 18 (fun A B => if B = 0 then BitVec.allOnes 64 else if A.toInt = -2 ^ 63 ∧ B.toInt = -1 then A
    else BitVec.ofInt 64 (A.toInt.tdiv B.toInt)) := fun _ => rfl
theorem divu_row : TriRow .divu 0x04 1 18 (fun A B => if B = 0 then BitVec.allOnes 64 else BitVec.ofNat 64 (A.toNat / B.toNat)) :=
  fun _ => rfl
theorem rem_row : TriRow .rem 0x04 2 18 (fun A B => if B = 0 then A else if A.toInt = -2 ^ 63 ∧ B.toInt = -1 then 0
    else BitVec.ofInt 64 (A.toInt - B.toInt * A.toInt.tdiv B.toInt)) := fun _ => rfl
theorem remu_row : TriRow .remu 0x04 3 18 (fun A B => if B = 0 then A else BitVec.ofNat 64 (A.toNat % B.toNat)) := fun _ => rfl
theorem min_row : TriRow .min_ 0x05 0 1 (fun A B => if A.toInt ≤ B.toInt then A else B) := .of_value min_slt (fun _ => rfl)
theorem max_row : TriRow .max_ 0x05 1 1 (fun A B => if A.toInt ≤ B.toInt then B else A) := .of_value max_slt (fun _ => rfl)
theorem minu_row : TriRow .minu 0x05 2 1 (fun A B => if A.toNat ≤ B.toNat then A else B) := .of_value min_ult (fun _ => rfl)
theorem maxu_row : TriRow .maxu 0x05 3 1 (fun A B => if A.toNat ≤ B.toNat then B else A) := .of_value max_ult (fun _ => rfl)
theorem seq_row : TriRow .seq 0x06 0 1 (fun A B => if A = B then 1 else 0) :=
  .of_value (fun A B => ofBool_decide (A = B)) (fun _ => rfl)
theorem slt_row : TriRow .slt 0x06 1 1 (fun A B => if A.toInt < B.toInt then 1 else 0) :=
  .of_value (fun A B => ofBool_decide (A.toInt < B.toInt)) (fun _ => rfl)
theorem sltu_row : TriRow .sltu 0x06 2 1 (fun A B => if A.toNat < B.toNat then 1 else 0) :=
  .of_value (fun A B => ofBool_decide (A.toNat < B.toNat)) (fun _ => rfl)
theorem sne_row : TriRow .sne 0x06 3 1 (fun A B => if A = B then 0 else 1) := .of_value ofBool_bne (fun _ => rfl)

/-- LEA is a three-register form whose minor is the scale (R90). -/
theorem exec_lea (l : Lea) (s : State) :
    exec (.lea l) s = triAlu 0x17 l.c 1 (fun A B => A + (B <<< l.c)) ⟨l.s, l.g, l.d, l.a, l.b⟩ s := rfl

/-- Settles O1: every row's form retires with its value on the weave plane, and sends it on the frame plane. -/
theorem scalarThreeRegister : Obligations.ScalarThreeRegister := by
  unfold Obligations.ScalarThreeRegister
  refine ⟨fun s c f l => ?_, fun s b sl f l => ?_⟩
  · refine ⟨add_row.ctx, sub_row.ctx, addw_row.ctx, subw_row.ctx, and_row.ctx, or_row.ctx, xor_row.ctx, andn_row.ctx, shl_row.ctx,
      shr_row.ctx, sar_row.ctx, rot_row.ctx, mul_row.ctx, mulh_row.ctx, mulhu_row.ctx, mulw_row.ctx, div_row.ctx, divu_row.ctx,
      rem_row.ctx, remu_row.ctx, min_row.ctx, max_row.ctx, minu_row.ctx, maxu_row.ctx, seq_row.ctx, slt_row.ctx, sltu_row.ctx,
      sne_row.ctx, fun e h => ?_⟩
    subst e
    exact (exec_lea l s).trans (triAlu_ctx h)
  · refine ⟨add_row.slot, sub_row.slot, addw_row.slot, subw_row.slot, and_row.slot, or_row.slot, xor_row.slot, andn_row.slot,
      shl_row.slot, shr_row.slot, sar_row.slot, rot_row.slot, mul_row.slot, mulh_row.slot, mulhu_row.slot, mulw_row.slot, div_row.slot,
      divu_row.slot, rem_row.slot, remu_row.slot, min_row.slot, max_row.slot, minu_row.slot, maxu_row.slot, seq_row.slot, slt_row.slot,
      sltu_row.slot, sne_row.slot, fun e h => ?_⟩
    subst e
    exact (exec_lea l s).trans (triAlu_slot h)

end Sys2Proof.Machine
end

section
/-! O2. The scalar forms of one source and of an immediate, in the words of R83, R85, R86 and R91. -/

namespace Sys2Proof.Machine

variable {s : State} {c b maj x lat : Nat} {sl : SlotName}

/-! ### Immediates -/

theorem State.immU_eq (s : State) (n v : Nat) : s.immU n v = s.ctl.ext.getD 0 * 2 ^ n + v := by
  unfold State.immU
  cases s.ctl.ext with
  | none => simp
  | some e => rfl

/-- A shift amount that its form's limit admits is what the syllable and its EXT hold (R85). -/
theorem shiftImm_ok {i : Nat} (hm : 0x0C ≤ maj ∧ maj ≤ 0x0E) (h : immOk s.ctl.ext maj 0 i = true) :
    shiftImm i s = .ok (BitVec.ofNat 64 (s.immU 8 i)) ∧ (BitVec.ofNat 64 (s.immU 8 i)).toNat = s.immU 8 i := by
  simp only [immOk, hm, and_self, if_true, decide_eq_true_eq] at h
  have hle : s.immU 8 i ≤ 63 := by rw [State.immU_eq]; exact h
  exact ⟨if_pos hle, Nat.mod_eq_of_lt (by omega)⟩

/-- The upper half that LIH's limit admits (R86). -/
theorem immU_lt_of_immOk {i : Nat} (h : immOk s.ctl.ext 0x12 0 i = true) : s.immU 14 i < 2 ^ 32 := by
  rw [State.immU_eq]
  simpa [immOk] using h

/-- The position and length that the limits of EXTR and INS admit (R91). -/
theorem posLen_ok {i : Nat} (h : immOk s.ctl.ext 0x18 x i = true) : posLen i s = .ok (i, s.ctl.ext.getD 0 % 64 + 1) := by
  cases he : s.ctl.ext with
  | none => simp [immOk, he] at h
  | some e =>
    rw [he] at h
    have hlim : (decide (e < 64) && decide (i + e % 64 + 1 ≤ 64)) = true := h
    have hin : e < 64 ∧ i + (fld e 0 6 + 1) ≤ 64 := by
      simp only [Bool.and_eq_true, decide_eq_true_eq] at hlim
      simp only [fld]
      omega
    simp only [posLen, he, hin, and_self, if_true]
    simp [fld]

/-- Bits 32 and up replaced: the low half stays. -/
theorem setFld_high (w : W64) {v : Nat} (h : v < 2 ^ 32) : setFld w 32 32 v = BitVec.ofNat 64 (v * 2 ^ 32 + w.toNat % 2 ^ 32) := by
  have hw := w.isLt
  have hhigh : w.toNat / 2 ^ 32 % 2 ^ 32 = w.toNat / 2 ^ 32 := Nat.mod_eq_of_lt (by omega)
  rw [setFld, fld, hhigh, Nat.mod_eq_of_lt h]
  congr 1
  omega

/-! ### Forms of one source -/

/-- Instruction `i` is the form of major 0x07 and minor `x` that counts `v` of its source's number. -/
def BinRow (i : Bin → Instr) (x : Nat) (v : Nat → Nat) : Prop := ∀ t, exec (i t) = binAlu 0x07 x 1 (fun A => BitVec.ofNat 64 (v A.toNat)) t

theorem BinRow.ctx {i : Bin → Instr} {v : Nat → Nat} (r : BinRow i x v) {t : Bin} (h : s.CtxReady c 0x07 x t.g t.d t.a 0) :
    exec (i t) s = retires ((s.src c t.a).2.dst c t.d (BitVec.ofNat 64 (v (s.src c t.a).1.toNat))) :=
  (congrFun (r t) s).trans (both_ctx_ok h rfl)

theorem BinRow.slot {i : Bin → Instr} {v : Nat → Nat} (r : BinRow i x v) {t : Bin} (h : s.SlotReady b sl 0x07 x t.g t.d t.a 0) :
    exec (i t) s = retires (s.sends b 1 (.a t.d (BitVec.ofNat 64 (v ((s.bench b).ra t.a).toNat)))) :=
  (congrFun (r t) s).trans (both_slot_ok h rfl)

theorem clz_row : BinRow .clz 0 (fun n => 64 - bitLen 64 n) := fun _ => rfl
theorem ctz_row : BinRow .ctz 1 (ctz 64) := fun _ => rfl
theorem popc_row : BinRow .popc 2 (ones 64) := fun _ => rfl
theorem brev_row : BinRow .brev 3 (brev 64) := fun _ => rfl

/-! ### Forms with an eight-bit immediate -/

theorem immAlu_ctx {g d a raw : Nat} {imm : State → Run W64} {I : W64} {v : W64 → W64 → W64} (h : s.CtxReady c maj x g d a raw)
    (hi : imm s = .ok I) : immAlu maj x lat g d a raw imm v s = retires ((s.src c a).2.dst c d (v (s.src c a).1 I)) :=
  both_ctx_pre_ok h (by rw [hi]; rfl) (by rw [hi]; rfl)

theorem immAlu_slot {g d a raw : Nat} {imm : State → Run W64} {I : W64} {v : W64 → W64 → W64} (h : s.SlotReady b sl maj x g d a raw)
    (hi : imm s = .ok I) : immAlu maj x lat g d a raw imm v s = retires (s.sends b lat (.a d (v ((s.bench b).ra a) I))) :=
  both_slot_ok h (by rw [hi]; rfl)

/-- Instruction `i` is the form of a major that computes `v` of A and of its signed immediate. -/
def ImmRow (i : Imm8 → Instr) (maj : Nat) (v : W64 → W64 → W64) : Prop := ∀ t, exec (i t) = immAlu maj 0 1 t.g t.d t.a t.i (simm8 t.i) v

/-- Instruction `i` is the form of a major that shifts A by its natural immediate, as `v` says. -/
def ShiftRow (i : Imm8 → Instr) (maj : Nat) (v : W64 → Nat → W64) : Prop :=
  (0x0C ≤ maj ∧ maj ≤ 0x0E) ∧ ∀ t, exec (i t) = immAlu maj 0 1 t.g t.d t.a t.i (shiftImm t.i) (fun A I => v A I.toNat)

theorem ImmRow.of_value {i : Imm8 → Instr} {u v : W64 → W64 → W64} (e : ∀ A I, u A I = v A I) (h : ImmRow i maj u) : ImmRow i maj v :=
  (funext fun A => funext (e A) : u = v) ▸ h

theorem ImmRow.ctx {i : Imm8 → Instr} {v : W64 → W64 → W64} (r : ImmRow i maj v) {t : Imm8} {I : W64} (hI : s.immS 8 t.i = I)
    (h : s.CtxReady c maj 0 t.g t.d t.a t.i) :
    exec (i t) s = retires ((s.src c t.a).2.dst c t.d (v (s.src c t.a).1 I)) :=
  (congrFun (r t) s).trans (immAlu_ctx h (congrArg Except.ok hI))

theorem ImmRow.slot {i : Imm8 → Instr} {v : W64 → W64 → W64} (r : ImmRow i maj v) {t : Imm8}
    (h : s.SlotReady b sl maj 0 t.g t.d t.a t.i) :
    exec (i t) s = retires (s.sends b 1 (.a t.d (v ((s.bench b).ra t.a) (s.immS 8 t.i)))) :=
  (congrFun (r t) s).trans (immAlu_slot h rfl)

theorem ShiftRow.ctx {i : Imm8 → Instr} {v : W64 → Nat → W64} (r : ShiftRow i maj v) {t : Imm8} (h : s.CtxReady c maj 0 t.g t.d t.a t.i) :
    exec (i t) s = retires ((s.src c t.a).2.dst c t.d (v (s.src c t.a).1 (s.immU 8 t.i))) := by
  obtain ⟨hi, hn⟩ := shiftImm_ok r.1 h.imm
  rw [r.2 t, immAlu_ctx h hi, hn]

theorem ShiftRow.slot {i : Imm8 → Instr} {v : W64 → Nat → W64} (r : ShiftRow i maj v) {t : Imm8}
    (h : s.SlotReady b sl maj 0 t.g t.d t.a t.i) :
    exec (i t) s = retires (s.sends b 1 (.a t.d (v ((s.bench b).ra t.a) (s.immU 8 t.i)))) := by
  obtain ⟨hi, hn⟩ := shiftImm_ok r.1 h.imm
  rw [r.2 t, immAlu_slot h hi, hn]

theorem addi_row : ImmRow .addi 0x08 (fun A I => A + I) := fun _ => rfl
theorem andi_row : ImmRow .andi 0x09 (fun A I => A &&& I) := fun _ => rfl
theorem ori_row : ImmRow .ori 0x0A (fun A I => A ||| I) := fun _ => rfl
theorem xori_row : ImmRow .xori 0x0B (fun A I => A ^^^ I) := fun _ => rfl
theorem shli_row : ShiftRow .shli 0x0C (fun A n => A <<< n) := ⟨by decide, fun _ => rfl⟩
theorem shri_row : ShiftRow .shri 0x0D (fun A n => A >>> n) := ⟨by decide, fun _ => rfl⟩
theorem sari_row : ShiftRow .sari 0x0E (fun A n => A.sshiftRight n) := ⟨by decide, fun _ => rfl⟩
theorem slti_row : ImmRow .slti 0x0F (fun A I => if A.toInt < I.toInt then 1 else 0) :=
  .of_value (fun A I => ofBool_decide (A.toInt < I.toInt)) (fun _ => rfl)
theorem sltiu_row : ImmRow .sltiu 0x10 (fun A I => if A.toNat < I.toNat then 1 else 0) :=
  .of_value (fun A I => ofBool_decide (A.toNat < I.toNat)) (fun _ => rfl)

/-! ### Forms with a fourteen-bit immediate -/

theorem execLi_ctx {t : Wide} (h : s.CtxReady c 0x11 0 t.g t.d 0 t.i) : execLi t s = retires (s.dst c t.d (s.immS 14 t.i)) :=
  both_ctx_ok h rfl
theorem execLi_slot {t : Wide} (h : s.SlotReady b sl 0x11 0 t.g t.d 0 t.i) :
    execLi t s = retires (s.sends b 1 (.a t.d (s.immS 14 t.i))) := both_slot_ok h rfl

theorem execLih_ctx {t : Wide} (h : s.CtxReady c 0x12 0 t.g t.d 0 t.i) : execLih t s =
    retires (s.modCtx c (fun k => k.setX t.d (BitVec.ofNat 64 (s.immU 14 t.i * 2 ^ 32 + (k.x t.d).toNat % 2 ^ 32)))) := by
  have hlt := immU_lt_of_immOk h.imm
  simp only [← setFld_high _ hlt]
  exact both_ctx_pre_ok h (by simp only [hlt, decide_true]; rfl) rfl

theorem execLih_slot {t : Wide} (h : s.SlotReady b sl 0x12 0 t.g t.d 0 t.i) : execLih t s = retires (s.sends b 1 (.a t.d
    (BitVec.ofNat 64 (s.immU 14 t.i * 2 ^ 32 + ((s.bench b).ra t.d).toNat % 2 ^ 32)))) := by
  have hlt := immU_lt_of_immOk h.imm
  rw [← setFld_high _ hlt]
  exact both_slot_ok h (by simp only [hlt, decide_true]; rfl)

/-! ### Bit fields -/

theorem execExtr_ctx {t : Imm6} (h : s.CtxReady c 0x18 0 t.g t.d t.a t.i) : execExtr t s = retires ((s.src c t.a).2.dst c t.d
    (BitVec.ofNat 64 ((s.src c t.a).1.toNat / 2 ^ t.i % 2 ^ (s.ctl.ext.getD 0 % 64 + 1)))) :=
  both_ctx_pre_ok h (by rw [posLen_ok h.imm]; rfl) (by rw [posLen_ok h.imm]; rfl)

theorem execExtr_slot {t : Imm6} (h : s.SlotReady b sl 0x18 0 t.g t.d t.a t.i) : execExtr t s = retires (s.sends b 1 (.a t.d
    (BitVec.ofNat 64 (((s.bench b).ra t.a).toNat / 2 ^ t.i % 2 ^ (s.ctl.ext.getD 0 % 64 + 1))))) :=
  both_slot_ok h (by rw [posLen_ok h.imm]; rfl)

theorem execIns_ctx {t : Imm6} (h : s.CtxReady c 0x18 1 t.g t.d t.a t.i) : execIns t s = retires ((s.src c t.a).2.modCtx c
    (fun k => k.setX t.d (setFld (k.x t.d) t.i (s.ctl.ext.getD 0 % 64 + 1) (s.src c t.a).1.toNat))) :=
  both_ctx_pre_ok h (by rw [posLen_ok h.imm]; rfl) (by rw [posLen_ok h.imm]; rfl)

theorem execIns_slot {t : Imm6} (h : s.SlotReady b sl 0x18 1 t.g t.d t.a t.i) : execIns t s = retires (s.sends b 1 (.a t.d
    (setFld ((s.bench b).ra t.d) t.i (s.ctl.ext.getD 0 % 64 + 1) ((s.bench b).ra t.a).toNat))) :=
  both_slot_ok h (by rw [posLen_ok h.imm]; rfl)

/-- Settles O2: the rows of one source, of eight-bit immediates and of shifts, then LI, LIH and the bit fields, on either plane. -/
theorem scalarImmediate : Obligations.ScalarImmediate := by
  unfold Obligations.ScalarImmediate
  refine ⟨fun s c u f w e => ?_, fun s b sl u f w e => ?_⟩
  · refine ⟨⟨clz_row.ctx, ctz_row.ctx, popc_row.ctx, brev_row.ctx⟩, ?_, execLi_ctx, execLih_ctx, execExtr_ctx, execIns_ctx⟩
    intro r A I
    have hI : s.immS 8 f.i = I := by
      unfold I State.immS
      cases s.ctl.ext <;> rfl
    clear_value I
    exact ⟨addi_row.ctx hI, andi_row.ctx hI, ori_row.ctx hI, xori_row.ctx hI, shli_row.ctx, shri_row.ctx, sari_row.ctx,
      slti_row.ctx hI, sltiu_row.ctx hI⟩
  · refine ⟨⟨clz_row.slot, ctz_row.slot, popc_row.slot, brev_row.slot⟩, ?_, execLi_slot, execLih_slot, execExtr_slot, execIns_slot⟩
    exact ⟨addi_row.slot, andi_row.slot, ori_row.slot, xori_row.slot, shli_row.slot, shri_row.slot, sari_row.slot, slti_row.slot,
      sltiu_row.slot⟩

end Sys2Proof.Machine
end

section
/-! O3. Comparisons, predicate logic and SEL on either plane. -/

namespace Sys2Proof.Machine

variable {s : State} {c b maj x : Nat} {sl : SlotName}

/-! ### Comparisons -/

/-- Instruction `i` is the comparison `v` of A and B of a minor of major 0x13. -/
def CmpRow (i : Tri → Instr) (x : Nat) (v : W64 → W64 → Bool) : Prop := ∀ t, exec (i t) = triCmp 0x13 x v t

/-- Instruction `i` is the comparison `v` of A and the immediate of a minor of major 0x14. -/
def CmpiRow (i : Imm6 → Instr) (x : Nat) (v : W64 → W64 → Bool) : Prop := ∀ t, exec (i t) = immCmp 0x14 x v t

theorem CmpRow.ctx {i : Tri → Instr} {v : W64 → W64 → Bool} (r : CmpRow i x v) {t : Tri} (h : s.CtxReady c 0x13 x t.g t.d t.a t.b) :
    exec (i t) s = retires (((s.src c t.a).2.src c t.b).2.modCtx c
      (fun k => k.setP t.d (v (s.src c t.a).1 ((s.src c t.a).2.src c t.b).1))) :=
  (congrFun (r t) s).trans (both_ctx_ok h rfl)

theorem CmpRow.slot {i : Tri → Instr} {v : W64 → W64 → Bool} (r : CmpRow i x v) {t : Tri} (h : s.SlotReady b sl 0x13 x t.g t.d t.a t.b) :
    exec (i t) s = retires (s.sends b 1 (.g t.d (v ((s.bench b).ra t.a) ((s.bench b).ra t.b)))) :=
  (congrFun (r t) s).trans (both_slot_ok h rfl)

theorem CmpiRow.ctx {i : Imm6 → Instr} {v : W64 → W64 → Bool} (r : CmpiRow i x v) {t : Imm6}
    (h : s.CtxReady c 0x14 x t.g t.d t.a t.i) :
    exec (i t) s = retires ((s.src c t.a).2.modCtx c (fun k => k.setP t.d (v (s.src c t.a).1 (s.immS 6 t.i)))) :=
  (congrFun (r t) s).trans (both_ctx_ok h rfl)

theorem CmpiRow.slot {i : Imm6 → Instr} {v : W64 → W64 → Bool} (r : CmpiRow i x v) {t : Imm6}
    (h : s.SlotReady b sl 0x14 x t.g t.d t.a t.i) :
    exec (i t) s = retires (s.sends b 1 (.g t.d (v ((s.bench b).ra t.a) (s.immS 6 t.i)))) :=
  (congrFun (r t) s).trans (both_slot_ok h rfl)

theorem CmpRow.of_value {i : Tri → Instr} {u v : W64 → W64 → Bool} (e : ∀ A B, u A B = v A B) (h : CmpRow i x u) : CmpRow i x v :=
  (funext fun A => funext (e A) : u = v) ▸ h
theorem CmpiRow.of_value {i : Imm6 → Instr} {u v : W64 → W64 → Bool} (e : ∀ A B, u A B = v A B) (h : CmpiRow i x u) : CmpiRow i x v :=
  (funext fun A => funext (e A) : u = v) ▸ h

theorem bne_eq_decide (A B : W64) : (A != B) = decide (A ≠ B) := decide_not.symm

theorem cmpEq_row : CmpRow .cmpEq 0 (fun A B => decide (A = B)) := fun _ => rfl
theorem cmpLt_row : CmpRow .cmpLt 1 (fun A B => decide (A.toInt < B.toInt)) := fun _ => rfl
theorem cmpLtu_row : CmpRow .cmpLtu 2 (fun A B => decide (A.toNat < B.toNat)) := fun _ => rfl
theorem cmpNe_row : CmpRow .cmpNe 3 (fun A B => decide (A ≠ B)) := .of_value bne_eq_decide (fun _ => rfl)
theorem cmpiEq_row : CmpiRow .cmpiEq 0 (fun A I => decide (A = I)) := fun _ => rfl
theorem cmpiLt_row : CmpiRow .cmpiLt 1 (fun A I => decide (A.toInt < I.toInt)) := fun _ => rfl
theorem cmpiLtu_row : CmpiRow .cmpiLtu 2 (fun A I => decide (A.toNat < I.toNat)) := fun _ => rfl
theorem cmpiNe_row : CmpiRow .cmpiNe 3 (fun A I => decide (A ≠ I)) := .of_value bne_eq_decide (fun _ => rfl)

/-! ### Combinations -/

theorem predOp_ctx {g d a b' : Nat} {v : Bool → Bool → Bool} (h : s.CtxReady c maj x g d a b') :
    predOp maj x g d a b' v s = retires (s.modCtx c (fun k => k.setP d (v ((s.ctx c).p a) ((s.ctx c).p b')))) := both_ctx_ok h rfl

theorem predOp_slot {g d a b' : Nat} {v : Bool → Bool → Bool} (h : s.SlotReady b sl maj x g d a b') :
    predOp maj x g d a b' v s = retires (s.sends b 1 (.g d (v ((s.bench b).rg a) ((s.bench b).rg b')))) := both_slot_ok h rfl

/-- Instruction `i` is the combination `v` of two predicates of a minor of major 0x15. -/
def PredRow (i : Tri → Instr) (x : Nat) (v : Bool → Bool → Bool) : Prop := ∀ t, exec (i t) = predOp 0x15 x t.g t.d t.a t.b v

theorem PredRow.ctx {i : Tri → Instr} {v : Bool → Bool → Bool} (r : PredRow i x v) {t : Tri} (h : s.CtxReady c 0x15 x t.g t.d t.a t.b) :
    exec (i t) s = retires (s.modCtx c (fun k => k.setP t.d (v ((s.ctx c).p t.a) ((s.ctx c).p t.b)))) :=
  (congrFun (r t) s).trans (predOp_ctx h)

theorem PredRow.slot {i : Tri → Instr} {v : Bool → Bool → Bool} (r : PredRow i x v) {t : Tri}
    (h : s.SlotReady b sl 0x15 x t.g t.d t.a t.b) :
    exec (i t) s = retires (s.sends b 1 (.g t.d (v ((s.bench b).rg t.a) ((s.bench b).rg t.b)))) :=
  (congrFun (r t) s).trans (predOp_slot h)

theorem pand_row : PredRow .pand 0 and := fun _ => rfl
theorem por_row : PredRow .por 1 or := fun _ => rfl
theorem pxor_row : PredRow .pxor 2 xor := fun _ => rfl
theorem exec_pnot (t : Bin) : exec (.pnot t) = predOp 0x15 3 t.g t.d t.a 0 (fun A _ => !A) := rfl

/-! ### SEL, whose guard is an operand -/

theorem onCtx_selects {g d a b' : Nat} {pre : Run Unit} {body : State → Run State} (hl : (s.ctx? c).isSome = true)
    (h : s.ctxAdmits maj x g d a b' = true) (hp : s.portsReady c maj x d a b') :
    s.onCtx c maj x g d a b' true pre body = finishW s c (pre >>= fun _ => body s) := by
  obtain ⟨k, hk⟩ := Option.isSome_iff_exists.1 hl
  obtain ⟨sg, hs, hp⟩ := hp
  have hgood : (!sg.ok d a b' || g == 8 || (s.ctl.ext.isSome && !takesExt maj x) || !immOk s.ctl.ext maj x b') = false := by
    rw [State.ctxAdmits, legalW, hs] at h
    rw [← Bool.not_eq_true', ← h]
    simp [bne]
  simp [State.onCtx, hk, hs, hgood, hp]

theorem onSlot_selects {g d a b' : Nat} {body : State → Run State} (h : s.slotAdmits sl maj x d a b' = true) :
    s.onSlot b sl maj x g d a b' true body = finishF' s b (body s) := by
  cases hs : sigF maj x with
  | none => rw [slotAdmits_of_none hs] at h; cases h
  | some sg =>
    have hgood : (!sg.ok d a b' || !slotTakes sl maj x || (s.ctl.ext.isSome && !takesExt maj x) || !immOk s.ctl.ext maj x b') = false := by
      rw [State.slotAdmits, legalF, hs] at h
      rw [← Bool.not_eq_true', ← h]
      simp
    simp [State.onSlot, hs, hgood]

theorem execSel_ctx {t : Tri} (hc : s.ctl.cur = .ctx c) (hl : (s.ctx? c).isSome = true) (hf : legalW 0x16 0 t.d t.a t.b = true)
    (hg : t.g ≠ 8) (he : s.ctl.ext = none) (hp : s.portsReady c 0x16 0 t.d t.a t.b) :
    execSel t s = retires (((s.src c t.a).2.src c t.b).2.dst c t.d
      (if (s.ctx c).guard t.g then (s.src c t.a).1 else ((s.src c t.a).2.src c t.b).1)) := by
  have ha : s.ctxAdmits 0x16 0 t.g t.d t.a t.b = true := by simp [State.ctxAdmits, hf, hg, he, immOk]
  rw [execSel, hc]
  exact onCtx_selects hl ha hp

theorem execSel_slot {t : Tri} (hc : s.ctl.cur = .slot b sl) (hf : legalF 0x16 0 t.d t.a t.b = true) (ht : slotTakes sl 0x16 0 = true)
    (he : s.ctl.ext = none) : execSel t s = retires (s.sends b 1 (.a t.d
      (if (s.bench b).rg t.g then (s.bench b).ra t.a else (s.bench b).ra t.b))) := by
  have ha : s.slotAdmits sl 0x16 0 t.d t.a t.b = true := by simp [State.slotAdmits, hf, ht, he, immOk]
  rw [execSel, hc]
  exact onSlot_selects ha

/-- Settles O3: the rows of comparisons and combinations on either plane, and SEL, which runs whatever its guard reads. -/
theorem predicatesAndGuards : Obligations.PredicatesAndGuards := by
  unfold Obligations.PredicatesAndGuards
  refine ⟨fun s c f m u => ?_, fun s b sl f m u => ?_⟩
  · exact ⟨⟨cmpEq_row.ctx, cmpLt_row.ctx, cmpLtu_row.ctx, cmpNe_row.ctx⟩, ⟨cmpiEq_row.ctx, cmpiLt_row.ctx, cmpiLtu_row.ctx, cmpiNe_row.ctx⟩,
      ⟨pand_row.ctx, por_row.ctx, pxor_row.ctx⟩, fun h => (congrFun (exec_pnot u) s).trans (predOp_ctx h), execSel_ctx⟩
  · exact ⟨⟨cmpEq_row.slot, cmpLt_row.slot, cmpLtu_row.slot, cmpNe_row.slot⟩,
      ⟨cmpiEq_row.slot, cmpiLt_row.slot, cmpiLtu_row.slot, cmpiNe_row.slot⟩, ⟨pand_row.slot, por_row.slot, pxor_row.slot⟩,
      fun h => (congrFun (exec_pnot u) s).trans (predOp_slot h), execSel_slot⟩

end Sys2Proof.Machine
end

section
/-! O6. WFE, the end of a context, and event counters. -/

namespace Sys2Proof.Machine

variable {s : State} {c maj x g d a b : Nat}

/-- A syllable that is ready and waits leaves its context waiting. -/
theorem weave_ctx_wait (h : s.CtxReady c maj x g d a b) {body : Nat → State → Run State} {w : Wait} (hb : body c s = waitFor w) :
    weave maj x g d a b noPre body s = .next (s.park c w) := by
  simp [weave_ctx h, noPre, Bind.bind, Except.bind, hb, waitFor, finishW]

/-! ### WFE (R102) -/

/-- The events that a WFE's A names. -/
abbrev wfeMask (s : State) (c : Nat) (t : Tri) : W64 := (s.src c t.a).1 &&& 0x7FF
/-- The state in which a WFE's sources have been read. -/
abbrev wfeRead (s : State) (c : Nat) (t : Tri) : W64 × State := (s.src c t.a).2.src c t.b

section wfe
variable {t : Tri} (h : s.CtxReady c 0x25 0 t.g t.d t.a t.b)
include h

/-- With neither a mask nor a bound a WFE gives 0. -/
theorem execWfe_nothing (hm : wfeMask s c t = 0) (hb : (wfeRead s c t).1 = 0) :
    execWfe t s = retires ((wfeRead s c t).2.dst c t.d 0) := by
  refine weave_ctx_ok h ?_
  dsimp only
  rw [if_pos ⟨hm, by rw [hb]; rfl⟩]; rfl

/-- With an event of its mask pending a WFE takes those bits. -/
theorem execWfe_pending {ev : W64} (he : (s.ctx c).evpend &&& wfeMask s c t = ev) (h0 : ev ≠ 0) : execWfe t s =
    retires (((wfeRead s c t).2.modCtx c (fun k => { k with evpend := k.evpend &&& ~~~ev })).dst c t.d ev) := by
  have hm : wfeMask s c t ≠ 0 := fun hm => h0 (by rw [← he, hm]; exact BitVec.and_zero)
  refine weave_ctx_ok h ?_
  subst he
  dsimp only
  rw [if_neg (fun e => hm e.1), if_pos h0]; rfl

/-- At its bound a WFE takes the events of its mask that arrived in the cycle. -/
theorem execWfe_timeout (he : (s.ctx c).evpend &&& wfeMask s c t = 0) (hb : (wfeRead s c t).1 ≠ 0)
    (hw : (wfeRead s c t).1.toNat ≤ s.waited c) (h1 : Act.phase phWaits ∉ s.ctl.agenda) (h2 : Act.phase phTimeouts ∉ s.ctl.agenda) :
    execWfe t s = retires (((wfeRead s c t).2.modCtx c
      (fun k => { k with evnew := k.evnew &&& ~~~((s.ctx c).evnew &&& wfeMask s c t) })).dst c t.d
      ((s.ctx c).evnew &&& wfeMask s c t)) := by
  have hb' : (wfeRead s c t).1.toNat ≠ 0 := fun e => hb (BitVec.eq_of_toNat_eq e)
  refine weave_ctx_ok h ?_
  dsimp only
  rw [if_neg (fun e => hb' e.2), if_neg (Decidable.not_not.2 he), if_pos ⟨hb', hw, h1, h2⟩]; rfl

/-- Else its context waits. -/
theorem execWfe_waits (he : (s.ctx c).evpend &&& wfeMask s c t = 0) (hm : wfeMask s c t ≠ 0 ∨ (wfeRead s c t).1 ≠ 0)
    (hw : (wfeRead s c t).1 = 0 ∨ s.waited c < (wfeRead s c t).1.toNat ∨ Act.phase phWaits ∈ s.ctl.agenda ∨
      Act.phase phTimeouts ∈ s.ctl.agenda) : execWfe t s = .next (s.park c (.wfe (wfeRead s c t).1.toNat)) := by
  have hasks : ¬(wfeMask s c t = 0 ∧ (wfeRead s c t).1.toNat = 0) := fun e =>
    hm.elim (fun n => n e.1) (fun n => n (BitVec.eq_of_toNat_eq e.2))
  have hnot : ¬((wfeRead s c t).1.toNat ≠ 0 ∧ (wfeRead s c t).1.toNat ≤ s.waited c ∧ Act.phase phWaits ∉ s.ctl.agenda ∧
      Act.phase phTimeouts ∉ s.ctl.agenda) := by
    rintro ⟨hb, hle, h1, h2⟩
    rcases hw with e | e | e | e
    · exact hb (by rw [e]; rfl)
    · omega
    · exact h1 e
    · exact h2 e
  refine weave_ctx_wait h ?_
  dsimp only
  rw [if_neg hasks, if_neg (Decidable.not_not.2 he), if_neg hnot]

end wfe

/-! ### Endings (R122, R146 to R148) -/

theorem execDone_ctx {t : Nul} (h : s.CtxReady c 0x3C 0 t.g 0 0 0) : execDone t s = retires (s.endCtx c) := weave_ctx_ok h rfl

theorem execSignal_ctx {t : AB} (h : s.CtxReady c 0x3C 1 t.g 0 t.a t.b) : execSignal t s = retires
    ((((s.src c t.a).2.src c t.b).2.drainAll (coreOf c)).signal ((s.src c t.a).1.toNat % 4096) ((s.src c t.a).2.src c t.b).1) :=
  weave_ctx_ok h rfl

/-- The other ready contexts of a context's core. -/
def State.readyOthers (s : State) (c : Nat) : List Nat :=
  ((List.range 11).map (fun i => 16 * coreOf c + i)).filter (fun d => d ≠ c && s.ready d)

/-- They are the contexts that YIELD waits for. -/
theorem yield_others (s : State) (c : Nat) : (List.range Config.slotsPerCore).filterMap (fun i =>
    let d := 16 * coreOf c + i
    if d ≠ c ∧ s.ready d then some d else none) = s.readyOthers c := by
  rw [State.readyOthers, ← List.filterMap_eq_filter, List.filterMap_map]
  refine congrArg (fun q => (List.range 11).filterMap q) (funext fun i => ?_)
  simp [Option.guard]

theorem execYield_alone {t : Nul} (h : s.CtxReady c 0x3C 2 t.g 0 0 0) (ho : s.readyOthers c = []) : execYield t s = retires s := by
  refine weave_ctx_ok h ?_
  dsimp only
  rw [yield_others, ho]; rfl

theorem execYield_waits {t : Nul} (h : s.CtxReady c 0x3C 2 t.g 0 0 0) (ho : s.readyOthers c ≠ []) : execYield t s =
    retires (s.modCtx c (fun x => { x with wait := some (.yield (s.readyOthers c)), since := some s.ctl.now })) := by
  refine weave_ctx_ok h ?_
  dsimp only
  rw [yield_others, if_neg (fun e => ho (List.isEmpty_iff.1 e))]

theorem execWaitev_reached {t : Tri} (h : s.CtxReady c 0x3C 3 t.g t.d t.a t.b)
    (hv : ((s.src c t.a).2.src c t.b).1.toNat ≤ (s.evctr ((s.src c t.a).1.toNat % 4096)).toNat) : execWaitev t s =
    retires ((((s.src c t.a).2.src c t.b).2.acquire (coreOf c)).dst c t.d (s.evctr ((s.src c t.a).1.toNat % 4096))) :=
  weave_ctx_ok h (if_pos hv)

theorem execWaitev_waits {t : Tri} (h : s.CtxReady c 0x3C 3 t.g t.d t.a t.b)
    (hv : (s.evctr ((s.src c t.a).1.toNat % 4096)).toNat < ((s.src c t.a).2.src c t.b).1.toNat) :
    execWaitev t s = .next (s.park c .event) :=
  weave_ctx_wait h (if_neg (Nat.not_le.2 hv))

/-- Settles O6: WFE by whether it asks for anything, what is pending, and its bound; the endings by their own rules. -/
theorem waitsAndEndings : Obligations.WaitsAndEndings := by
  unfold Obligations.WaitsAndEndings
  refine ⟨fun s c f => ?_, fun s c n f w => ?_⟩
  · intro ra rb mask ev h
    exact ⟨fun h0 => execWfe_pending h rfl h0, execWfe_nothing h, execWfe_timeout h, execWfe_waits h⟩
  · exact ⟨execDone_ctx, execSignal_ctx, fun h => ⟨execYield_alone h, execYield_waits h⟩,
      fun h => ⟨execWaitev_reached h, execWaitev_waits h⟩⟩

end Sys2Proof.Machine
end

section
/-! O12. Helpers of a role and barriers of a gang. -/

namespace Sys2Proof.Machine

variable {s t : State} {c d maj x g a b j : Nat}

/-! ### Helpers (R135 to R138) -/

/-- A syllable that passes its test before the pipes, and then waits, leaves its context waiting. -/
theorem weave_ctx_pre_wait {pre : State → Nat → Run Unit} {body : Nat → State → Run State} {w : Wait}
    (h : s.CtxReady c maj x g d a b) (hp : pre s c = .ok ()) (hb : body c s = waitFor w) :
    weave maj x g d a b pre body s = .next (s.park c w) := by
  simp [weave_ctx h, hp, Bind.bind, Except.bind, hb, waitFor, finishW]

theorem controlOnly_ok (h : fld (s.ctx c).status.toNat 20 4 = 0) : controlOnly s c = .ok () := by simp [controlOnly, need, h]

/-- The two low bits of a target are cleared (R14). -/
theorem ofNat_toNat_div_mul_four (v : W64) : BitVec.ofNat 64 (v.toNat / 4 * 4) = v >>> 2 <<< 2 := by
  apply BitVec.eq_of_toNat_eq
  simp only [BitVec.toNat_ofNat, BitVec.toNat_shiftLeft, BitVec.toNat_ushiftRight, Nat.shiftLeft_eq, Nat.shiftRight_eq_div_pow]

theorem execHstart_none {f : Tri} (h : s.CtxReady c 0x38 0 f.g f.d f.a f.b) (hc : fld (s.ctx c).status.toNat 20 4 = 0)
    (hj : s.freeHelper (coreOf c) = none) : execHstart f s = retires (((s.src c f.a).2.src c f.b).2.dst c f.d 0) := by
  refine weave_ctx_pre_ok h (controlOnly_ok hc) ?_
  dsimp only
  rw [hj]

theorem execHstart_some {f : Tri} (h : s.CtxReady c 0x38 0 f.g f.d f.a f.b) (hc : fld (s.ctx c).status.toNat 20 4 = 0)
    (hj : s.freeHelper (coreOf c) = some j) : execHstart f s =
    let rb := (s.src c f.a).2.src c f.b
    let gen := (tgetD (s.core (coreOf c)).gens j 0 + 1) % 2 ^ 16
    retires ((((rb.2.drainAll (coreOf c)).modCore (coreOf c) (fun q => { q with gens := tset q.gens j gen })).setCtx
      (16 * coreOf c + j) (helperStart (s.ctx c) j gen (s.src c f.a).1 rb.1)).dst c f.d (BitVec.ofNat 64 (gen * 16 + j))) := by
  refine weave_ctx_pre_ok h (controlOnly_ok hc) ?_
  dsimp only
  rw [hj]

theorem execHjoin_over {f : UnA} (h : s.CtxReady c 0x38 1 f.g 0 f.a 0) (hc : fld (s.ctx c).status.toNat 20 4 = 0)
    (hl : s.handleLive (coreOf c) (s.src c f.a).1 = false) : execHjoin f s = retires ((s.src c f.a).2.drainAll (coreOf c)) :=
  weave_ctx_pre_ok h (controlOnly_ok hc) (if_neg (by simp [hl]))

theorem execHjoin_waits {f : UnA} (h : s.CtxReady c 0x38 1 f.g 0 f.a 0) (hc : fld (s.ctx c).status.toNat 20 4 = 0)
    (hl : s.handleLive (coreOf c) (s.src c f.a).1 = true) : execHjoin f s = .next (s.park c .join) :=
  weave_ctx_pre_wait h (controlOnly_ok hc) (if_pos hl)

/-- The slot of a handle (R135). -/
theorem fld_low_four (n : Nat) : fld n 0 4 = n % 16 := by
  unfold fld
  omega

theorem execHkill_ctx {f : UnA} (h : s.CtxReady c 0x38 2 f.g 0 f.a 0) (hc : fld (s.ctx c).status.toNat 20 4 = 0) : execHkill f s =
    retires (if s.handleLive (coreOf c) (s.src c f.a).1 then (s.src c f.a).2.endCtx (16 * coreOf c + (s.src c f.a).1.toNat % 16)
      else (s.src c f.a).2) := by
  refine weave_ctx_pre_ok h (controlOnly_ok hc) ?_
  dsimp only
  rw [fld_low_four]

theorem execHself_ctx {f : UnD} (h : s.CtxReady c 0x38 3 f.g f.d 0 0) : execHself f s = retires (s.dst c f.d
    (BitVec.ofNat 64 (clusterOf c * 2 ^ 23 + coreOf c % 8 * 2 ^ 20 + (s.ctx c).gen * 16 + c % 16))) := weave_ctx_ok h rfl

theorem execGrank_ctx {f : UnD} {gr : Gang} (hg : tget s.weave.gangs (s.ctx c).gang = some gr) (h : s.CtxReady c 0x3A 3 f.g f.d 0 0) :
    execGrank f s = retires (s.dst c f.d
      (BitVec.ofNat 64 (gr.idx * 2 ^ 32 + gr.cores.length * 2 ^ 16 + (s.ctx c).role * 2 ^ 8 + c % 16))) := by
  refine weave_ctx_ok h ?_
  dsimp only
  rw [State.gangOf, hg]; rfl

/-! ### What a context's sources read -/

/-- All that the values of a context's source fields, and the state of its gang's barriers, depend on. -/
def State.operands (s : State) (c : Nat) : Tbl Gang × Tbl W64 × Nat × Nat :=
  (s.weave.gangs, (s.ctx c).xs, (s.ctx c).gang, (s.ctx c).role)

theorem State.operands_ext (h : s.operands c = t.operands c) : s.weave.gangs = t.weave.gangs ∧ (s.ctx c).xs = (t.ctx c).xs ∧
    (s.ctx c).gang = (t.ctx c).gang ∧ (s.ctx c).role = (t.ctx c).role := by
  simpa only [State.operands, Prod.mk.injEq] using h

theorem State.x_congr (h : s.operands c = t.operands c) (i : Nat) : (s.ctx c).x i = (t.ctx c).x i := by
  obtain ⟨-, hx, -⟩ := State.operands_ext h
  rw [Ctx.x, Ctx.x, hx]

theorem State.pipesOf_congr (h : s.operands c = t.operands c) : s.pipesOf c = t.pipesOf c := by
  obtain ⟨hg, -, hn, -⟩ := State.operands_ext h
  rw [State.pipesOf, State.pipesOf, hg, hn]

theorem State.gbar_congr (h : s.operands c = t.operands c) (b : Nat) : s.gbar c b = t.gbar c b := by
  obtain ⟨hg, -, hn, -⟩ := State.operands_ext h
  rw [State.gbar, State.gbar, State.gangOf, State.gangOf, hg, hn]

theorem State.setGang_operands (s : State) (c n : Nat) (gr : Gang) : (s.setGang n gr).operands c =
    (tset s.weave.gangs n gr, (s.ctx c).xs, (s.ctx c).gang, (s.ctx c).role) := rfl

theorem State.setPipe_operands (i : Nat) (p : Pipe) (h : s.operands c = t.operands c) :
    (s.setPipe c i p).operands c = (t.setPipe c i p).operands c := by
  obtain ⟨hg, hx, hn, hr⟩ := State.operands_ext h
  unfold State.setPipe
  rw [← hn, ← hg]
  split
  · rw [State.setGang_operands, State.setGang_operands, hg, hx, hn, hr]
  · exact h

/-- An event that is posted in a context changes none of its operands. -/
theorem State.event_operands (s : State) (c d bitNo : Nat) : (s.modCtx d (·.event bitNo)).operands c = s.operands c := by
  by_cases e : c = d
  · subst e; simp [State.operands, Ctx.event]
  · simp [State.operands, State.ctx_modCtx_ne s _ e]

theorem State.postEvent_operands (s : State) (c gang role bitNo : Nat) : (s.postEvent gang role bitNo).operands c = s.operands c := by
  unfold State.postEvent
  generalize keysWhere _ _ = l
  induction l generalizing s with
  | nil => rfl
  | cons d l ih => exact (ih _).trans (s.event_operands c d bitNo)

theorem foldl_modCore_operands {α : Type} (l : List α) (core : α → Nat) (f : Core → Core) (s : State) (c : Nat) :
    (l.foldl (fun t j => t.modCore (core j) f) s).operands c = s.operands c := by
  induction l generalizing s with
  | nil => rfl
  | cons j l ih => exact ih _

theorem State.acquire_operands (s : State) (c k : Nat) : (s.acquire k).operands c = s.operands c := by
  unfold State.acquire
  split
  · exact foldl_modCore_operands _ _ _ s c
  · rfl

theorem State.popQ_congr (h : s.operands c = t.operands c) (i : Nat) :
    (s.popQ c i).1 = (t.popQ c i).1 ∧ (s.popQ c i).2.operands c = (t.popQ c i).2.operands c := by
  obtain ⟨-, -, hn, hr⟩ := State.operands_ext h
  unfold State.popQ
  rw [State.pipesOf_congr h, hr]
  split
  · exact ⟨rfl, h⟩
  · split
    · exact ⟨rfl, h⟩
    · split
      · refine ⟨rfl, ?_⟩
        simp only [State.acquire_operands, State.postEvent_operands]
        exact State.setPipe_operands _ _ h
      · exact ⟨rfl, h⟩

theorem State.src_congr (h : s.operands c = t.operands c) (i : Nat) :
    (s.src c i).1 = (t.src c i).1 ∧ (s.src c i).2.operands c = (t.src c i).2.operands c := by
  unfold State.src
  split
  · exact State.popQ_congr h i
  · exact ⟨State.x_congr h i, h⟩

/-- A wait in GWAIT joins no port; of its context it changes the fields of a wait alone. -/
theorem State.park_gwait_ctx (s : State) (c : Nat) : (s.park c .gwait).ctx c = { s.ctx c with
    wait := some .gwait, since := some ((s.ctx c).since.getD s.ctl.now), pc := BitVec.ofNat 64 s.ctl.group, granted := false } :=
  tgetD_tset_self _ _ _ _

theorem State.park_gwait_operands (s : State) (c : Nat) : (s.park c .gwait).operands c = s.operands c := by
  rw [State.operands, s.park_gwait_ctx]; rfl

/-! ### Gang barriers (R141) -/

/-- The arrival of a GBAR whose sources `s` holds, made in `u`. -/
def State.gbarEnter (s u : State) (c addr : Nat) (f : Tri) : State :=
  let n := (s.src c f.a).1.toNat % 8
  match tget (s.ctx c).arrived addr with
  | some _ => u
  | none => ((u.drainAll (coreOf c)).modGBar (s.ctx c).gang n
      (fun g => g.arrive ((s.src c f.a).2.src c f.b).1.toNat)).modCtx c
        (fun q => { q with arrived := tset q.arrived addr (8 * (s.gbar c n).phase + n) })

/-- A GBAR whose context has been left waiting reads its sources as it did before. -/
theorem State.gbarArrive_parked (s : State) (c addr : Nat) (f : Tri) :
    (s.park c .gwait).gbarArrive c addr f = s.gbarEnter (s.park c .gwait) c addr f := by
  have ho := s.park_gwait_operands c
  obtain ⟨ha, hrest⟩ := State.src_congr ho f.a
  obtain ⟨hb, -⟩ := State.src_congr hrest f.b
  unfold State.gbarArrive State.gbarEnter
  dsimp only
  rw [ha, hb, State.gbar_congr ho, s.park_gwait_ctx]
  rfl

theorem execGbar_passed {f : Tri} (h : s.CtxReady c 0x3A 0 f.g f.d f.a f.b) {n : Nat}
    (hn : tgetD ((s.gbarArrive c s.ctl.syl f).ctx c).arrived s.ctl.syl 0 = n)
    (hp : phasePassed ((s.gbarArrive c s.ctl.syl f).gbar c (n % 8)).phase (n / 8) = true) : execGbar f s =
    let u := s.gbarArrive c s.ctl.syl f
    retires ((((u.src c f.a).2.src c f.b).2.acquire (coreOf c)).dst c f.d (BitVec.ofNat 64 (n / 8))) := by
  subst hn
  rw [execGbar, weave_ctx_ok h (if_pos hp), retires, h.here]
  rfl

theorem execGbar_waits {f : Tri} (h : s.CtxReady c 0x3A 0 f.g f.d f.a f.b) {n : Nat}
    (hn : tgetD ((s.gbarArrive c s.ctl.syl f).ctx c).arrived s.ctl.syl 0 = n)
    (hp : phasePassed ((s.gbarArrive c s.ctl.syl f).gbar c (n % 8)).phase (n / 8) = false) :
    execGbar f s = .next (s.gbarEnter (s.park c .gwait) c s.ctl.syl f) := by
  subst hn
  rw [execGbar, weave_ctx_wait h (if_neg (by simp [hp])), h.here]
  dsimp only
  rw [if_pos ⟨rfl, by rw [s.park_gwait_ctx]⟩, State.gbarArrive_parked]

theorem execGarrive_ctx {f : Tri} (h : s.CtxReady c 0x3A 1 f.g f.d f.a f.b) : execGarrive f s =
    let n := (s.src c f.a).1.toNat % 8
    let rb := (s.src c f.a).2.src c f.b
    retires (((rb.2.drainAll (coreOf c)).modGBar (s.ctx c).gang n (fun g => g.arrive rb.1.toNat)).dst c f.d
      (BitVec.ofNat 64 (s.gbar c n).phase)) := weave_ctx_ok h rfl

theorem execGwait_passed {w : AB} (h : s.CtxReady c 0x3A 2 w.g 0 w.a w.b)
    (hp : phasePassed (s.gbar c ((s.src c w.a).1.toNat % 8)).phase ((s.src c w.a).2.src c w.b).1.toNat = true) :
    execGwait w s = retires (((s.src c w.a).2.src c w.b).2.acquire (coreOf c)) := weave_ctx_ok h (if_pos hp)

theorem execGwait_waits {w : AB} (h : s.CtxReady c 0x3A 2 w.g 0 w.a w.b)
    (hp : phasePassed (s.gbar c ((s.src c w.a).1.toNat % 8)).phase ((s.src c w.a).2.src c w.b).1.toNat = false) :
    execGwait w s = .next (s.park c .gwait) := weave_ctx_wait h (if_neg (by simp [hp]))

/-- The target that the first arrival of a phase sets. -/
theorem target_eq (n : Nat) : max 1 (min n 88) = if n < 1 then 1 else if 88 < n then 88 else n := by
  split
  · omega
  · split <;> omega

theorem phasePassed_iff (ph B : Nat) : phasePassed ph B = true ↔
    (1 : Int) ≤ ((ph : Int) - (B % 2 ^ 32 : Nat)) % 2 ^ 32 ∧ ((ph : Int) - (B % 2 ^ 32 : Nat)) % 2 ^ 32 ≤ 2 ^ 31 - 1 := by
  simp only [phasePassed, Bool.and_eq_true, decide_eq_true_eq]
  omega

/-- Settles O12: each form by its body; the state in which a GBAR waits holds the same operands as the one it was read in, so that the
arrival made there is its own. -/
theorem helpersAndGangBarriers : Obligations.HelpersAndGangBarriers := by
  unfold Obligations.HelpersAndGangBarriers
  refine ⟨fun s c f u d => ?_, fun s c f w => ?_, fun o n ph B => ?_⟩
  · refine ⟨fun h hc => ⟨execHstart_none h hc, fun j hj => ?_⟩, fun h hc => ⟨execHjoin_over h hc, execHjoin_waits h hc⟩, execHkill_ctx,
      execHself_ctx, fun g => execGrank_ctx⟩
    rw [← ofNat_toNat_div_mul_four]
    exact execHstart_some h hc hj
  · exact ⟨⟨execGarrive_ctx, fun h => ⟨execGbar_passed h rfl, execGbar_waits h rfl⟩⟩,
      fun h => ⟨execGwait_passed h, execGwait_waits h⟩⟩
  · rw [← target_eq]
    exact ⟨fun h => if_pos h, fun h => if_neg h, phasePassed_iff ph B⟩

end Sys2Proof.Machine
end

section
/-! O14. A block that holds QPEEK: its field names no port that is popped, and yet its pipe holds it up. -/

namespace Sys2Proof.Machine

/-- QPEEK x0, q0 with S = 1. -/
def peekWord : Nat := 0xB9003000

/-- A block of that one syllable, in its only execution. -/
def peekBlock : Replay := { words := [peekWord], addr := 0x1004, fm := 0, stride := 0, count := 0, k := 0, pos := 0 }

/-- A pipe that its producer, port q1 of role 0, has closed, with nothing left for its consumer, port q0 of role 0. -/
def drainedPipe : Pipe :=
  { entries := [], depth := 8, prole := 0, pq := 1, crole := 0, cq := 0, pclosed := true, cclosed := false }

/-- Context 0, of a gang with that pipe, whose replay unit is to run that block. -/
def peeking : State :=
  let g : Gang := { launch := 0, idx := 0, cluster := 0, cores := [0], pipes := [drainedPipe], bars := [], haltedRoles := [], stopping := false }
  let s := (State.reset.setCtx 0 { Ctx.zero with gang := 1, replay := some peekBlock }).setGang 1 g
  { s with ctl := { s.ctl with agenda := [.replay 0] } }

/-- What context 0 waits for after an answer. -/
def waitAfter (r : Answer) : Option Wait :=
  match r with
  | .next t => (t.ctx 0).wait
  | _ => none

/-- The unit tests the group as one that a pipe holds up, so that the context is left marked as waiting for it. -/
theorem waitAfter_step_peeking : waitAfter (step peeking) = some (.pipe false) := by decide +kernel

theorem decode_peekWord : decode peekWord = .ok (.qpeek ⟨1, 0, 0, 48⟩) := rfl

/-- QPEEK's source is no x field, so none of its fields is a port that it pops or pushes. -/
theorem sigW_peekWord : sigW (majOf peekWord) (xOf peekWord) = some ⟨.xo, .q, .z, true, false⟩ := rfl

/-- Refutes O14, by a block that no REPF leaves (R143) and the statement does not rule out: the replay unit tests a group before it runs
it, as any group of a context. A QPEEK that its pipe holds up pops nothing, so that the statement takes its group to name no port; the test
leaves its context marked as waiting for the pipe, and the trap that ends the launch keeps the mark, where the syllable by itself sets none. -/
theorem not_weaveReplay : ¬ Obligations.WeaveReplay := by
  unfold Obligations.WeaveReplay
  rintro ⟨-, hunit, -⟩
  have hrun := (hunit peeking 0 [] peekBlock peekWord (.qpeek ⟨1, 0, 0, 48⟩) rfl rfl (Nat.le_refl 0)).1 rfl (by decide) ?_
    decode_peekWord
  · have hwait : some (Wait.pipe false) = none := by
      rw [← waitAfter_step_peeking, hrun]
      decide +kernel
    cases hwait
  · intro g hg q hq
    obtain rfl := Option.some.inj (sigW_peekWord.symm.trans hg)
    simp [srcFields, dstFields] at hq

end Sys2Proof.Machine
end

section
/-! O15. The three forms of a context at a mortise, and the status word of a tenon. -/

namespace Sys2Proof.Machine

variable {s s1 : State} {c k m pa : Nat} {r₀ : Nat × Nat × State} {t : AB}

/-! ### Posting and staging (R149 to R151) -/

/-- The test that a form makes of its A before the pipes: none of a port, whose word is not there yet. -/
theorem preOfPort_ok {α : Type} {q : Bool} {check : Run α} {r : α} (h : q = true ∨ check = .ok r) :
    (if q then .ok () else check.map (fun _ => ()) : Run Unit) = .ok () := by
  rcases h with rfl | h
  · rfl
  · rw [h]; cases q <;> rfl

theorem execTenonV_posts (h : s.CtxReady c 0x3D 0 t.g 0 t.a t.b) (hk : (s.src c t.a).2.tenonCheck c (s.src c t.a).1 = .ok k)
    (hpre : isQ t.a = true ∨ s.tenonCheck c ((s.ctx c).x t.a) = .ok k) : execTenonV t s =
    let rb := (s.src c t.a).2.src c t.b
    let d := rb.2.drainAll (coreOf c)
    retires { d with frame := { d.frame with posts := tset d.frame.posts k rb.1 } } := by
  refine weave_ctx_pre_ok h (preOfPort_ok hpre) ?_
  dsimp only
  rw [hk]; rfl

theorem execTenonW_stages (h : s.CtxReady c 0x3D 1 t.g 0 t.a t.b)
    (hw : (s.src c t.a).2.stageCheck c (s.src c t.a).1 = .ok (m, pa, s1))
    (hpre : isQ t.a = true ∨ s.stageCheck c ((s.ctx c).x t.a) = .ok r₀) : execTenonW t s =
    let rb := s1.src c t.b
    let d := rb.2.drainAll (coreOf c)
    retires { d with frame := { d.frame with staged := d.frame.staged ++ [(m, pa, rb.1)] } } := by
  refine weave_ctx_pre_ok h (preOfPort_ok hpre) ?_
  dsimp only
  rw [hw]; rfl

theorem execTenonQ_reports {u : Bin} (h : s.CtxReady c 0x3D 2 u.g u.d u.a 0) :
    execTenonQ u s = retires ((s.src c u.a).2.dst c u.d (s.tenonStatus (s.src c u.a).1)) := weave_ctx_ok h rfl

/-! ### The status word (R152) -/

theorem State.tenonStatus_undeclared {a : W64} (h : 256 ≤ a.toNat ∨ s.tenon? a.toNat = none) : s.tenonStatus a = 0 := by
  have hnone : (if a.toNat < 256 then s.tenon? a.toNat else none) = none := by
    rcases h with h | h
    · exact if_neg (Nat.not_lt.2 h)
    · rw [h, ite_self]
  simp [State.tenonStatus, hnone]

theorem State.tenon?_idle (h : s.frame.running = false) : s.tenon? k = none := by simp [State.tenon?, h]

theorem State.tenon?_of_launch {l : FrameLaunch} (hr : s.frame.running = true) (hl : s.frame.launch = some l) :
    s.tenon? k = l.tenons[k]? := by simp [State.tenon?, hr, hl]

theorem State.tenon?_undeclared {l : FrameLaunch} (hl : s.frame.launch = some l) (ht : l.tenons[k]? = none) : s.tenon? k = none := by
  simp [State.tenon?, hl, ht]

/-- Whether a tenon of the running launch has a post in its window: a staged word where its data are stores', else a posted value. -/
def State.tenonPosted (s : State) (t : Tenon) (k : Nat) : Bool :=
  if t.dkind = 0 then s.frame.staged.any (fun w => w.1 == t.mort) else (tget s.frame.posts k).isSome

theorem State.tenonPosted_iff (t : Tenon) : s.tenonPosted t k = true ↔
    if t.dkind = 0 then ∃ w, w ∈ s.frame.staged ∧ w.1 = t.mort else ∃ v, tget s.frame.posts k = some v := by
  unfold State.tenonPosted
  split
  · simp [List.any_eq_true]
  · exact Option.isSome_iff_exists

/-- The ticks that a status word counts: to the close of an open mortise, none in a hold at its close tick, or to the next open. -/
def State.tenonTicks (s : State) (l : FrameLaunch) (m : Mortise) (mort : Nat) : Nat :=
  let phi := s.frame.fcnt.toNat % l.flen
  if mort ∈ s.frame.openM then
    (if m.open_ ≤ phi ∧ (s.frame.causes = [] ∨ phi ≠ m.close % l.flen) then m.close - phi else 0)
  else ticksToOpen s.frame.fcnt.toNat l.flen l.nframes m.open_

theorem State.tenonStatus_declared {a : W64} {l : FrameLaunch} {t : Tenon} {m : Mortise} (ha : a.toNat < 256)
    (hr : s.frame.running = true) (hl : s.frame.launch = some l) (ht : l.tenons[a.toNat]? = some t) (hm : l.morts[t.mort]? = some m) :
    s.tenonStatus a = BitVec.ofNat 64 ((if t.mort ∈ s.frame.openM then 2 ^ 63 else 0) +
      (if s.tenonPosted t a.toNat then 2 ^ 62 else 0) + s.tenonTicks l m t.mort) := by
  have htenon : (if a.toNat < 256 then s.tenon? a.toNat else none) = some t := by
    rw [if_pos ha, State.tenon?_of_launch hr hl, ht]
  have hmort : s.mortise? t.mort = some m := by simp [State.mortise?, hl, hm]
  have hopen : s.mortOpen t.mort = decide (t.mort ∈ s.frame.openM) := by simp [State.mortOpen, hr]
  have hlate : (m.open_ ≤ s.frame.fcnt.toNat % l.flen ∧
      (!(!s.frame.causes.isEmpty && s.frame.fcnt.toNat % l.flen == m.close % l.flen)) = true) ↔
      m.open_ ≤ s.frame.fcnt.toNat % l.flen ∧ (s.frame.causes = [] ∨ s.frame.fcnt.toNat % l.flen ≠ m.close % l.flen) := by
    simp
  unfold State.tenonStatus
  dsimp only
  rw [htenon, hl]
  dsimp only
  rw [hmort, hopen, State.tenonTicks, State.tenonPosted]
  simp only [Option.map_some, Option.getD_some, decide_eq_true_eq, hlate]

/-- The next opening of a closed mortise is the first tick from now on whose place in its frame is the opening's. -/
theorem ticksToOpen_first {now flen nframes o T : Nat} (ho : o < flen) (hT : now ≤ T) (hat : T % flen = o)
    (hfirst : ∀ T', now ≤ T' → T' % flen = o → T ≤ T') :
    ticksToOpen now flen nframes o = if T / flen < nframes then T - now else 0xFFFFFFFFFFFF := by
  have hnext : (if now % flen < o ∨ now % flen = o then now / flen * flen + o else (now / flen + 1) * flen + o) = T := by
    have hnow := Nat.mod_add_div' now flen
    have htime := Nat.mod_add_div' T flen
    have hframe : now / flen ≤ T / flen := Nat.div_le_div_right hT
    have hplace (f : Nat) : (f * flen + o) % flen = o := by rw [Nat.mul_add_mod', Nat.mod_eq_of_lt ho]
    split
    case isTrue h =>
      have hle := Nat.mul_le_mul_right flen hframe
      have := hfirst _ (by omega) (hplace (now / flen))
      omega
    case isFalse h =>
      have hlater : now / flen + 1 ≤ T / flen := Nat.lt_of_le_of_ne hframe (fun e => by rw [← e] at htime; omega)
      have hle := Nat.mul_le_mul_right flen hlater
      have hlt := Nat.mod_lt now (Nat.zero_lt_of_lt ho)
      have hstep := Nat.add_one_mul (now / flen) flen
      have := hfirst _ (by omega) (hplace (now / flen + 1))
      omega
  exact congrArg (fun at_ => if at_ / flen < nframes then at_ - now else 0xFFFFFFFFFFFF) hnext

/-- Settles O15: the forms by their bodies, the word by its three parts, the next opening by the frame it falls in. -/
theorem weaveTenons : Obligations.WeaveTenons := by
  unfold Obligations.WeaveTenons
  refine ⟨fun s s1 c k m pa r0 w u => ⟨execTenonV_posts, execTenonW_stages, execTenonQ_reports⟩, fun s a => ⟨fun h => ?_, fun l hl ht => ?_, ?_⟩⟩
  · exact State.tenonStatus_undeclared (h.imp_right State.tenon?_idle)
  · exact State.tenonStatus_undeclared (.inr (State.tenon?_undeclared hl ht))
  · intro l t m ha hr hl ht hm ho now phi posted word opens
    have hword := State.tenonStatus_declared ha hr hl ht hm
    have words {opn n : Nat} (hb : (if t.mort ∈ s.frame.openM then 2 ^ 63 else 0) = 2 ^ 63 * opn) (hn : s.tenonTicks l m t.mort = n) :
        word opn n := by
      refine ⟨fun hp => ?_, fun hp => ?_⟩
      · rw [hword, hb, hn, if_pos ((State.tenonPosted_iff t).2 hp)]
      · rw [hword, hb, hn, if_neg (fun h => hp ((State.tenonPosted_iff t).1 h))]; rfl
    refine ⟨fun hopen hle hlate => ?_, fun hopen hc hphi => ?_, fun hshut T hT hfirst => ?_⟩
    · exact words (if_pos hopen) ((if_pos hopen).trans (if_pos ⟨hle, hlate⟩))
    · exact words (if_pos hopen) ((if_pos hopen).trans (if_neg (fun h => h.2.elim hc (fun n => n hphi))))
    · exact words (if_neg hshut) ((if_neg hshut).trans (ticksToOpen_first ho hT.1 hT.2 (fun T' h h' => hfirst T' ⟨h, h'⟩)))

end Sys2Proof.Machine
end

section
/-! O38. The four forms of a channel's ends, and the operations of CH.RED. -/

namespace Sys2Proof.Machine

variable {s : State} {b ch at_ : Nat} {sl : SlotName} {c : Channel} {v : W1024} {rest : List (Nat × W1024)}

/-- A slot's syllable whose own effect stops with a cause raises it, at the address of its bundle. -/
theorem frame_slot_stop {maj x g d a bb code faddr info : Nat} (h : s.SlotReady b sl maj x g d a bb)
    {body : Nat → SlotName → State → Run State} (hb : body b sl s = stop code faddr info) :
    frame maj x g d a bb body s = .next (s.benchFault b s.ctl.group code faddr info) := by
  rw [frame_slot h, hb]; rfl

theorem Run.ok_bind {α β : Type} (x : α) (f : α → Run β) : ((.ok x : Run α) >>= f) = f x := rfl
theorem Run.stop_bind {α β : Type} (code faddr info : Nat) (f : α → Run β) :
    ((stop code faddr info : Run α) >>= f) = stop code faddr info := rfl
theorem need_true {p : Bool} (h : p = true) (code faddr info : Nat) : need p code faddr info = .ok () := by rw [h]; rfl
theorem need_false {p : Bool} (h : p = false) (code faddr info : Nat) : need p code faddr info = stop code faddr info := by rw [h]; rfl

/-! ### The ends of a channel (R340) -/

theorem State.channel_ok (h : tget s.frame.channels ch = some c) : s.channel ch = .ok c := by rw [State.channel, h]

/-- The consumer's side is open to its bench, and that of a channel from another package to each bench. -/
theorem State.consumed_ok (h : tget s.frame.channels ch = some c) (hc : c.xpkg = true ∨ c.cons = b) : s.consumed b ch = .ok c := by
  have hside : (c.xpkg || c.cons == b) = true := by simpa using hc
  rw [State.consumed, State.channel_ok h, Run.ok_bind, need_true hside]; rfl

/-- An undeclared channel has no consumer, and one within the package no other than its own. -/
theorem State.consumed_role (h : ∀ q, tget s.frame.channels ch = some q → q.xpkg = false ∧ q.cons ≠ b) :
    s.consumed b ch = stop cChRole 0 ch := by
  unfold State.consumed State.channel
  split
  case h_1 q hq =>
    obtain ⟨hx, hc⟩ := h q hq
    have hside : (q.xpkg || q.cons == b) = false := by simp [hx, hc]
    rw [Run.ok_bind, need_false hside]; rfl
  case h_2 => rfl

theorem Channel.oldest_cons (h : c.landed = (at_, v) :: rest) : c.oldest ch = .ok (v, { c with landed := rest }) := by
  rw [Channel.oldest, h]

theorem Channel.oldest_nil (h : c.landed = []) : c.oldest ch = stop cChEmpty 0 ch := by rw [Channel.oldest, h]

/-- An entry that lands takes a place of its channel, or ends the launch where none is free (R324). -/
theorem State.landEntry_eq {now : Nat} (h : tget s.frame.channels ch = some c) : s.landEntry ch now v =
    if c.depth ≤ c.landed.length then s.faultFrame ⟨cChFull, ch, 0, 0, 1, c.cons, 0⟩
    else s.setChannel ch { c with landed := c.landed ++ [(now, v)] } := by rw [State.landEntry, h]

/-! ### CH.PUT (R324, R341) -/

section put

variable {t : Tri} {due : Nat} (h : s.SlotReady b sl 0x78 0 t.g t.d t.a t.b)
  (hat : (s.bench b).lastAnchor + ((s.bench b).ra t.b).toNat % 2 ^ 32 = due)

include h

theorem execChPut_role (hp : ∀ q, tget s.frame.channels t.d = some q → q.prod ≠ b) :
    execChPut t s = .next (s.benchFault b s.ctl.group cChRole 0 t.d) := by
  refine frame_slot_stop h ?_
  unfold State.channel
  dsimp only
  split
  case h_1 q hq => rw [Run.ok_bind, need_false (beq_eq_false_iff_ne.2 (hp q hq)), Run.stop_bind]
  case h_2 => rfl

include hat

/-- An entry of the producer's that keeps the channel's latency lands at once or is on its way. -/
theorem execChPut_sends (hc : tget s.frame.channels t.d = some c) (hp : c.prod = b) (hlat : s.frame.fcnt.toNat + c.lat ≤ due) :
    let value := (s.bench b).rv t.a % 2 ^ c.width
    let flies := s.setChannel t.d { c with flying := c.flying ++ [(due, s.frame.fcnt.toNat, BitVec.ofNat 1024 value)] }
    execChPut t s = retires
      (if !c.xpkg && due == s.frame.fcnt.toNat && s.frame.causes.isEmpty then
        s.landEntry t.d s.frame.fcnt.toNat (BitVec.ofNat 1024 value)
      else if c.xpkg then flies.send (.entry t.d due value) else flies) := by
  refine frame_slot_ok h ?_
  dsimp only
  rw [hat, State.channel_ok hc, Run.ok_bind, need_true (beq_iff_eq.2 hp), Run.ok_bind, need_true (decide_eq_true hlat), Run.ok_bind]
  exact (apply_ite pure _ _ _).symm

theorem execChPut_late (hc : tget s.frame.channels t.d = some c) (hp : c.prod = b) (hlat : due < s.frame.fcnt.toNat + c.lat) :
    execChPut t s = .next (s.benchFault b s.ctl.group cTimed 0 0) := by
  refine frame_slot_stop h ?_
  dsimp only
  rw [hat, State.channel_ok hc, Run.ok_bind, need_true (beq_iff_eq.2 hp), Run.ok_bind,
    need_false (decide_eq_false (Nat.not_le.2 hlat)), Run.stop_bind]

end put

/-! ### CH.GET, CH.RED and CH.STAT (R324, R341) -/

section take

variable {u : Bin} {t : Tri}

theorem execChGet_takes (h : s.SlotReady b sl 0x78 1 u.g u.d u.a 0) (hc : s.consumed b u.a = .ok c) (hl : c.landed = (at_, v) :: rest) :
    execChGet u s = retires ((s.setChannel u.a { c with landed := rest }).setBench b ((s.bench b).laterV 2 u.d 0 c.width v.toNat)) := by
  refine frame_slot_ok h ?_
  rw [hc, Run.ok_bind, Channel.oldest_cons hl]; rfl

theorem execChGet_empty (h : s.SlotReady b sl 0x78 1 u.g u.d u.a 0) (hc : s.consumed b u.a = .ok c) (hl : c.landed = []) :
    execChGet u s = .next (s.benchFault b s.ctl.group cChEmpty 0 u.a) := by
  refine frame_slot_stop h ?_
  rw [hc, Run.ok_bind, Channel.oldest_nil hl]; rfl

theorem execChRed_folds {f : Nat → Nat → Nat × Nat} (h : s.SlotReady b sl 0x78 2 t.g t.d t.a t.b) (hc : s.consumed b t.a = .ok c)
    (hf : chanOp c.ty t.b = some f) (hl : c.landed = (at_, v) :: rest) :
    let n := fmtWidth c.ty
    let r := yMap n (c.width / n) (fun i => f (lane n i ((s.bench b).rv t.d)) (lane n i v.toNat))
    execChRed t s = retires ((s.setChannel t.a { c with landed := rest }).setBench b
      (((s.bench b).laterV 3 t.d 0 c.width r.1).laterFlags 3 r.2)) := by
  refine frame_slot_ok h ?_
  simp only [hc, hf, Run.ok_bind, Channel.oldest_cons hl]
  rfl

theorem execChRed_format (h : s.SlotReady b sl 0x78 2 t.g t.d t.a t.b) (hc : s.consumed b t.a = .ok c) (hf : chanOp c.ty t.b = none) :
    execChRed t s = .next (s.benchFault b s.ctl.group cShapeFormat 0 0) := by
  refine frame_slot_stop h ?_
  simp only [hc, hf, Run.ok_bind]

theorem execChStat_counts (h : s.SlotReady b sl 0x78 3 u.g u.d u.a 0) (hc : s.consumed b u.a = .ok c) :
    execChStat u s = retires (s.sends b 1 (.a u.d
      (BitVec.ofNat 64 (c.lat * 2 ^ 16 + c.landed.countP (fun e => decide (e.1 < s.frame.fcnt.toNat)))))) := by
  refine frame_slot_ok h ?_
  rw [hc]; rfl

/-- A form of the consumer's side, of whatever effect, asks whether its bench has that side. -/
theorem frame_slot_role {maj x g d a bb : Nat} (h : s.SlotReady b sl maj x g d a bb) (hr : s.consumed b ch = stop cChRole 0 ch)
    {effect : Nat → SlotName → State → Channel → Run State} :
    frame maj x g d a bb (fun bn sl s => s.consumed bn ch >>= effect bn sl s) s = .next (s.benchFault b s.ctl.group cChRole 0 ch) :=
  frame_slot_stop h (by rw [hr, Run.stop_bind])

end take

/-! ### The operations of CH.RED (R341) -/

/-- Elements of an IEEE format are added, or compared, as numbers. -/
theorem chanOp_ieee {ty : Nat} {g : Fmt} (h : ieeeOf ty = some g) (op : Nat) : ∃ f, chanOp ty op = some f ∧ ∀ d e,
    f d e = if op = 0 then fadd g .rne 0 d e else if op = 1 then (fmax g d e, 0) else (fmin g d e, 0) := by
  rw [chanOp, h]
  exact ⟨_, rfl, fun d e => by rw [← apply_ite (fun w => (w, 0))]; rfl⟩

/-- Elements of a signed integer format are added modulo their width, or compared as signed values. -/
theorem chanOp_signed {ty n : Nat} (hty : 1 ≤ ty ∧ ty ≤ 3) (h : ieeeOf ty = none) (hn : fmtWidth ty = n) (op : Nat) :
    ∃ f, chanOp ty op = some f ∧ ∀ d e, f d e = (if op = 0 then (d + e) % 2 ^ n else
      if op = 1 then (if toI n d < toI n e then e else d) else (if toI n e < toI n d then e else d), 0) := by
  rw [chanOp, h, ← hn]
  exact ⟨_, if_pos hty, fun d e => rfl⟩

/-- Elements of no other format take part in a reduction. -/
theorem chanOp_none {ty : Nat} (h : ty ∉ [0x10, 0x11, 0x12, 1, 2, 3]) (op : Nat) : chanOp ty op = none := by
  simp only [List.mem_cons, List.not_mem_nil, or_false, not_or] at h
  obtain ⟨hf32, hf16, hbf16, h1, h2, h3⟩ := h
  have hi : ieeeOf ty = none := by
    unfold ieeeOf
    split
    · exact (hf32 rfl).elim
    · exact (hf16 rfl).elim
    · exact (hbf16 rfl).elim
    · rfl
  rw [chanOp, hi]
  exact if_neg (by omega)

/-- Settles O38: a form by whether its bench has the side of the channel that it names, then by what the channel holds. -/
theorem channelForms : Obligations.ChannelForms := by
  unfold Obligations.ChannelForms
  intro s b sl t u c at_ v rest f k now put due
  refine ⟨fun h hc hp => ⟨fun hlat hx hdue hcs => ?_, fun hlat hx hne => ?_, fun hlat hx => ?_, execChPut_late h rfl hc hp⟩,
    fun h hc hs => ⟨execChGet_takes h (State.consumed_ok hc hs), execChGet_empty h (State.consumed_ok hc hs)⟩,
    fun h hc hs => execChRed_folds h (State.consumed_ok hc hs),
    fun h hc hs hty => execChRed_format h (State.consumed_ok hc hs) (chanOp_none hty t.b), fun ty op g hty => ?_, fun ty op n hty => ?_,
    fun h hc hs => execChStat_counts h (State.consumed_ok hc hs), fun h hp => execChPut_role h hp,
    fun h hcl => frame_slot_role h (State.consumed_role hcl), fun h hcl => frame_slot_role h (State.consumed_role hcl),
    fun h hcl => frame_slot_role h (State.consumed_role hcl)⟩
  · have hnow : (!c.xpkg && due == s.frame.fcnt.toNat && s.frame.causes.isEmpty) = true := by simp [hx, hdue, hcs, now]
    refine (execChPut_sends h rfl hc hp hlat).trans (congrArg retires ?_)
    rw [if_pos hnow, State.landEntry_eq hc]; rfl
  · have hlater : ¬(!c.xpkg && due == s.frame.fcnt.toNat && s.frame.causes.isEmpty) = true := by
      rcases hne with hd | hcs
      · simp [hx, hd, now]
      · simp [hcs]
    refine (execChPut_sends h rfl hc hp hlat).trans (congrArg retires ?_)
    rw [if_neg hlater, hx]; rfl
  · refine (execChPut_sends h rfl hc hp hlat).trans (congrArg retires ?_)
    rw [hx]; rfl
  · simp only [List.mem_cons, List.not_mem_nil, or_false, Prod.mk.injEq] at hty
    rcases hty with ⟨rfl, rfl⟩ | ⟨rfl, rfl⟩ | ⟨rfl, rfl⟩
    all_goals exact chanOp_ieee rfl op
  · simp only [List.mem_cons, List.not_mem_nil, or_false, Prod.mk.injEq] at hty
    rcases hty with ⟨rfl, rfl⟩ | ⟨rfl, rfl⟩ | ⟨rfl, rfl⟩
    all_goals exact chanOp_signed (by decide) rfl rfl op

end Sys2Proof.Machine
end

section
/-! O43. The events of the frame plane's ticks: segments, releases, causes and holds, mortises, the start of a frame, link replays. -/

namespace Sys2Proof.Machine

variable {s : State} {b m : Nat} {l : FrameLaunch} {r : Mortise}

/-! ### Segments (R159) -/

/-- No launch waits for its segments: the one that runs holds them. -/
theorem State.segmentsHeld_of_not_pending (h : s.frame.pending = false) : s.segmentsHeld = s := by
  unfold State.segmentsHeld
  split
  · rfl
  · rw [h]; rfl

theorem execSegmentReady_runs (hdue : (s.bench b).halves.any (fun h => !h.2.ready && decide (h.2.readyAt ≤ s.ctl.now)) = true)
    (hp : s.frame.pending = false) : execSegmentReady b s = .next (s.setBench b { s.bench b with
      halves := (s.bench b).halves.map (fun h => (h.1, if h.2.readyAt ≤ s.ctl.now then { h.2 with ready := true } else h.2)) }) :=
  (if_pos hdue).trans (congrArg _ (State.segmentsHeld_of_not_pending hp))

/-! ### Causes and the slip log (R171, R172, R397) -/

section cause

variable (s) (code bench idx about held : Nat)

theorem State.addCause_slip : tget (s.addCause code bench idx about held).frame.slip (s.frame.next % 64) =
    some (s.frame.fcnt, slipWord code bench idx held) := tget_tset_self _ _ _

theorem slipWord_zero : slipWord code bench idx 0 = BitVec.ofNat 64 (code * 2 ^ 56 + bench * 2 ^ 47 + idx % 4096 * 2 ^ 32) := by
  rw [slipWord, Nat.zero_min, Nat.add_zero]

/-- The cause and HELD of a slip-log entry, at their bits of its word. -/
theorem slipWord_fields (hcode : code < 2 ^ 8) (hbench : bench < 2 ^ 9) : (slipWord code bench idx held).toNat / 2 ^ 56 = code ∧
    (slipWord code bench idx held).toNat % 2 ^ 32 = min held (2 ^ 32 - 1) := by
  rw [slipWord, BitVec.toNat_ofNat]
  omega

end cause

theorem execAnchorLate_due (h : s.anchorDue b = true) : execAnchorLate b s = .next (s.addCause 1 b (s.bench b).entry b 0) := if_pos h

/-- The remote hold that an FCNT meets first has a slip-log entry. -/
theorem execRemoteHold_first (h : s.remoteDue = true) (hr : s.frame.remoteSlot = none) :
    let port := ((tget s.host.notices s.frame.fcnt.toNat).map (·.2)).getD 0
    execRemoteHold s = .next ((s.addCause 6 256 port port s.demand).modFrame (fun f => { f with remoteSlot := some s.frame.next })) := by
  rw [execRemoteHold, if_pos h, hr]

/-- A further one at that FCNT counts in the same entry. -/
theorem execRemoteHold_again {i : Nat} (h : s.remoteDue = true) (hr : s.frame.remoteSlot = some i) :
    execRemoteHold s = .next (s.modFrame (fun f => { f with
      causes := f.causes ++ [⟨6, 256, i, ((tget s.host.notices s.frame.fcnt.toNat).map (·.2)).getD 0⟩] })) := by
  rw [execRemoteHold, if_pos h, hr]

/-! ### Holds (R170, R173) -/

theorem execHoldEnd_over (hh : s.frame.held ≠ 0) (hc : s.frame.causes.any s.remains = false) :
    execHoldEnd s = .next (s.modFrame (fun f => { f with held := 0, holdSlots := [], causes := [] })) :=
  if_neg (by simp [hh, hc])

theorem execHoldTimeout_long {c : Cause} {cs : List Cause} (hc : s.frame.causes = c :: cs) (hlong : s.frame.holdmax.toNat < s.holdTime) :
    execHoldTimeout s = .next (s.packageFault cHold c.idx c.code) := by
  rw [execHoldTimeout, hc]
  exact if_pos hlong

/-! ### Events that are posted in several contexts (R101, R179) -/

theorem mem_of_tget {α : Type} {t : Tbl α} {k : Nat} {v : α} (h : tget t k = some v) : (k, v) ∈ t := by
  induction t with
  | nil => cases h
  | cons e t ih =>
    obtain ⟨j, w⟩ := e
    rw [tget] at h
    split at h
    case isTrue hk => cases h; simp [hk]
    case isFalse => exact List.mem_cons_of_mem _ (ih h)

theorem mem_keysWhere {α : Type} {t : Tbl α} {p : Nat → α → Bool} {k : Nat} {v : α} (h : tget t k = some v) (hp : p k v = true) :
    k ∈ keysWhere t p :=
  List.mem_filterMap.2 ⟨(k, v), mem_of_tget h, if_pos hp⟩

/-- An event that is pending stays so when it is posted again. -/
theorem Ctx.event_event (x : Ctx) (bitNo : Nat) : (x.event bitNo).event bitNo = x.event bitNo := by
  simp [Ctx.event, BitVec.or_assoc]

/-- An event is posted in the contexts of a list, one after the other. -/
def State.postAll (s : State) (bitNo : Nat) (cs : List Nat) : State := cs.foldl (fun t c => t.modCtx c (·.event bitNo)) s

theorem State.postAll_keeps (s : State) (bitNo : Nat) (cs : List Nat) :
    (s.postAll bitNo cs).mem = s.mem ∧ (s.postAll bitNo cs).frame = s.frame := by
  induction cs generalizing s with
  | nil => exact ⟨rfl, rfl⟩
  | cons c cs ih => exact ih (s.modCtx c (·.event bitNo))

/-- Each context of the list has the event, once however often it is listed, and no other context changes. -/
theorem State.postAll_ctx (s : State) (bitNo : Nat) (cs : List Nat) (i : Nat) :
    (s.postAll bitNo cs).ctx i = if i ∈ cs then (s.ctx i).event bitNo else s.ctx i := by
  induction cs generalizing s with
  | nil => rfl
  | cons c cs ih =>
    refine (ih (s.modCtx c (·.event bitNo))).trans ?_
    by_cases hi : i = c
    · subst hi; simp [Ctx.event_event]
    · simp [State.ctx_modCtx_ne s _ hi, hi]

theorem State.postMrt_keeps (s : State) (asid : Nat) : (s.postMrt asid).mem = s.mem ∧ (s.postMrt asid).frame = s.frame :=
  s.postAll_keeps 10 _

/-- Every context of the address space has EVPEND.MRT. -/
theorem State.postMrt_evnew {asid i : Nat} {x : Ctx} (hx : s.ctx? i = some x) (ha : x.asid.toNat = asid) :
    ((s.postMrt asid).ctx i).evnew = x.evnew ||| 1024 := by
  have hpost := s.postAll_ctx 10 (keysWhere s.weave.ctxs (fun _ y => y.asid.toNat == asid)) i
  rw [if_pos (mem_keysWhere hx (beq_iff_eq.2 ha)), State.ctx_of_ctx? hx] at hpost
  exact congrArg Ctx.evnew hpost

/-! ### Mortises (R179 to R182) -/

theorem State.mortise?_of_launch (hl : s.frame.launch = some l) (hm : l.morts[m]? = some r) : s.mortise? m = some r := by
  simp [State.mortise?, hl, hm]

theorem execMortiseOpen_eq (hl : s.frame.launch = some l) (hm : l.morts[m]? = some r) : execMortiseOpen m s =
    .next ((s.modFrame (fun f => { f.clearWindow l m with openM := f.openM.filter (fun i => i != m) ++ [m] })).postMrt r.asid) := by
  rw [execMortiseOpen, hl, State.mortise?_of_launch hl hm]

theorem Frame.clearWindow_staged (f : Frame) (l : FrameLaunch) (m : Nat) : ∀ w, w ∈ (f.clearWindow l m).staged → w.1 ≠ m :=
  fun _ hw => by simpa using (List.mem_filter.1 hw).2

/-- The close of an open mortise ends its window and settles its latch. -/
theorem State.closeMortise_eq (hl : s.frame.launch = some l) (hm : l.morts[m]? = some r) (ho : m ∈ s.frame.openM) :
    s.closeMortise m = .next (s.modFrame (fun f => { f.clearWindow l m with
      openM := f.openM.filter (fun i => i != m), latches := f.latches ++ [s.latchOf l m r] })) := by
  have hopen : ¬(!s.frame.openM.contains m) = true := by simp [ho]
  rw [State.closeMortise, hl, State.mortise?_of_launch hl hm]
  exact if_neg hopen

theorem State.closeMortise_closes (hl : s.frame.launch = some l) (hm : l.morts[m]? = some r) (ho : m ∈ s.frame.openM) :
    ∃ t, s.closeMortise m = .next t ∧ m ∉ t.frame.openM ∧ (∀ w, w ∈ t.frame.staged → w.1 ≠ m) ∧ t.mem = s.mem ∧
      t.frame.benches = s.frame.benches ∧ t.frame.latches = s.frame.latches ++ [s.latchOf l m r] :=
  ⟨_, State.closeMortise_eq hl hm ho, by simp, s.frame.clearWindow_staged l m, rfl, rfl, rfl⟩

theorem State.lacksTenon_eq (hl : s.frame.launch = some l) (hm : l.morts[m]? = some r) : s.lacksTenon m = (r.hold && !s.allPosted m) := by
  rw [State.lacksTenon, State.mortise?_of_launch hl hm]; rfl

theorem execMortiseClose_closes (hl : s.frame.launch = some l) (hm : l.morts[m]? = some r) (h : r.hold = false ∨ s.allPosted m = true) :
    execMortiseClose m s = s.closeMortise m :=
  if_neg (by rw [State.lacksTenon_eq hl hm]; rcases h with h | h <;> simp [h])

/-- A mortise under HOLD that lacks a tenon is a cause, and its window stays open. -/
theorem execMortiseClose_holds (hl : s.frame.launch = some l) (hm : l.morts[m]? = some r) (ho : m ∈ s.frame.openM)
    (hh : r.hold = true) (hp : s.allPosted m = false) : execMortiseClose m s = .next (s.addCause 4 256 m m 0) :=
  if_pos (by rw [State.lacksTenon_eq hl hm]; simp [ho, hh, hp])

theorem execHoldLatch_posted (ht : m ∈ s.frame.tenonHeld) (hp : s.allPosted m = true) : execHoldLatch m s = s.closeMortise m :=
  if_pos ⟨List.contains_iff_mem.2 ht, hp⟩

/-! ### Link replays (R392) -/

theorem execLinkReplay_new {e : Nat × Nat} (h : e ∉ s.frame.lateLinks) :
    execLinkReplay e s = .next (s.modFrame (fun f => { f with lateLinks := f.lateLinks ++ [e] })) := by
  simp [execLinkReplay, State.modFrame, h]

theorem execLinkReplay_known {e : Nat × Nat} (h : e ∈ s.frame.lateLinks) : execLinkReplay e s = .next s := by
  simp [execLinkReplay, State.modFrame, h]

/-- Settles O43: each event by what it answers where its subject is there, then by the parts of that state. -/
theorem frameTickEvents : Obligations.FrameTickEvents := by
  unfold Obligations.FrameTickEvents
  intro s b e m ch due l r c cs F
  refine ⟨fun hdue hp _ => execSegmentReady_runs hdue hp, fun h => if_pos h, fun h => ?_, fun h hr => ?_, fun i h hr => execRemoteHold_again h hr,
    execHoldEnd_over, execHoldTimeout_long, fun hl hm => ?_, fun hl hm ho => ⟨fun h => ?_, fun hh hp => ?_, fun ht hp => ?_⟩, rfl,
    execLinkReplay_new, execLinkReplay_known⟩
  · refine ⟨_, execAnchorLate_due h, ?_, rfl, rfl, rfl, rfl, rfl⟩
    rw [State.addCause_slip, slipWord_zero, Nat.one_mul]
  · let port := ((tget s.host.notices s.frame.fcnt.toNat).map (·.2)).getD 0
    have hslip := State.addCause_slip s 6 256 port port s.demand
    obtain ⟨hcause, hheld⟩ := slipWord_fields 6 256 port s.demand (by decide) (by decide)
    exact ⟨_, execRemoteHold_first h hr, List.length_append, rfl, rfl, rfl, _, hslip, hcause, hheld⟩
  · obtain ⟨hmem, hframe⟩ := State.postMrt_keeps
      (s.modFrame (fun f => { f.clearWindow l m with openM := f.openM.filter (fun i => i != m) ++ [m] })) r.asid
    refine ⟨_, execMortiseOpen_eq hl hm, ?_, ?_, hmem, ?_, fun i x hx ha => State.postMrt_evnew hx ha⟩
    · rw [hframe]; simp
    · rw [hframe]; exact s.frame.clearWindow_staged l m
    · rw [hframe]; rfl
  · obtain ⟨t, ht, hclosed⟩ := State.closeMortise_closes hl hm ho
    exact ⟨t, (execMortiseClose_closes hl hm h).trans ht, hclosed⟩
  · refine ⟨_, execMortiseClose_holds hl hm ho hh hp, ho, rfl, rfl, rfl, rfl, rfl, rfl, rfl, ?_⟩
    rw [State.addCause_slip, slipWord_zero]
  · obtain ⟨t, hc, hclosed⟩ := State.closeMortise_closes hl hm ho
    exact ⟨t, (execHoldLatch_posted ht hp).trans hc, hclosed⟩

end Sys2Proof.Machine
end

section
/-! O59. What reset leaves: the device registers, and reads of them while boot hold lasts. -/

namespace Sys2Proof.Machine

@[simp] theorem Queue.regValue_zero (reg : Nat) : Queue.zero.regValue reg = 0 := by
  unfold Queue.regValue
  split <;> rfl

/-- Bytes that nothing has written form the number 0. -/
@[simp] theorem leNat_readBytes_nil (a n : Nat) : leNat (Memory.readBytes [] a n) = 0 := by
  induction n generalizing a with
  | zero => rfl
  | succ n ih => simp [Memory.readBytes, leNat, ih, Memory.read, Memory.blank]

@[simp] theorem Frame.slipLog_reset : Frame.reset.slipLog = 0 := rfl

@[simp] theorem State.queue_reset (q : Nat) : State.reset.queue q = Queue.zero := rfl

@[simp] theorem State.evctr_reset (n : Nat) : State.reset.evctr n = 0 := rfl

@[simp] theorem State.sdstat_reset (d : Nat) : State.reset.sdstat d = 0 := by simp [State.sdstat, State.reset, Eng.reset]

theorem State.bootHold_reset : State.reset.bootHold = true := by decide

/-- After reset every device register but the power cap and the frame-clock request holds 0 (R416): each in its place of the map. -/
theorem State.devReg_reset {off : Nat} (hcap : off ≠ 0x08) (hclk : off ≠ 0x10) : State.reset.devReg off = 0 := by
  have hhost : State.reset.host = Hst.reset := rfl
  have heng : State.reset.eng = Eng.reset := rfl
  have hframe : State.reset.frame = Frame.reset := rfl
  have hslip : Frame.reset.slip = [] := rfl
  simp [State.devReg, hcap, hclk, hhost, heng, hframe, hslip, Hst.reset, Eng.reset]

/-- While boot hold lasts, only BOOTSTAT and the lifetime records answer a read (R417). -/
theorem State.devRead_bootHold {s : State} (h : s.bootHold = true) {off : Nat} (h0 : off ≠ 0) (hlife : off < 0x30000) (size : Nat) :
    s.devRead off size = 0 := by
  have hnot : ¬(0x30000 ≤ off ∧ off < 0x40000) := fun hl => Nat.not_le.2 hlife hl.1
  simp [State.devRead, h, h0, hnot]

/-- Settles O59: the registers as reset sets them, the map of the device registers and the reads of boot hold by the lemmas above. -/
theorem resetState : Obligations.ResetState := by
  unfold Obligations.ResetState
  intro s
  have hregs : ∀ off, off ≠ 0x08 → off ≠ 0x10 → s.devReg off = 0 := fun _ => State.devReg_reset
  have hreads : ∀ off size, off ≠ 0 → off < 0x30000 → s.devRead off size = 0 :=
    fun _ size h0 hlife => State.devRead_bootHold State.bootHold_reset h0 hlife size
  have hshoot (d : Nat) : tgetD s.eng.sdva d 0 = 0 ∧ s.sdstat d = 0 ∧ tgetD s.eng.sdq d [] = [] := ⟨rfl, State.sdstat_reset d, rfl⟩
  exact ⟨rfl, rfl, rfl, rfl, rfl, rfl, rfl, rfl, rfl, State.queue_reset, hshoot, fun _ => rfl, rfl, rfl, fun _ => rfl, fun _ _ => rfl,
    hregs, hreads, rfl, rfl, rfl, rfl, rfl, rfl, rfl, rfl, rfl, fun _ => rfl, fun _ => rfl, rfl, State.evctr_reset, fun _ => rfl,
    fun _ => rfl, ⟨rfl, rfl⟩, rfl, rfl⟩

end Sys2Proof.Machine
end

section
/-! O22. The typed floating forms of v registers: one row for each form of a type, and what a form of each shape leaves on its way. -/

namespace Sys2Proof.Machine

variable {s : State} {b maj x lat n : Nat} {sl : SlotName}

/-! ### What a form of v registers leaves on its way (R185, R188) -/

/-- The bench with a result of `n` bits from bit `lo` of v register `d` and with the result's flags, both to land after `lat` ticks. -/
def Bench.landsV (k : Bench) (lat d lo n : Nat) (r : Nat × Nat) : Bench := (k.laterV lat d lo n r.1).laterFlags lat r.2

/-- A form that writes the slot's width by elements, with `v` a reading of its element function at the bench's state. -/
theorem vForm_lands {g d a bb : Nat} {f : Bench → Nat → Nat × Nat} {v : Nat → Nat × Nat} (h : s.SlotReady b sl maj x g d a bb)
    (e : ∀ j, f (s.bench b) j = v j) : vForm maj x lat n g d a bb f s =
      retires (s.setBench b ((s.bench b).landsV lat d 0 ((s.bench b).width sl) (yMap n ((s.bench b).width sl / n) v))) := by
  rw [← (funext e : f (s.bench b) = v)]
  exact frame_slot_ok h rfl

/-- Every lane of `n` bits is an `n`-bit number. -/
theorem lane_lt (n i w : Nat) : lane n i w < 2 ^ n := Nat.mod_lt _ (Nat.two_pow_pos n)

/-- Instruction `i` is the form of two sources of a major and minor: the value `v` of the elements of A, B and D, after `lat` ticks. -/
def VTriRow (i : Tri → Instr) (maj x lat n : Nat) (v : Nat → Nat → Nat → Nat × Nat) : Prop := ∀ t, exec (i t) = vTri maj x lat n v t

/-- Instruction `i` is the form of one source of a major and minor: the value `v` of the elements of A, after `lat` ticks. -/
def VBinRow (i : Bin → Instr) (maj x lat n : Nat) (v : Nat → Nat × Nat) : Prop := ∀ t, exec (i t) = vBin maj x lat n v t

/-- What the form lands may be read by any `w` that agrees with its row on `n`-bit numbers. -/
theorem VTriRow.lands_of {i : Tri → Instr} {v w : Nat → Nat → Nat → Nat × Nat} (r : VTriRow i maj x lat n v)
    (e : ∀ p q o, p < 2 ^ n → q < 2 ^ n → v p q o = w p q o) {t : Tri} (h : s.SlotReady b sl maj x t.g t.d t.a t.b) :
    exec (i t) s = retires (s.setBench b ((s.bench b).landsV lat t.d 0 ((s.bench b).width sl) (yMap n ((s.bench b).width sl / n)
      (fun j => w (lane n j ((s.bench b).rv t.a)) (lane n j ((s.bench b).rv t.b)) (lane n j ((s.bench b).rv t.d)))))) :=
  (congrFun (r t) s).trans (vForm_lands h fun j => e _ _ _ (lane_lt n j _) (lane_lt n j _))

theorem VTriRow.lands {i : Tri → Instr} {v : Nat → Nat → Nat → Nat × Nat} (r : VTriRow i maj x lat n v) {t : Tri}
    (h : s.SlotReady b sl maj x t.g t.d t.a t.b) :
    exec (i t) s = retires (s.setBench b ((s.bench b).landsV lat t.d 0 ((s.bench b).width sl) (yMap n ((s.bench b).width sl / n)
      (fun j => v (lane n j ((s.bench b).rv t.a)) (lane n j ((s.bench b).rv t.b)) (lane n j ((s.bench b).rv t.d)))))) :=
  r.lands_of (fun _ _ _ _ _ => rfl) h

theorem VBinRow.lands_of {i : Bin → Instr} {v w : Nat → Nat × Nat} (r : VBinRow i maj x lat n v) (e : ∀ p, p < 2 ^ n → v p = w p)
    {u : Bin} (h : s.SlotReady b sl maj x u.g u.d u.a 0) :
    exec (i u) s = retires (s.setBench b ((s.bench b).landsV lat u.d 0 ((s.bench b).width sl) (yMap n ((s.bench b).width sl / n)
      (fun j => w (lane n j ((s.bench b).rv u.a)))))) :=
  (congrFun (r u) s).trans (vForm_lands h fun j => e _ (lane_lt n j _))

theorem VBinRow.lands {i : Bin → Instr} {v : Nat → Nat × Nat} (r : VBinRow i maj x lat n v) {u : Bin}
    (h : s.SlotReady b sl maj x u.g u.d u.a 0) :
    exec (i u) s = retires (s.setBench b ((s.bench b).landsV lat u.d 0 ((s.bench b).width sl) (yMap n ((s.bench b).width sl / n)
      (fun j => v (lane n j ((s.bench b).rv u.a)))))) :=
  r.lands_of (fun _ _ => rfl) h

/-! ### The forms of a floating type (R189, R190) -/

theorem fabsV_eq (f : Fmt) (v : Nat) : fabsV f v = if f.value v = .nan then f.nanCode else v % f.signBit := by
  unfold fabsV
  cases f.value v <;> rfl

theorem fnegV_eq (f : Fmt) (v : Nat) : fnegV f v = if f.value v = .nan then f.nanCode else (v + f.signBit) % (2 * f.signBit) := by
  unfold fnegV
  cases f.value v <;> rfl

/-- The eight forms of a floating type, in a major and the next one. -/
structure FloatForms (maj n : Nat) (f : Fmt) (add sub mul fma min max : Tri → Instr) (abs neg : Bin → Instr) : Prop where
  add : VTriRow add maj 0 3 n (fun p q _ => fadd f .rne 0 p q)
  sub : VTriRow sub maj 1 3 n (fun p q _ => fsub f .rne 0 p q)
  mul : VTriRow mul maj 2 4 n (fun p q _ => fmul f .rne 0 p q)
  fma : VTriRow fma maj 3 4 n (fun p q o => ffma f .rne 0 p q o)
  min : VTriRow min (maj + 1) 0 1 n (fun p q _ => clean (fmin f p q))
  max : VTriRow max (maj + 1) 1 1 n (fun p q _ => clean (fmax f p q))
  abs : VBinRow abs (maj + 1) 2 1 n (fun p => clean (fabsV f p))
  neg : VBinRow neg (maj + 1) 3 1 n (fun p => clean (fnegV f p))

theorem floatForms_f32 : FloatForms 0x50 32 f32 .vaddF32 .vsubF32 .vmulF32 .vfmaF32 .vminF32 .vmaxF32 .vabsF32 .vnegF32 :=
  ⟨fun _ => rfl, fun _ => rfl, fun _ => rfl, fun _ => rfl, fun _ => rfl, fun _ => rfl, fun _ => rfl, fun _ => rfl⟩

theorem floatForms_bf16 : FloatForms 0x52 16 bf16 .vaddBf16 .vsubBf16 .vmulBf16 .vfmaBf16 .vminBf16 .vmaxBf16 .vabsBf16 .vnegBf16 :=
  ⟨fun _ => rfl, fun _ => rfl, fun _ => rfl, fun _ => rfl, fun _ => rfl, fun _ => rfl, fun _ => rfl, fun _ => rfl⟩

theorem floatForms_f16 : FloatForms 0x54 16 f16 .vaddF16 .vsubF16 .vmulF16 .vfmaF16 .vminF16 .vmaxF16 .vabsF16 .vnegF16 :=
  ⟨fun _ => rfl, fun _ => rfl, fun _ => rfl, fun _ => rfl, fun _ => rfl, fun _ => rfl, fun _ => rfl, fun _ => rfl⟩

/-- Settles O22: the rows of each type's eight forms, and what a row's form leaves on its way. -/
theorem frameVectorFloat : Obligations.FrameVectorFloat := by
  unfold Obligations.FrameVectorFloat
  intro s b sl t u k W lands A B D U tri one absV negV typed
  have typed_of {maj n f add sub mul fma min max ab ng} (r : FloatForms maj n f add sub mul fma min max ab ng) :
      typed maj n f add sub mul fma min max ab ng :=
    ⟨r.add.lands, r.sub.lands, r.mul.lands, r.fma.lands, r.min.lands, r.max.lands,
      r.abs.lands_of fun p _ => congrArg clean (fabsV_eq f p), r.neg.lands_of fun p _ => congrArg clean (fnegV_eq f p)⟩
  exact ⟨typed_of floatForms_f32, typed_of floatForms_bf16, typed_of floatForms_f16⟩

end Sys2Proof.Machine
end

section
/-! O23. The typed integer forms of v registers, in the words of R191. -/

namespace Sys2Proof.Machine

variable {n p q : Nat}

/-! ### Values of `n`-bit elements -/

theorem subW_eq (p : Nat) (hq : q < 2 ^ n) : subW n p q = (p + (2 ^ n - q)) % 2 ^ n := by
  rw [subW, Nat.mod_eq_of_lt hq, Nat.add_sub_assoc (Nat.le_of_lt hq)]

theorem addW_mulW_eq (n o p q : Nat) : addW n o (mulW n p q) = (o + p * q) % 2 ^ n := Nat.add_mod_mod _ _ _

theorem minI_eq (n p q : Nat) : minI n p q = if toI n p ≤ toI n q then p else q := by
  simp only [minI, ← Int.not_le, ite_not]

/-- The upper half of the `n`-bit numbers are the negative ones. -/
theorem toI_eq (hn : 0 < n) (hp : p < 2 ^ n) : toI n p = if p < 2 ^ (n - 1) then (p : Int) else p - (2 ^ n : Nat) := by
  have hhalf := Nat.two_pow_pred_add_two_pow_pred hn
  have hiff : 2 * p < 2 ^ n ↔ p < 2 ^ (n - 1) := by omega
  rw [toI, BitVec.toInt_eq_toNat_cond, BitVec.toNat_ofNat, Nat.mod_eq_of_lt hp]
  simp only [hiff]

theorem toI_emod (n p : Nat) : (toI n p) % (2 ^ n : Nat) = (p : Int) % (2 ^ n : Nat) := by
  rw [toI, BitVec.toInt_eq_toNat_bmod, BitVec.toNat_ofNat, Int.bmod_emod, Int.natCast_emod, Int.emod_emod]

theorem ofI_natCast (n p : Nat) : ofI n p = p % 2 ^ n := by
  rw [ofI, ← Int.natCast_emod, Int.toNat_natCast]

/-- A number's negative is its complement to `2 ^ n`. -/
theorem ofI_neg_toI (hp : p < 2 ^ n) : ofI n (-toI n p) = (2 ^ n - p) % 2 ^ n := by
  have hcompl : (-toI n p) % (2 ^ n : Nat) = ((2 ^ n - p : Nat) : Int) % (2 ^ n : Nat) := by
    rw [Int.natCast_sub (Nat.le_of_lt hp), ← Int.zero_sub, Int.sub_emod 0, toI_emod, Int.sub_emod (2 ^ n : Nat), Int.emod_self,
      Int.zero_emod]
  rw [ofI, hcompl]
  exact ofI_natCast n _

/-! ### Saturation (R34) -/

/-- A number of the type's range stands as it is. -/
theorem satI_of_range {v : Int} (hlo : -(2 ^ (n - 1) : Nat) ≤ v) (hhi : v < (2 ^ (n - 1) : Nat)) : satI n v = (ofI n v, 0) := by
  rw [satI, clampSat, if_neg (Int.not_lt.2 hlo), if_neg (Int.not_lt.2 (Int.le_sub_one_of_lt hhi))]

/-- The negative of the most negative number is clamped. -/
theorem satI_half (hn : 0 < n) : satI n (2 ^ (n - 1) : Nat) = (2 ^ (n - 1) - 1, SAT) := by
  have hhalf := Nat.two_pow_pred_add_two_pow_pred hn
  have hpos := Nat.two_pow_pos (n - 1)
  have hmax : ((2 ^ (n - 1) : Nat) : Int) - 1 = (2 ^ (n - 1) - 1 : Nat) := by omega
  rw [satI, clampSat, if_neg (by omega), if_pos (by omega), hmax, ofI_natCast, Nat.mod_eq_of_lt (by omega)]

theorem satI_neg_toI (hn : 0 < n) (hp : p < 2 ^ n) :
    satI n (-toI n p) = if p = 2 ^ (n - 1) then (2 ^ (n - 1) - 1, SAT) else ((2 ^ n - p) % 2 ^ n, 0) := by
  have hhalf := Nat.two_pow_pred_add_two_pow_pred hn
  have htoI := toI_eq hn hp
  split
  case isTrue h =>
    rw [if_neg (Nat.not_lt.2 (Nat.le_of_eq h.symm))] at htoI
    have hneg : -toI n p = (2 ^ (n - 1) : Nat) := by omega
    rw [hneg, satI_half hn]
  case isFalse h =>
    have hrange : -(2 ^ (n - 1) : Nat) ≤ -toI n p ∧ -toI n p < (2 ^ (n - 1) : Nat) := by split at htoI <;> omega
    rw [satI_of_range hrange.1 hrange.2, ofI_neg_toI hp]

theorem satI_natAbs_toI (hn : 0 < n) (hp : p < 2 ^ n) :
    satI n (toI n p).natAbs = if p < 2 ^ (n - 1) then (p, 0) else satI n (-toI n p) := by
  have hhalf := Nat.two_pow_pred_add_two_pow_pred hn
  have htoI := toI_eq hn hp
  split
  case isTrue h =>
    rw [if_pos h] at htoI
    rw [htoI, Int.natAbs_natCast, satI_of_range (by omega) (by omega), ofI_natCast, Nat.mod_eq_of_lt hp]
  case isFalse h =>
    rw [if_neg h] at htoI
    rw [Int.ofNat_natAbs_of_nonpos (by omega)]

/-! ### The forms of an integer type -/

/-- The eight forms of an integer type, in a major and the next one. -/
structure IntForms (maj n : Nat) (add sub mul mac min max : Tri → Instr) (abs neg : Bin → Instr) : Prop where
  add : VTriRow add maj 0 1 n (fun p q _ => clean (addW n p q))
  sub : VTriRow sub maj 1 1 n (fun p q _ => clean (subW n p q))
  mul : VTriRow mul maj 2 3 n (fun p q _ => clean (mulW n p q))
  mac : VTriRow mac maj 3 3 n (fun p q o => clean (addW n o (mulW n p q)))
  min : VTriRow min (maj + 1) 0 1 n (fun p q _ => clean (minI n p q))
  max : VTriRow max (maj + 1) 1 1 n (fun p q _ => clean (maxI n p q))
  abs : VBinRow abs (maj + 1) 2 1 n (fun p => satI n (toI n p).natAbs)
  neg : VBinRow neg (maj + 1) 3 1 n (fun p => satI n (-toI n p))

theorem intForms_i32 : IntForms 0x56 32 .vaddI32 .vsubI32 .vmulI32 .vmacI32 .vminI32 .vmaxI32 .vabsI32 .vnegI32 :=
  ⟨fun _ => rfl, fun _ => rfl, fun _ => rfl, fun _ => rfl, fun _ => rfl, fun _ => rfl, fun _ => rfl, fun _ => rfl⟩

theorem intForms_i16 : IntForms 0x58 16 .vaddI16 .vsubI16 .vmulI16 .vmacI16 .vminI16 .vmaxI16 .vabsI16 .vnegI16 :=
  ⟨fun _ => rfl, fun _ => rfl, fun _ => rfl, fun _ => rfl, fun _ => rfl, fun _ => rfl, fun _ => rfl, fun _ => rfl⟩

theorem intForms_i8 : IntForms 0x5A 8 .vaddI8 .vsubI8 .vmulI8 .vmacI8 .vminI8 .vmaxI8 .vabsI8 .vnegI8 :=
  ⟨fun _ => rfl, fun _ => rfl, fun _ => rfl, fun _ => rfl, fun _ => rfl, fun _ => rfl, fun _ => rfl, fun _ => rfl⟩

/-- Settles O23: the rows of each type's eight forms, by the values that they give `n`-bit elements. -/
theorem frameVectorInteger : Obligations.FrameVectorInteger := by
  unfold Obligations.FrameVectorInteger
  intro s b sl t u k W lands A B D U tri one negV absV typed
  have abs_eq {n p : Nat} (hn : 0 < n) (hp : p < 2 ^ n) : satI n (toI n p).natAbs = absV n p :=
    (satI_natAbs_toI hn hp).trans (congrArg (ite _ _) (satI_neg_toI hn hp))
  have typed_of {maj n add sub mul mac min max ab ng} (hn : 0 < n) (r : IntForms maj n add sub mul mac min max ab ng) :
      typed maj n add sub mul mac min max ab ng :=
    ⟨r.add.lands, r.sub.lands_of fun p q _ _ hq => congrArg clean (subW_eq p hq), r.mul.lands,
      r.mac.lands_of fun p q o _ _ => congrArg clean (addW_mulW_eq n o p q),
      r.min.lands_of fun p q _ _ _ => congrArg clean (minI_eq n p q), r.max.lands,
      r.abs.lands_of fun _ hp => abs_eq hn hp, r.neg.lands_of fun _ hp => satI_neg_toI hn hp⟩
  exact ⟨typed_of (by decide) intForms_i32, typed_of (by decide) intForms_i16, typed_of (by decide) intForms_i8⟩

end Sys2Proof.Machine
end

section
/-! O24. Conversions, quantising forms and special functions of v registers. A form of a fixed mode rounds by RNE, under which the bench's
draw counter stays by definition. -/

namespace Sys2Proof.Machine

variable {s : State} {b x : Nat} {sl : SlotName}

/-! ### Results without flags (R56) -/

theorem Bench.laterFlags_zero (k : Bench) (lat : Nat) : k.laterFlags lat 0 = k := if_pos rfl

theorem orFlags_clean {l : List (Nat × Nat)} (h : ∀ r ∈ l, r.2 = 0) : orFlags l = 0 := by
  induction l with
  | nil => rfl
  | cons r l ih =>
    have hr : 0 ||| r.2 = 0 := by rw [h r List.mem_cons_self, Nat.or_zero]
    rw [orFlags, List.foldl_cons, hr]
    exact ih fun q hq => h q (List.mem_cons_of_mem r hq)

/-- Elements without a flag have none together (R56). -/
theorem yMap_clean (n k : Nat) (v : Nat → Nat) : (yMap n k (fun i => clean (v i))).2 = 0 := by
  refine orFlags_clean fun r hr => ?_
  obtain ⟨i, -, rfl⟩ := List.mem_map.1 hr
  rfl

/-- A result without a flag lands alone. -/
theorem Bench.landsV_clean (k : Bench) (lat d lo n : Nat) {r : Nat × Nat} (h : r.2 = 0) :
    k.landsV lat d lo n r = k.laterV lat d lo n r.1 := by rw [Bench.landsV, h, Bench.laterFlags_zero]

/-! ### Conversions (R192, R193) -/

theorem vWiden_lands {f : Fmt} {t : BinH7} (h : s.SlotReady b sl 0x5C x t.g t.d t.a (32 * t.h)) :
    let k := s.bench b
    let W := k.width sl
    vWiden x f t s = retires (s.setBench b (k.landsV 3 t.d 0 W (yMap 32 (W / 32) (fun i =>
      clean (f32.ofValue .rne 0 (f.value (lane 16 (t.h * (W / 32) + i) (k.rv t.a)))).1)))) := by
  intro k W
  rw [Bench.landsV_clean _ _ _ _ _ (yMap_clean _ _ _)]
  exact frame_slot_ok h rfl

theorem vNarrow_lands {maj src g d a hf r : Nat} {conv : Rm → Nat → Nat → Nat × Nat}
    (h : s.SlotReady b sl maj x g d a (32 * hf + r)) :
    let k := s.bench b
    let W := k.width sl
    let rm := Rm.ofCode r
    vNarrow maj x src g d a hf r conv s = retires (s.setBench b ((k.landsV 3 d (hf * (W / 2)) (W / 2)
      (yMap (src / 2) (W / src) (fun i => conv rm (k.drawAt s.frameSeed rm i) (lane src i (k.rv a))))).drew rm)) :=
  frame_slot_ok h rfl

theorem vSame_lands {conv : Rm → Nat → Nat → Nat × Nat} {t : CvtR} (h : s.SlotReady b sl 0x5D x t.g t.d t.a t.r) :
    let k := s.bench b
    let W := k.width sl
    let rm := Rm.ofCode t.r
    vSame x conv t s = retires (s.setBench b ((k.landsV 3 t.d 0 W
      (yMap 32 (W / 32) (fun i => conv rm (k.drawAt s.frameSeed rm i) (lane 32 i (k.rv t.a))))).drew rm)) :=
  frame_slot_ok h rfl

section conversions

variable (s) (t : BinH7) (h : CvtHR) (r : CvtR)

theorem exec_vcvtF32Bf16 : exec (.vcvtF32Bf16 t) s = vWiden 0 bf16 t s := rfl
theorem exec_vcvtF32F16 : exec (.vcvtF32F16 t) s = vWiden 1 f16 t s := rfl
theorem exec_vcvtBf16F32 : exec (.vcvtBf16F32 h) s =
    vNarrow 0x5C 2 32 h.g h.d h.a h.h h.r (fun rm u v => bf16.ofValue rm u (f32.value v)) s := rfl
theorem exec_vcvtF16F32 : exec (.vcvtF16F32 h) s =
    vNarrow 0x5C 3 32 h.g h.d h.a h.h h.r (fun rm u v => f16.ofValue rm u (f32.value v)) s := rfl
theorem exec_vcvtF32I32 : exec (.vcvtF32I32 r) s = vSame 0 (fun rm u v => f32.ofValue rm u (Fv.ofInt (toI 32 v))) r s := rfl
theorem exec_vcvtI32F32 : exec (.vcvtI32F32 r) s = vSame 1 (fun rm u v =>
    let n := toIntRange rm u (-2147483648) 2147483647 (f32.value v)
    (ofI 32 n.1, n.2)) r s := rfl
theorem exec_vcvtI16I32 : exec (.vcvtI16I32 t) s = vNarrow 0x5D 2 32 t.g t.d t.a t.h 0 (fun _ _ v => satI 16 (toI 32 v)) s := rfl
theorem exec_vcvtI8I16 : exec (.vcvtI8I16 t) s = vNarrow 0x5D 3 16 t.g t.d t.a t.h 0 (fun _ _ v => satI 8 (toI 16 v)) s := rfl

end conversions

/-! ### Descriptors (R194) -/

theorem bitOf_eq_false_iff (w n : Nat) : bitOf w n = false ↔ fld w n 1 = 0 := by
  have hbit : fld w n 1 < 2 := Nat.mod_lt _ (by decide)
  rw [bitOf, beq_eq_false_iff_ne]
  omega

theorem illegal_or_ok_iff {α : Type} (bad : Bool) (u v : α) :
    (if bad then illegal else (.ok u : Run α)) = .ok v ↔ bad = false ∧ v = u := by
  cases bad
  case false => exact ⟨fun e => ⟨rfl, (Except.ok.inj e).symm⟩, fun e => congrArg Except.ok e.2.symm⟩
  case true => exact ⟨fun e => (nomatch (e : Except.error _ = _)), fun e => Bool.noConfusion e.1⟩

/-- What makes a descriptor legal, and the fields of a legal one. -/
theorem State.qdesc_ok_iff (s : State) (v : Nat) (comp : Bool) (q : QDesc) : s.qdesc v comp = .ok q ↔
    (fld v 13 51 = 0 ∧ fld v 6 2 = 0 ∧ fld v 3 1 = 0 ∧ fld v 0 3 ≤ 4 ∧ (fld v 12 1 = 0 ∨ comp = true) ∧
      (fld v 8 4 = 0 ∨ tblValid (s.compander (fld v 8 4)) = true)) ∧ q = ⟨fld v 12 1 == 1, fld v 8 4, fld v 4 2, fld v 0 3⟩ := by
  rw [State.qdesc, illegal_or_ok_iff]
  refine and_congr ?_ Iff.rfl
  simp only [Bool.or_eq_false_iff, Bool.and_eq_false_iff, bne_eq_false_iff_eq, Bool.not_eq_false', bitOf_eq_false_iff,
    decide_eq_false_iff_not, Nat.not_lt, and_assoc]

/-! ### Quantising forms (R195 to R199) -/

theorem scaleIn_eq (geo d i : Nat) : scaleIn geo d i = if geo = 3 then 127 else lane 8 (i / (16 * 2 ^ geo)) d := by
  unfold scaleIn blockOf
  split <;> rfl

section quantising

variable {t : Tri} {q : QDesc} {f : Nat}

theorem execVqnt_lands (hq : s.qdesc ((s.bench b).ra t.b).toNat false = .ok q) (hf : selFmt (s.bench b).fmtsel.toNat = .ok f)
    (h : s.SlotReady b sl 0x5E 0 t.g t.d t.a t.b) :
    let k := s.bench b
    let W := k.width sl
    let rm := Rm.ofCode q.rm
    execVqnt t s = retires (s.setBench b ((k.landsV 6 t.d 0 W (yMap (fmtWidth f) (W / 32) (fun i =>
      quantise (s.compander q.tbl) q.tbl f (if q.geo = 3 then 127 else lane 8 (i / (16 * 2 ^ q.geo)) (k.rv t.d)) rm
        (k.drawAt s.frameSeed rm i) (f32.value (lane 32 i (k.rv t.a)))))).drew rm)) := by
  simp only [← scaleIn_eq]
  refine frame_slot_ok h ?_
  simp only [hq, hf, Run.ok_bind]
  rfl

theorem execVdq_lands (hq : s.qdesc ((s.bench b).ra t.b).toNat false = .ok q) (hf : selFmt (s.bench b).fmtsel.toNat = .ok f)
    (h : s.SlotReady b sl 0x5E 1 t.g t.d t.a t.b) :
    let k := s.bench b
    let W := k.width sl
    execVdq t s = retires (s.setBench b (k.landsV 6 t.d 0 W (yMap 32 (W / 32) (fun i =>
      dequant (s.compander q.tbl) q.tbl f (if q.geo = 3 then 127 else lane 8 (i / (16 * 2 ^ q.geo)) (k.rv t.d))
        (lane (fmtWidth f) i (k.rv t.a)))))) := by
  simp only [← scaleIn_eq]
  refine frame_slot_ok h ?_
  simp only [hq, hf, Run.ok_bind]
  rfl

theorem execVscl_lands (hq : s.qdesc ((s.bench b).ra t.b).toNat false = .ok q) (hf : selFmt (s.bench b).fmtsel.toNat = .ok f)
    (h : s.SlotReady b sl 0x5E 2 t.g t.d t.a t.b) :
    let k := s.bench b
    let n := k.width sl / 32
    let z := 16 * 2 ^ q.geo
    let top := if q.tbl = 0 then emaxOf f else tblEC (s.compander q.tbl)
    execVscl t s = retires (s.setBench b (k.landsV 6 t.d 0 (k.width sl) (clean (if q.geo = 3 then 127 else
      ofLanes 8 ((List.range ((n + z - 1) / z)).map (fun j =>
        blockScale top ((((List.range n).map (fun i => lane 32 i (k.rv t.a))).drop (z * j)).take z))))))) := by
  intro k n z top
  rw [Bench.landsV_clean _ _ _ _ _ rfl]
  refine frame_slot_ok h ?_
  simp only [hq, hf, Run.ok_bind]
  rfl

/-- What VCOMP gives an element. -/
def compandElem (s : State) (q : QDesc) (v : Nat) : Nat × Nat :=
  if f32.value v = .nan then (f32.nanCode, 0) else if q.tbl = 0 then (v, 0)
  else if q.inv then expandSigned (s.compander q.tbl) v else compandSigned (s.compander q.tbl) (f32.value v)

theorem execVcomp_lands (hq : s.qdesc ((s.bench b).ra t.b).toNat true = .ok q) (h : s.SlotReady b sl 0x5E 3 t.g t.d t.a t.b) :
    let k := s.bench b
    let W := k.width sl
    execVcomp t s = retires (s.setBench b (k.landsV 6 t.d 0 W (yMap 32 (W / 32) (fun i => compandElem s q (lane 32 i (k.rv t.a)))))) := by
  intro k W
  refine frame_slot_ok h ?_
  simp only [hq, Run.ok_bind]
  refine congrArg (fun v => Except.ok (s.setBench b (k.landsV 6 t.d 0 W (yMap 32 (W / 32) v)))) (funext fun i => ?_)
  unfold compandElem Bench.vl
  cases f32.value (lane 32 i (k.rv t.a)) <;> rfl

end quantising

/-! ### Special functions (R200) -/

theorem vexp2_row : VBinRow .vexp2 0x5F 0 6 32 exp2 := fun _ => rfl
theorem vrcp_row : VBinRow .vrcp 0x5F 1 8 32 frcp := fun _ => rfl
theorem vrsq_row : VBinRow .vrsq 0x5F 2 8 32 frsq := fun _ => rfl
theorem vlog2_row : VBinRow .vlog2 0x5F 3 8 32 flog2 := fun _ => rfl

/-- Settles O24: the conversions by their three shapes, the quantising forms by the descriptor that they read, the special functions as
rows of one source. -/
theorem frameVectorConvert : Obligations.FrameVectorConvert := by
  unfold Obligations.FrameVectorConvert
  intro s b sl h n c t u q f k W draw lands
  refine ⟨fun hw => (exec_vcvtF32Bf16 s h).trans (vWiden_lands hw), fun hw => (exec_vcvtF32F16 s h).trans (vWiden_lands hw),
    ⟨fun hn => (exec_vcvtBf16F32 s n).trans (vNarrow_lands hn), fun hn => (exec_vcvtF16F32 s n).trans (vNarrow_lands hn)⟩,
    ⟨fun hc => (exec_vcvtF32I32 s c).trans (vSame_lands hc), fun hc => (exec_vcvtI32F32 s c).trans (vSame_lands hc)⟩,
    fun hn => (exec_vcvtI16I32 s h).trans (vNarrow_lands hn), fun hn => (exec_vcvtI8I16 s h).trans (vNarrow_lands hn),
    fun v comp => s.qdesc_ok_iff v comp q, fun hq hf => ⟨execVqnt_lands hq hf, execVdq_lands hq hf, execVscl_lands hq hf⟩,
    execVcomp_lands, vexp2_row.lands, vrcp_row.lands, vrsq_row.lands, vlog2_row.lands⟩

end Sys2Proof.Machine
end

section
/-! O28. Sparse selection: of four elements the two kept are those that rank first, by larger magnitude and then by lower position; a row's
codes and position nibbles are read back from its lanes. -/

namespace Sys2Proof.Machine

/-! ### Magnitudes -/

/-- The magnitudes of two numbers compare as their counts of units of `2 ^ e`, for every `e` at most both exponents. -/
theorem largerMag_fin_iff {a b : Dy} {e : Int} (ha : e ≤ a.e) (hb : e ≤ b.e) :
    largerMag (.fin a) (.fin b) = true ↔ b.m * 2 ^ (b.e - e).toNat < a.m * 2 ^ (a.e - e).toNat := by
  have hsplit {z m : Int} (hm : e ≤ m) (hz : m ≤ z) (n : Nat) :
      n * 2 ^ (z - e).toNat = n * 2 ^ (z - m).toNat * 2 ^ (m - e).toNat := by
    rw [Nat.mul_assoc, ← Nat.pow_add, ← Int.toNat_add (Int.sub_nonneg.2 hz) (Int.sub_nonneg.2 hm)]
    congr 3
    omega
  have hmin : e ≤ min b.e a.e := Int.le_min.2 ⟨hb, ha⟩
  rw [hsplit hmin (Int.min_le_left _ _), hsplit hmin (Int.min_le_right _ _), Nat.mul_lt_mul_right (Nat.two_pow_pos _)]
  exact decide_eq_true_iff.trans Int.ofNat_lt

/-- Of two magnitudes that differ, a third one is below the larger or above the smaller. -/
theorem largerMag_or_of_largerMag {a c : Fv} (h : largerMag a c = true) (b : Fv) : largerMag a b = true ∨ largerMag b c = true := by
  cases a <;> cases b <;> cases c
  case fin.fin.fin p q r =>
    have hp : min (min p.e q.e) r.e ≤ p.e := by omega
    have hq : min (min p.e q.e) r.e ≤ q.e := by omega
    have hr : min (min p.e q.e) r.e ≤ r.e := by omega
    rw [largerMag_fin_iff hp hr] at h
    rw [largerMag_fin_iff hp hq, largerMag_fin_iff hq hr]
    omega
  all_goals simp_all [largerMag, Fv.abs, Fv.lt]

theorem largerMag_self (a : Fv) : largerMag a a = false := by
  cases a
  case fin d => exact decide_eq_false (Int.lt_irrefl _)
  all_goals rfl

theorem largerMag_asymm {a b : Fv} (h : largerMag a b = true) : largerMag b a = false := by
  cases a <;> cases b
  case fin.fin p q =>
    have hp : min p.e q.e ≤ p.e := by omega
    have hq : min p.e q.e ≤ q.e := by omega
    rw [largerMag_fin_iff hp hq] at h
    rw [← Bool.not_eq_true, largerMag_fin_iff hq hp]
    omega
  all_goals simp_all [largerMag, Fv.abs, Fv.lt]

/-! ### The order of R231 -/

/-- Position `p` of the values goes before position `o`: a larger magnitude first, and of equal ones the lower position. -/
def Ahead (vs : List Fv) (p o : Nat) : Prop :=
  largerMag (vs.getD p .nan) (vs.getD o .nan) = true ∨ (largerMag (vs.getD o .nan) (vs.getD p .nan) = false ∧ p < o)

section order

variable {vs : List Fv} {i j k : Nat}

theorem Ahead.irrefl : ¬Ahead vs i i := by
  rintro (h | ⟨-, h⟩)
  · rw [largerMag_self] at h; cases h
  · exact Nat.lt_irrefl i h

theorem Ahead.not_larger (h : Ahead vs i j) : ¬largerMag (vs.getD j .nan) (vs.getD i .nan) = true := by
  rcases h with hlarger | ⟨hnot, -⟩
  · exact Bool.eq_false_iff.1 (largerMag_asymm hlarger)
  · exact Bool.eq_false_iff.1 hnot

theorem Ahead.trans (h : Ahead vs i j) (h' : Ahead vs j k) : Ahead vs i k := by
  rcases h with hij | ⟨hji, hlt⟩
  · exact .inl ((largerMag_or_of_largerMag hij _).resolve_right h'.not_larger)
  · rcases h' with hjk | ⟨hkj, hlt'⟩
    · exact .inl ((largerMag_or_of_largerMag hjk _).resolve_left (Bool.eq_false_iff.1 hji))
    · refine .inr ⟨Bool.eq_false_iff.2 fun hki => ?_, Nat.lt_trans hlt hlt'⟩
      exact (largerMag_or_of_largerMag hki _).elim (Bool.eq_false_iff.1 hkj) (Bool.eq_false_iff.1 hji)

theorem Ahead.total (h : i ≠ j) : Ahead vs i j ∨ Ahead vs j i := by
  cases hij : largerMag (vs.getD i .nan) (vs.getD j .nan)
  case true => exact .inl (.inl hij)
  case false =>
    cases hji : largerMag (vs.getD j .nan) (vs.getD i .nan)
    case true => exact .inr (.inl hji)
    case false => exact (Nat.lt_or_gt_of_ne h).imp (fun hlt => .inr ⟨hji, hlt⟩) (fun hlt => .inr ⟨hij, hlt⟩)

/-- Of the positions below `n` that meet a condition, one is ahead of the others. -/
theorem exists_ahead {P : Nat → Prop} {n : Nat} (hP : ∃ i, i < n ∧ P i) :
    ∃ x, x < n ∧ P x ∧ ∀ i, i < n → P i → i ≠ x → Ahead vs x i := by
  induction n with
  | zero => exact hP.elim fun i hi => absurd hi.1 (Nat.not_lt_zero i)
  | succ n ih =>
    by_cases hbelow : ∃ i, i < n ∧ P i
    case neg =>
      obtain ⟨i, hi, hpi⟩ := hP
      have hin : i = n := (Nat.lt_succ_iff_lt_or_eq.1 hi).resolve_left fun hlt => hbelow ⟨i, hlt, hpi⟩
      exact ⟨n, Nat.lt_succ_self n, hin ▸ hpi, fun j hj hpj hne => absurd ⟨j, by omega, hpj⟩ hbelow⟩
    case pos =>
      obtain ⟨x, hx, hpx, hfirst⟩ := ih hbelow
      by_cases hn : P n ∧ Ahead vs n x
      case pos =>
        refine ⟨n, Nat.lt_succ_self n, hn.1, fun i hi hpi hne => ?_⟩
        by_cases hix : i = x
        · exact hix ▸ hn.2
        · exact hn.2.trans (hfirst i (by omega) hpi hix)
      case neg =>
        refine ⟨x, Nat.lt_succ_of_lt hx, hpx, fun i hi hpi hne => ?_⟩
        rcases Nat.lt_succ_iff_lt_or_eq.1 hi with hlt | rfl
        · exact hfirst i hlt hpi hne
        · exact (Ahead.total hne).resolve_left fun hix => hn ⟨hpi, hix⟩

/-! ### The two that are kept (R231) -/

/-- How many of the four positions are ahead of a position. -/
def aheadOf (vs : List Fv) (i : Nat) : Nat := (List.range 4).countP (fun j => largerMag (vs.getD j .nan) (vs.getD i .nan) ||
  (decide (j < i) && !largerMag (vs.getD i .nan) (vs.getD j .nan)))

theorem keepTwo_eq (vs : List Fv) : keepTwo vs = (List.range 4).filter (fun i => decide (aheadOf vs i < 2)) := rfl

theorem ahead_iff : (largerMag (vs.getD j .nan) (vs.getD i .nan) ||
    (decide (j < i) && !largerMag (vs.getD i .nan) (vs.getD j .nan))) = true ↔ Ahead vs j i := by
  rw [Bool.or_eq_true, Bool.and_eq_true, decide_eq_true_iff, Bool.not_eq_true', and_comm, Ahead]

/-- A position that no other than `x` is ahead of is one of the two. -/
theorem aheadOf_lt_two {x : Nat} (hx : x < 4) (h : ∀ j, j < 4 → Ahead vs j i → j = x) : aheadOf vs i < 2 := by
  have hone : ∀ x, x < 4 → (List.range 4).countP (· == x) < 2 := by decide
  refine Nat.lt_of_le_of_lt (List.countP_mono_left fun j hj hji => ?_) (hone x hx)
  exact beq_iff_eq.2 (h j (List.mem_range.1 hj) (ahead_iff.1 hji))

/-- A position that two others are ahead of is none of the two. -/
theorem two_le_aheadOf {x y : Nat} (hx : x < 4) (hy : y < 4) (hxy : y ≠ x) (hxi : Ahead vs x i) (hyi : Ahead vs y i) :
    2 ≤ aheadOf vs i := by
  have htwo : ∀ x, x < 4 → ∀ y, y < 4 → y ≠ x → 2 ≤ (List.range 4).countP (fun j => j == x || j == y) := by decide
  refine Nat.le_trans (htwo x hx y hy hxy) (List.countP_mono_left fun j _ hj => ahead_iff.2 ?_)
  rcases Bool.or_eq_true_iff.1 hj with hjx | hjy
  · exact beq_iff_eq.1 hjx ▸ hxi
  · exact beq_iff_eq.1 hjy ▸ hyi

end order

/-- A choice of two among four positions, listed in ascending order. -/
theorem filter_range_four {p q : Nat} {keeps : Nat → Bool} (hpq : p < q) (hq : q < 4)
    (h : ∀ i, i < 4 → (keeps i = true ↔ i = p ∨ i = q)) : (List.range 4).filter keeps = [p, q] := by
  have hpair : ∀ q, q < 4 → ∀ p, p < q → (List.range 4).filter (fun i => decide (i = p ∨ i = q)) = [p, q] := by decide
  rw [← hpair q hq p hpq]
  exact List.filter_congr fun i hi => Bool.eq_iff_iff.2 ((h i (List.mem_range.1 hi)).trans decide_eq_true_iff.symm)

/-- The two kept are ahead of each of the others: one of them of all, the other of all but that one. -/
theorem keepTwo_first (vs : List Fv) : ∃ i j, keepTwo vs = [i, j] ∧ i < j ∧ j < 4 ∧
    ∀ o, o < 4 → o ≠ i → o ≠ j → ∀ p, (p = i ∨ p = j) → Ahead vs p o := by
  obtain ⟨x, hx, -, hfirst⟩ : ∃ x, x < 4 ∧ True ∧ ∀ i, i < 4 → True → i ≠ x → Ahead vs x i :=
    exists_ahead ⟨0, by decide, trivial⟩
  obtain ⟨y, hy, hyx, hsecond⟩ : ∃ y, y < 4 ∧ y ≠ x ∧ ∀ i, i < 4 → i ≠ x → i ≠ y → Ahead vs y i :=
    exists_ahead ⟨(x + 1) % 4, by omega, by omega⟩
  have hx2 : aheadOf vs x < 2 := aheadOf_lt_two hx fun j hj hjx =>
    Decidable.byContradiction fun hne => Ahead.irrefl (hjx.trans (hfirst j hj trivial hne))
  have hy2 : aheadOf vs y < 2 := aheadOf_lt_two hx fun j hj hjy => Decidable.byContradiction fun hne =>
    Ahead.irrefl (hjy.trans (hsecond j hj hne fun h => Ahead.irrefl (h ▸ hjy)))
  have hkept (n : Nat) (hn : n < 4) : aheadOf vs n < 2 ↔ n = min x y ∨ n = max x y := by
    by_cases hnx : n = x
    · exact ⟨fun _ => by omega, fun _ => hnx ▸ hx2⟩
    · by_cases hny : n = y
      · exact ⟨fun _ => by omega, fun _ => hny ▸ hy2⟩
      · have hmany := two_le_aheadOf hx hy hyx (hfirst n hn trivial hnx) (hsecond n hn hnx hny)
        omega
  refine ⟨min x y, max x y, filter_range_four (by omega) (by omega) fun n hn => decide_eq_true_iff.trans (hkept n hn), by omega,
    by omega, fun o ho hoi hoj p hp => ?_⟩
  have hpxy : p = x ∨ p = y := by omega
  rcases hpxy with rfl | rfl
  · exact hfirst o ho trivial (by omega)
  · exact hsecond o ho (by omega) (by omega)

theorem keepTwo_lt {vs : List Fv} {i j : Nat} (h : keepTwo vs = [i, j]) : i < j ∧ j < 4 := by
  obtain ⟨p, q, hpq, hlt, hq, -⟩ := keepTwo_first vs
  obtain ⟨rfl, rfl⟩ : p = i ∧ q = j := by simpa [hpq] using h
  exact ⟨hlt, hq⟩

/-! ### Reading lanes back -/

/-- A number whose bits from `k` up are those of `high`. -/
def stacked (k low high : Nat) : Nat := low + 2 ^ k * high

theorem stacked_lt {k m low high : Nat} (hlow : low < 2 ^ k) (hhigh : high < 2 ^ m) : stacked k low high < 2 ^ (k + m) := by
  calc low + 2 ^ k * high < 2 ^ k + 2 ^ k * high := Nat.add_lt_add_right hlow _
    _ = 2 ^ k * (high + 1) := by rw [Nat.mul_succ, Nat.add_comm]
    _ ≤ 2 ^ k * 2 ^ m := Nat.mul_le_mul_left _ hhigh
    _ = 2 ^ (k + m) := (Nat.pow_add 2 k m).symm

theorem ofLanes_cons (n a : Nat) (l : List Nat) : ofLanes n (a :: l) = stacked n (a % 2 ^ n) (ofLanes n l) := rfl

theorem ofLanes_lt (n : Nat) (l : List Nat) : ofLanes n l < 2 ^ (n * l.length) := by
  induction l with
  | nil => simp [ofLanes]
  | cons a l ih =>
    rw [ofLanes_cons, List.length_cons, Nat.mul_succ, Nat.add_comm (n * _)]
    exact stacked_lt (Nat.mod_lt _ (Nat.two_pow_pos n)) ih

/-- Lanes from bit `n * m` up are those of the upper part. -/
theorem lane_stacked_add {n m k low : Nat} (hk : n * m = k) (h : low < 2 ^ k) (i high : Nat) :
    lane n (m + i) (stacked k low high) = lane n i high := by
  subst hk
  rw [lane, lane, fld, fld, stacked, Nat.mul_add, Nat.pow_add, ← Nat.div_div_eq_div_mul,
    Nat.add_mul_div_left _ _ (Nat.two_pow_pos _), Nat.div_eq_of_lt h, Nat.zero_add]

/-- Lanes below bit `n * m` are those of the lower part. -/
theorem lane_stacked_of_lt {n m k i : Nat} (hk : n * m = k) (h : i < m) (low high : Nat) :
    lane n i (stacked k low high) = lane n i low := by
  have hdvd : 2 ^ (n * i) * 2 ^ n ∣ 2 ^ k := by
    rw [← hk, ← Nat.pow_add, ← Nat.mul_succ]
    exact Nat.pow_dvd_pow 2 (Nat.mul_le_mul_left n h)
  rw [lane, lane, fld, fld, stacked, ← Nat.mod_mul_right_div_self, ← Nat.mod_mul_right_div_self, Nat.add_mod,
    Nat.mod_eq_zero_of_dvd (Nat.dvd_trans hdvd (Nat.dvd_mul_right _ high)), Nat.add_zero, Nat.mod_mod]

theorem lane_zero (n v : Nat) : lane n 0 v = v % 2 ^ n := by rw [lane, fld, Nat.mul_zero, Nat.pow_zero, Nat.div_one]

theorem lane_ofLanes (n : Nat) (l : List Nat) (i : Nat) : lane n i (ofLanes n l) = l.getD i 0 % 2 ^ n := by
  induction l generalizing i with
  | nil => rw [ofLanes, lane, fld, Nat.zero_div]; rfl
  | cons a l ih =>
    cases i with
    | zero => rw [ofLanes_cons, lane_stacked_of_lt (Nat.mul_one n) Nat.zero_lt_one, lane_zero, Nat.mod_mod]; rfl
    | succ i => rw [ofLanes_cons, Nat.add_comm i, lane_stacked_add (Nat.mul_one n) (Nat.mod_lt _ (Nat.two_pow_pos n)), ih,
        Nat.add_comm 1]; rfl

/-! ### Lists of groups -/

theorem getD_map_of_lt {α β : Type} {l : List α} {f : α → β} {r : Nat} (h : r < l.length) (x : α) (y : β) :
    (l.map f).getD r y = f (l.getD r x) := by
  rw [List.getD_eq_getElem?_getD, List.getD_eq_getElem?_getD, List.getElem?_map, List.getElem?_eq_getElem h]
  rfl

theorem getD_map_range {β : Type} {f : Nat → β} {g n : Nat} (h : g < n) (y : β) : ((List.range n).map f).getD g y = f g := by
  rw [List.getD_eq_getElem?_getD, List.getElem?_map, List.getElem?_range h]
  rfl

section pairs

variable {f : Nat → List Nat} (hf : ∀ g, (f g).length = 2)

include hf

theorem length_flatMap_pairs (n : Nat) : ((List.range n).flatMap f).length = 2 * n := by
  induction n with
  | zero => rfl
  | succ n ih => rw [List.range_succ, List.flatMap_append, List.length_append, ih, List.flatMap_singleton, hf, Nat.mul_succ]

/-- A list made of pairs, read by the pair and the place in it. -/
theorem getD_flatMap_pairs {n q r : Nat} (hq : q < n) (hr : r < 2) : ((List.range n).flatMap f).getD (2 * q + r) 0 = (f q).getD r 0 := by
  induction n with
  | zero => exact absurd hq (Nat.not_lt_zero q)
  | succ n ih =>
    have hlen := length_flatMap_pairs hf n
    rw [List.range_succ, List.flatMap_append, List.flatMap_singleton, List.getD_eq_getElem?_getD]
    rcases Nat.lt_succ_iff_lt_or_eq.1 hq with hlt | rfl
    · rw [List.getElem?_append_left (by omega), ← List.getD_eq_getElem?_getD, ih hlt]
    · rw [List.getElem?_append_right (by omega), hlen, Nat.add_sub_cancel_left, ← List.getD_eq_getElem?_getD]

end pairs

/-! ### The layout of a sparse row (R230) -/

section row

variable (fmt w groups v : Nat)

/-- The positions that a group of a row keeps. -/
def keptOf (g : Nat) : List Nat := keepTwo ((List.range 4).map (fun n => elemValue fmt (lane w (4 * g + n) v)))
/-- The codes that a row keeps, group by group. -/
def keptCodes : List Nat := (List.range groups).flatMap (fun g => (keptOf fmt w v g).map (fun i => lane w (4 * g + i) v))
/-- The positions that a row keeps, a nibble for a group. -/
def keptNibbles : List Nat := ((List.range groups).map (keptOf fmt w v)).map (fun l => l.getD 0 0 + 4 * l.getD 1 0)

theorem spselRow_eq : spselRow fmt w groups v =
    stacked 512 (ofLanes w (keptCodes fmt w groups v)) (ofLanes 4 (keptNibbles fmt w groups v)) := by
  have hcodes : keptCodes fmt w groups v = (List.range groups).flatMap (fun g =>
      (((List.range groups).map (keptOf fmt w v)).getD g []).map (fun i => lane w (4 * g + i) v)) := by
    rw [keptCodes, List.flatMap_def, List.flatMap_def]
    exact congrArg List.flatten (List.map_congr_left fun g hg => by rw [getD_map_range (List.mem_range.1 hg)])
  rw [hcodes, stacked, keptNibbles]
  unfold spselRow keptOf
  rfl

theorem length_keptOf (g : Nat) : (keptOf fmt w v g).length = 2 := by
  obtain ⟨i, j, hij, -⟩ := keepTwo_first ((List.range 4).map (fun n => elemValue fmt (lane w (4 * g + n) v)))
  rw [keptOf, hij]
  rfl

theorem length_keptCodes : (keptCodes fmt w groups v).length = 2 * groups :=
  length_flatMap_pairs (fun g => by rw [List.length_map, length_keptOf]) groups

theorem getD_keptCodes {g r : Nat} (hg : g < groups) (hr : r < 2) :
    (keptCodes fmt w groups v).getD (2 * g + r) 0 = lane w (4 * g + (keptOf fmt w v g).getD r 0) v := by
  rw [keptCodes, getD_flatMap_pairs (fun g => by rw [List.length_map, length_keptOf]) hg hr]
  exact getD_map_of_lt ((length_keptOf fmt w v g).symm ▸ hr) 0 0

theorem length_keptNibbles : (keptNibbles fmt w groups v).length = groups := by
  rw [keptNibbles, List.length_map, List.length_map, List.length_range]

theorem getD_keptNibbles {g : Nat} (hg : g < groups) :
    (keptNibbles fmt w groups v).getD g 0 = (keptOf fmt w v g).getD 0 0 + 4 * (keptOf fmt w v g).getD 1 0 := by
  rw [keptNibbles, List.map_map, getD_map_range hg]
  rfl

variable {w groups} (hw : w * (2 * groups) = 512)

include hw

theorem ofLanes_keptCodes_lt : ofLanes w (keptCodes fmt w groups v) < 2 ^ 512 := by
  have hlt := ofLanes_lt w (keptCodes fmt w groups v)
  rwa [length_keptCodes, hw] at hlt

/-- Nothing stands above the nibbles. -/
theorem spselRow_lt : spselRow fmt w groups v < 2 ^ (512 + 4 * groups) := by
  have hcodes := ofLanes_keptCodes_lt fmt v hw
  have hnibbles := ofLanes_lt 4 (keptNibbles fmt w groups v)
  rw [length_keptNibbles] at hnibbles
  rw [spselRow_eq]
  exact stacked_lt hcodes hnibbles

theorem lane_spselRow {g r : Nat} (hg : g < groups) (hr : r < 2) :
    lane w (2 * g + r) (spselRow fmt w groups v) = lane w (4 * g + (keptOf fmt w v g).getD r 0) v := by
  rw [spselRow_eq, lane_stacked_of_lt hw (by omega), lane_ofLanes, getD_keptCodes fmt w groups v hg hr, Nat.mod_eq_of_lt (lane_lt _ _ _)]

theorem nibble_spselRow {g : Nat} (hg : g < groups) : lane 4 (128 + g) (spselRow fmt w groups v) =
    ((keptOf fmt w v g).getD 0 0 + 4 * (keptOf fmt w v g).getD 1 0) % 2 ^ 4 := by
  rw [spselRow_eq, lane_stacked_add (show 4 * 128 = 512 from rfl) (ofLanes_keptCodes_lt fmt v hw), lane_ofLanes,
    getD_keptNibbles fmt w groups v hg]

end row

/-! ### SPSEL (R231) -/

section form

variable {s : State} {b : Nat} {sl : SlotName} {t : BinN2} (h : s.SlotReady b sl 0x69 3 t.g t.d t.a t.n)

include h

theorem execSpsel_bf16 (hn : t.n = 1) : execSpsel t s = retires (s.setBench b ((s.bench b).laterV 3 t.d 0 1024
    (spselRow 0x12 16 16 ((s.bench b).rv t.a)))) := by
  refine frame_slot_ok h ?_
  dsimp only
  rw [need_true (by simp [hn]), Run.ok_bind, if_neg (by simp [hn])]
  rfl

theorem execSpsel_byte (hn : t.n = 0) (hf : (s.bench b).fmtsel.toNat = 1 ∨ isB8 (s.bench b).fmtsel.toNat = true) :
    execSpsel t s = retires (s.setBench b ((s.bench b).laterV 3 t.d 0 1024
      (spselRow (s.bench b).fmtsel.toNat 8 32 ((s.bench b).rv t.a)))) := by
  refine frame_slot_ok h ?_
  dsimp only
  rw [need_true (by simpa [hn] using hf), Run.ok_bind, if_pos hn]
  rfl

theorem execSpsel_illegal (hn : t.n = 0) (h1 : (s.bench b).fmtsel.toNat ≠ 1) (hf : isB8 (s.bench b).fmtsel.toNat = false) :
    execSpsel t s = .next (s.benchFault b s.ctl.group cIllegal 0 0) := by
  refine frame_slot_stop h ?_
  dsimp only
  rw [need_false (by simp [hn, h1, hf]), Run.stop_bind]

end form

/-- Settles O28: the form by its format, the choice of two by their order, the row by its lanes. -/
theorem sparseSelection : Obligations.SparseSelection := by
  unfold Obligations.SparseSelection
  refine ⟨fun s b sl t => ?form, fun vs _ => ?choice, fun fmt w groups v hw => ?row⟩
  case form => exact fun h => ⟨execSpsel_bf16 h, execSpsel_byte h, execSpsel_illegal h⟩
  case choice =>
    obtain ⟨i, j, hkept, hij, hj, hfirst⟩ := keepTwo_first vs
    refine ⟨i, j, hkept, hij, hj, fun o ho hoi hoj p hp => ?_⟩
    rcases hfirst o ho hoi hoj p hp with hlarger | ⟨hnot, hlower⟩
    · exact ⟨largerMag_asymm hlarger, fun hnot => Bool.noConfusion (hlarger.symm.trans hnot)⟩
    · exact ⟨hnot, fun _ => hlower⟩
  case row =>
    have hwidth : w * (2 * groups) = 512 := by
      simp only [List.mem_cons, Prod.mk.injEq, List.not_mem_nil, or_false] at hw
      rcases hw with ⟨rfl, rfl⟩ | ⟨rfl, rfl⟩ <;> rfl
    refine ⟨spselRow_lt fmt v hwidth, fun q i j hq hkept => ?_⟩
    have hof : keptOf fmt w v q = [i, j] := hkept
    obtain ⟨hij, hj⟩ := keepTwo_lt hkept
    have hcode {r} (hr : r < 2) := lane_spselRow fmt v hwidth hq hr
    have hnibble := nibble_spselRow fmt v hwidth hq
    rw [hof] at hnibble
    refine ⟨?_, ?_, ?_⟩
    · rw [← Nat.add_zero (2 * q), hcode (by decide), hof]; rfl
    · rw [hcode (by decide), hof]; rfl
    · exact hnibble.trans (Nat.mod_eq_of_lt (show i + 4 * j < 16 by omega))

end Sys2Proof.Machine
end

section
/-! O29. Operand latches and the access of accumulator slots: a form's tests one after the other, then what it leaves on its way. -/

namespace Sys2Proof.Machine

variable {s : State} {b : Nat} {sl : SlotName}

/-! ### Tests before an effect -/

/-- A form may touch ranges that are all free (R206, R384). -/
theorem checkSpans_ok {rs : List Span} (h : ∀ r ∈ rs, s.rangeFree b r.off r.len) : s.checkSpans b rs = .ok () := by
  have hrange : rs.flatMap (fun r => if r.len = 0 ∨ r.off + r.len ≤ Config.sramBytes then []
      else [(r.idx (Config.sramBytes - r.off), max r.off Config.sramBytes)]) = [] :=
    List.flatMap_eq_nil_iff.2 fun r hr => if_pos ((h r hr).imp_right And.left)
  unfold State.checkSpans
  rw [hrange]
  by_cases hsq : s.trySquare = true
  case neg => rw [lowest, if_neg hsq]
  case pos =>
    have howned : rs.flatMap (fun r => (List.range r.len).filterMap (fun j =>
        if (s.owners b (r.off + j) 1).isEmpty then none else some (r.idx j, r.off + j))) = [] := by
      refine List.flatMap_eq_nil_iff.2 fun r hr => List.filterMap_eq_nil_iff.2 fun j hj => if_pos (List.isEmpty_iff.2 ?_)
      rcases h r hr with hlen | ⟨-, hfree⟩
      · exact absurd (List.mem_range.1 hj) (hlen ▸ Nat.not_lt_zero j)
      · exact hfree hsq j (List.mem_range.1 hj)
    rw [lowest, if_pos hsq, howned, lowest]

/-- The rows of an operand and their scales may be read where each row and its scales are free. -/
theorem operandCheck_ok {d : MatDesc} {len k : Nat} {sparse : Bool}
    (h : ∀ r, r < 128 → s.rangeFree b (d.row r) len ∧ s.rangeFree b (d.scaleRow r) (blocksOf d.geo k)) :
    s.operandCheck b d len k sparse = .ok () := by
  refine checkSpans_ok fun q hq => ?_
  rcases List.mem_append.1 hq with hq | hq <;> obtain ⟨r, hr, rfl⟩ := List.mem_map.1 hq
  · exact (h r (List.mem_range.1 hr)).1
  · exact (h r (List.mem_range.1 hr)).2

section handle

variable {k : Bench} {h : Nat}

theorem Bench.bound_some {a : AccSlot} (ha : k.slotOf h = some a) : k.bound h = .ok a := by rw [Bench.bound, ha]
theorem Bench.bound_none (ha : k.slotOf h = none) : k.bound h = stop cUnalloc h 0 := by rw [Bench.bound, ha]

/-- Of a form with one handle the array is tested, then the handle (R225). -/
theorem Bench.hazard_one (k : Bench) (array : Bool) (h : Nat) : k.hazard array [h] = (do
    need (!(array && decide (k.tick < k.arrayBusy))) cMatrix 0x10 0
    need (k.flights h).isEmpty cMatrix h 0) := by
  simp [Bench.hazard]

/-- An idle handle has no hazard where the array is not asked for or is free. -/
theorem Bench.hazard_idle {array : Bool} (ha : array = true → k.arrayBusy ≤ k.tick) (hi : k.flights h = []) :
    k.hazard array [h] = .ok () := by
  have harray : (!(array && decide (k.tick < k.arrayBusy))) = true := by
    cases array
    case false => rfl
    case true => rw [decide_eq_false (Nat.not_lt.2 (ha rfl))]; rfl
  rw [Bench.hazard_one, need_true harray, Run.ok_bind, hi]
  rfl

/-- A result in flight through the handle of a form that leaves the array alone is its hazard. -/
theorem Bench.hazard_inFlight (hi : k.flights h ≠ []) : k.hazard false [h] = stop cMatrix h 0 := by
  have hempty : (k.flights h).isEmpty = false := by simpa using hi
  rw [Bench.hazard_one, hempty]
  rfl

end handle

/-! ### Latches (R232 to R235) -/

theorem execLload_fills {t : Lload} {d : MatDesc} (h : s.SlotReady b sl 0x6C 0 t.g 0 t.a t.k)
    (hd : s.checkDesc ((s.bench b).ra t.a).toNat = .ok d)
    (hfree : ∀ r, r < 128 → s.rangeFree b (d.row r) (rowLen d.fmt (16 * (t.k + 1))) ∧
      s.rangeFree b (d.scaleRow r) (blocksOf d.geo (16 * (t.k + 1)))) :
    execLload t s = retires (s.sends b 8 (.latch ⟨true,
      (List.range 128).map (fun r => s.rowBytes b (d.row r) (rowLen d.fmt (16 * (t.k + 1)))),
      (List.range 128).map (fun r => s.rowBytes b (d.scaleRow r) (blocksOf d.geo (16 * (t.k + 1)))), d.fmt, d.geo, d.tbl, t.k⟩)) := by
  refine frame_slot_ok h ?_
  dsimp only
  rw [hd, Run.ok_bind, operandCheck_ok hfree, Run.ok_bind]
  rfl

section pass

variable {t : UnA} {due : Nat} (h : s.SlotReady b sl 0x6C 1 t.g 0 t.a 0)
  (hdue : (s.bench b).lastAnchor + ((s.bench b).ra t.a).toNat % 2 ^ 32 = due)

include h hdue

theorem execLpass_sends (hlat : s.frame.fcnt.toNat + 4 ≤ due) : execLpass t s = retires { s with
    frame := { s.frame with lpass := s.frame.lpass ++ [(eastOf b, due, (s.bench b).active)] } } := by
  refine frame_slot_ok h ?_
  dsimp only
  rw [hdue, need_true (decide_eq_true hlat), Run.ok_bind]
  rfl

theorem execLpass_early (hlat : due < s.frame.fcnt.toNat + 4) : execLpass t s = .next (s.benchFault b s.ctl.group cTimed 0 0) := by
  refine frame_slot_stop h ?_
  dsimp only
  rw [hdue, need_false (decide_eq_false (Nat.not_le.2 hlat)), Run.stop_bind]

end pass

theorem execLswap_sends {t : Nul} (h : s.SlotReady b sl 0x6C 2 t.g 0 0 0) : execLswap t s = retires (s.sends b 1 .swap) :=
  frame_slot_ok h rfl

theorem execLstat_sends {t : UnD} (h : s.SlotReady b sl 0x6C 3 t.g t.d 0 0) :
    execLstat t s = retires (s.sends b 1 (.a t.d (s.bench b).lstat)) := frame_slot_ok h rfl

/-! ### Accumulator slots (R223, R236) -/

section read

variable {t : HandleRd} (h : s.SlotReady b sl 0x6A 1 t.g t.d t.a t.b) (hp : checkPos ((s.bench b).ra t.b).toNat = .ok ())

include h hp

theorem execArd_reads {a : AccSlot} (ha : (s.bench b).slotOf t.a = some a) (hi : (s.bench b).flights t.a = []) :
    execArd t s = retires (s.setBench b ((s.bench b).laterV 4 t.d 0 1024
      (ofLanes 32 ((List.range 32).map (fun i => a.word (posWord ((s.bench b).ra t.b).toNat i)))))) := by
  refine frame_slot_ok h ?_
  dsimp only
  rw [hp, Run.ok_bind, Bench.bound_some ha, Run.ok_bind, Bench.hazard_idle Bool.noConfusion hi, Run.ok_bind]
  rfl

theorem execArd_unbound (ha : (s.bench b).slotOf t.a = none) : execArd t s = .next (s.benchFault b s.ctl.group cUnalloc t.a 0) := by
  refine frame_slot_stop h ?_
  dsimp only
  rw [hp, Run.ok_bind, Bench.bound_none ha, Run.stop_bind]

theorem execArd_inFlight {a : AccSlot} (ha : (s.bench b).slotOf t.a = some a) (hi : (s.bench b).flights t.a ≠ []) :
    execArd t s = .next (s.benchFault b s.ctl.group cMatrix t.a 0) := by
  refine frame_slot_stop h ?_
  dsimp only
  rw [hp, Run.ok_bind, Bench.bound_some ha, Run.ok_bind, Bench.hazard_inFlight hi, Run.stop_bind]

end read

theorem execAwr_writes {t : HandleAB} {a : AccSlot} (h : s.SlotReady b sl 0x6A 2 t.g t.d t.a t.b)
    (hp : checkPos ((s.bench b).ra t.b).toNat = .ok ()) (ha : (s.bench b).slotOf t.d = some a) (hi : (s.bench b).flights t.d = []) :
    execAwr t s = retires (s.setBench b ((s.bench b).lands 1 0 t.d false ((List.range 32).foldl
      (fun q i => q.setWord (posWord ((s.bench b).ra t.b).toNat i) (lane 32 i ((s.bench b).rv t.a))) a) 0)) := by
  refine frame_slot_ok h ?_
  dsimp only
  rw [hp, Run.ok_bind, Bench.bound_some ha, Run.ok_bind, Bench.hazard_idle Bool.noConfusion hi, Run.ok_bind]
  rfl

theorem AccSlot.filled_zero_acc : (AccSlot.filled 0).acc = words 16384 (fun _ => 0) := by simp [AccSlot.filled]

section idle

variable {t : HandleD} (hi : (s.bench b).flights t.d = [])

include hi

theorem execArel_sends (h : s.SlotReady b sl 0x6A 0 t.g t.d 0 0) : execArel t s = retires (s.sends b 1 (.release t.d)) := by
  refine frame_slot_ok h ?_
  dsimp only
  rw [Bench.hazard_idle Bool.noConfusion hi, Run.ok_bind]
  rfl

/-- AZERO's slot keeps its row state; of an unbound handle it is a slot afresh. -/
theorem execAzero_lands (h : s.SlotReady b sl 0x6A 3 t.g t.d 0 0) (ha : (s.bench b).arrayBusy ≤ (s.bench b).tick) :
    execAzero t s = retires (s.setBench b ((s.bench b).lands 2 1 t.d false
      { ((s.bench b).slotOf t.d).getD (AccSlot.filled 0) with acc := words 16384 (fun _ => 0) } 0)) := by
  refine frame_slot_ok h ?_
  dsimp only
  rw [Bench.hazard_idle (fun _ => ha) hi, Run.ok_bind, AccSlot.filled_zero_acc]
  rfl

end idle

/-- Settles O29: each form by its tests. -/
theorem latchesAndSlots : Obligations.LatchesAndSlots := by
  unfold Obligations.LatchesAndSlots
  constructor
  case left =>
    intro s b sl f u z w d k K
    exact ⟨execLload_fills, fun h => ⟨execLpass_sends h rfl, execLpass_early h rfl⟩, execLswap_sends, execLstat_sends⟩
  case right =>
    intro s b sl t w h a k idle
    exact ⟨fun ht hp => ⟨execArd_reads ht hp, execArd_unbound ht hp, execArd_inFlight ht hp⟩, execAwr_writes,
      fun hr hi => execArel_sends hi hr, fun hr ha hi => execAzero_lands hi hr ha⟩

end Sys2Proof.Machine
end

section
/-! O31. Packed dot products: the exact total of a lane, wrapped or clamped. -/

namespace Sys2Proof.Machine

variable {s : State} {b x : Nat} {sl : SlotName} {t : Tri}

/-! ### Saturation below and above a type's range (R34) -/

/-- A number below the range is clamped to the most negative one, whose pattern is its top bit alone. -/
theorem satI_of_lt {n : Nat} {v : Int} (hn : 0 < n) (h : v < -(2 ^ (n - 1) : Nat)) : satI n v = (2 ^ (n - 1), SAT) := by
  have hhalf := Nat.two_pow_pred_add_two_pow_pred hn
  have hwrap : (-(2 ^ (n - 1) : Nat) : Int) % (2 ^ n : Nat) = (2 ^ (n - 1) : Nat) := by
    rw [← Int.add_emod_right, show (-(2 ^ (n - 1) : Nat) : Int) + (2 ^ n : Nat) = (2 ^ (n - 1) : Nat) by omega]
    exact Int.emod_eq_of_lt (Int.natCast_nonneg _) (Int.ofNat_lt.2 (Nat.two_pow_pred_lt_two_pow hn))
  rw [satI, clampSat, if_pos h, ofI, hwrap, Int.toNat_natCast]

/-- A number above the range is clamped as the least one above it is. -/
theorem satI_of_gt {n : Nat} {v : Int} (hn : 0 < n) (h : ((2 ^ (n - 1) : Nat) : Int) - 1 < v) : satI n v = (2 ^ (n - 1) - 1, SAT) := by
  have hpos := Nat.two_pow_pos (n - 1)
  rw [← satI_half hn, satI, satI, clampSat, clampSat, if_neg (by omega), if_pos h, if_neg (by omega), if_pos (by omega)]

/-- Only a total outside the range of a word is clamped. -/
theorem satI_word (v : Int) : satI 32 v =
    if v < -2 ^ 31 then (2 ^ 31, SAT) else if 2 ^ 31 - 1 < v then (2 ^ 31 - 1, SAT) else ((v % 2 ^ 32).toNat, 0) := by
  split
  case isTrue hlo => exact satI_of_lt (by decide) hlo
  case isFalse hlo =>
    split
    case isTrue hhi => exact satI_of_gt (by decide) hhi
    case isFalse hhi => exact satI_of_range (Int.not_lt.1 hlo) (Int.lt_of_le_sub_one (Int.not_lt.1 hhi))

/-! ### Totals of a lane (R243) -/

/-- D's lane with the products of the `n` elements of `w` bits that A and B hold in it. -/
def Bench.dotTotal (k : Bench) (n w : Nat) (t : Tri) (i : Nat) : Int :=
  toI 32 (k.vl 32 t.d i) + ((List.range n).map (fun e => toI w (k.vl w t.a (n * i + e)) * toI w (k.vl w t.b (n * i + e)))).foldl (· + ·) 0

/-- A wrapping form lands the totals' low words, and raises no flag. -/
theorem vdot_wraps {n w : Nat} (h : s.SlotReady b sl 0x6D x t.g t.d t.a t.b) :
    vdot x n w false t s = retires (s.setBench b ((s.bench b).landsV 3 t.d 0 1024
      (yMap 32 32 (fun i => (((s.bench b).dotTotal n w t i % 2 ^ 32).toNat, 0))))) :=
  frame_slot_ok h rfl

/-- A saturating form lands the totals clamped, with SAT where one was. -/
theorem vdot_clamps {n w : Nat} (h : s.SlotReady b sl 0x6D x t.g t.d t.a t.b) :
    vdot x n w true t s = retires (s.setBench b ((s.bench b).landsV 3 t.d 0 1024
      (yMap 32 32 (fun i => satI 32 ((s.bench b).dotTotal n w t i))))) :=
  frame_slot_ok h rfl

/-- Settles O31: the forms land their totals wrapped, or clamped at the ends of a word's range. -/
theorem packedDotProducts : Obligations.PackedDotProducts := by
  unfold Obligations.PackedDotProducts
  intro s b sl t k el four two wrap clamp gives
  have clamps : satI 32 = clamp := funext satI_word
  have saturated {i x} (g : Nat → Int) (hi : s.SlotReady b sl 0x6D x t.g t.d t.a t.b → exec i s = retires (s.setBench b
      (k.landsV 3 t.d 0 1024 (yMap 32 32 (fun j => satI 32 (g j)))))) : gives i x (fun j => clamp (g j)) := clamps ▸ hi
  exact ⟨vdot_wraps (n := 4) (w := 8), saturated four (vdot_clamps (n := 4) (w := 8)), vdot_wraps (n := 2) (w := 16),
    saturated two (vdot_clamps (n := 2) (w := 16))⟩

end Sys2Proof.Machine
end

section

/-! # O60: every step keeps byte memory and the local memories canonical (R257, R258, log 1)

Only the operations of `Mem` write bytes. The canonical form of a state is that of its `mem` (`State.canonical_mk`): a lemma about a
function that writes no byte is an equivalence, by which `simp` rewrites; one about a function that writes some is an implication. A
`Run` hands its states on by the rules of `Run.Ensures`; what an instruction answers is in `Answer.Canonical`. -/

namespace Sys2Proof.Machine

@[simp] theorem State.canonical_mk {c : Ctl} {m : Mem} {w : Weave} {f : Frame} {e : Eng} {k : Hst} :
    State.Canonical ⟨c, m, w, f, e, k⟩ ↔ m.Canonical := ⟨id, id⟩

@[simp] theorem State.mem_canonical {s : State} : s.mem.Canonical ↔ s.Canonical := ⟨id, id⟩

/-- Where the run ends in a value, `P` holds of it. -/
def Run.Ensures {α : Type} (r : Run α) (P : α → Prop) : Prop := ∀ a, r = .ok a → P a

@[simp] theorem Run.ensures_ok {α : Type} {P : α → Prop} (a : α) : Run.Ensures (.ok a) P ↔ P a :=
  ⟨fun h => h a rfl, fun h b e => by cases e; exact h⟩

@[simp] theorem Run.ensures_pure {α : Type} {P : α → Prop} (a : α) : Run.Ensures (pure a) P ↔ P a := Run.ensures_ok a

@[simp] theorem Run.ensures_error {α : Type} {P : α → Prop} (e : Stop) : Run.Ensures (.error e) P := fun _ h => nomatch h

@[simp] theorem Run.ensures_stop {α : Type} {P : α → Prop} (a b c : Nat) : Run.Ensures (stop a b c) P := fun _ h => nomatch h

@[simp] theorem Run.ensures_illegal {α : Type} {P : α → Prop} : Run.Ensures illegal P := fun _ h => nomatch h

@[simp] theorem Run.ensures_waitFor {α : Type} {P : α → Prop} (w : Wait) : Run.Ensures (waitFor w) P := fun _ h => nomatch h

@[simp] theorem Run.ensures_bind {α β : Type} {P : β → Prop} (r : Run α) (f : α → Run β) :
    Run.Ensures (r >>= f) P ↔ r.Ensures (fun a => (f a).Ensures P) := by
  cases r with
  | ok a => exact ⟨fun h b e => by cases e; exact h, fun h => h a rfl⟩
  | error e => exact ⟨fun _ => Run.ensures_error e, fun _ => Run.ensures_error e⟩

@[simp] theorem Run.ensures_map {α β : Type} {P : β → Prop} (r : Run α) (f : α → β) :
    Run.Ensures (r.map f) P ↔ r.Ensures (fun a => P (f a)) := by
  cases r with
  | ok a => exact ⟨fun h b e => by cases e; exact h _ rfl, fun h b e => by cases e; exact h a rfl⟩
  | error e => exact ⟨fun _ => Run.ensures_error e, fun _ => Run.ensures_error e⟩

@[simp] theorem Run.ensures_ite {α : Type} {P : α → Prop} (p : Prop) [Decidable p] (r q : Run α) :
    Run.Ensures (if p then r else q) P ↔ (p → r.Ensures P) ∧ (¬p → q.Ensures P) := by
  split <;> simp [*]

@[simp low] theorem Run.ensures_of_forall {α : Type} {P : α → Prop} (r : Run α) (h : ∀ a, P a) : r.Ensures P := fun a _ => h a

/-- The byte memories of the state that an answer leads to, if it leads to one, are canonical. -/
def Answer.Canonical (r : Answer) : Prop := ∀ t, r = .next t → t.Canonical

theorem Answer.Canonical.next {r : Answer} {t : State} (h : Answer.Canonical r) (e : r = .next t) : t.Canonical := h t e

@[simp] theorem Answer.canonical_next (t : State) : Answer.Canonical (.next t) ↔ t.Canonical :=
  ⟨fun h => h t rfl, fun h b e => by cases e; exact h⟩

@[simp] theorem Answer.canonical_fault (f : Fault) : Answer.Canonical (.fault f) := fun _ h => nomatch h

@[simp] theorem Answer.canonical_ite (p : Prop) [Decidable p] (r q : Answer) :
    Answer.Canonical (if p then r else q) ↔ (p → Answer.Canonical r) ∧ (¬p → Answer.Canonical q) := by
  split <;> simp [*]

@[simp] theorem State.canonical_ite (p : Prop) [Decidable p] (s t : State) :
    (if p then s else t).Canonical ↔ if p then s.Canonical else t.Canonical := by
  split <;> rfl

@[simp] theorem Mem.canonical_ite (p : Prop) [Decidable p] (s t : Mem) :
    (if p then s else t).Canonical ↔ (p → s.Canonical) ∧ (¬p → t.Canonical) := by
  split <;> simp [*]

@[simp] theorem foldl_canonical_iff {α : Type} {f : State → α → State} (l : List α) {s : State}
    (hf : ∀ t a, (f t a).Canonical ↔ t.Canonical) : (l.foldl f s).Canonical ↔ s.Canonical := by
  induction l generalizing s with
  | nil => rfl
  | cons a l ih => exact ih.trans (hf s a)

@[simp] theorem foldl_canonical {α : Type} {f : State → α → State} (l : List α) {s : State} (h : s.Canonical)
    (hf : ∀ t a, t.Canonical → (f t a).Canonical) : (l.foldl f s).Canonical := by
  induction l generalizing s with
  | nil => exact h
  | cons a l ih => exact ih (hf s a h)

@[simp] theorem Run.ensures_fmap {α β : Type} {P : β → Prop} (r : Run α) (f : α → β) :
    Run.Ensures (f <$> r) P ↔ r.Ensures (fun a => P (f a)) := Run.ensures_map r f

@[simp] theorem mem_foldl_canonical {α : Type} {f : Mem → α → Mem} (l : List α) {s : Mem} (h : s.Canonical)
    (hf : ∀ t a, t.Canonical → (f t a).Canonical) : (l.foldl f s).Canonical := by
  induction l generalizing s with
  | nil => exact h
  | cons a l ih => exact ih (hf s a h)

theorem foldl_fst_canonical {α β : Type} {f : State × β → α → State × β} (l : List α) {a : State × β} (h : a.1.Canonical)
    (hf : ∀ a x, a.1.Canonical → (f a x).1.Canonical) : (l.foldl f a).1.Canonical := by
  induction l generalizing a with
  | nil => exact h
  | cons x l ih => exact ih (hf a x h)

@[simp] theorem laneZero_ensures {α : Type} {P : α → Prop} (r : Run α) : (laneZero r).Ensures P ↔ r.Ensures P := by
  unfold laneZero
  split <;> simp

@[simp] theorem State.laneErr_ensures {α : Type} {P : α → Prop} (s : State) (c ea w k : Nat) (use : Use) (r : Run α) :
    (s.laneErr c ea w k use r).Ensures P ↔ r.Ensures P := by
  unfold State.laneErr
  split
  · simp
  · split <;> simp
  · rfl

/-- A filter of byte memory keeps its canonical form, and so of the local memories. -/
theorem Mem.filterCells_canonical {m : Mem} (p : Host.Cell → Bool) (h : m.Canonical) :
    Mem.Canonical { m with cells := m.cells.filter p } :=
  ⟨Memory.filter_wf _ p h.1, h.2⟩

theorem Mem.filterLocal_canonical {m : Mem} (p : Host.Cell → Bool) (h : m.Canonical) :
    Mem.Canonical { m with local_ := m.local_.filter p } :=
  ⟨h.1, Memory.filter_wf _ p h.2⟩

theorem Mem.writeLocal_canonical {m : Mem} (a : Nat) (bs : List Byte) (h : m.Canonical) :
    Mem.Canonical { m with local_ := m.local_.writeBytes a bs } := ⟨h.1, Memory.writeBytes_wf bs _ a h.2⟩

end Sys2Proof.Machine
end

section

/-! ## O60: the functions of the state -/

namespace Sys2Proof.Machine

variable {s : State}
  {a addr asid at_ b base bb c cl code conn core d die ea ea0 epc faddr g gang gid i id idx index info : Nat}
  {j k lat maj n off op pa pc q role save size status v va w x : Nat} {t : Tri} {l : Launch} {bs : List Byte} {ps : List Part} {use : Use}
  {r : RmaReq} {f : FaultCause} {p : Part} {kind : CpyKind} {frec : List W64}

/-! ### Changes of the control state (Machine/Ops) -/

@[simp] theorem State.setCtx_canonical {x : Ctx} : (s.setCtx c x).Canonical ↔ s.Canonical := by simp [State.setCtx]
@[simp] theorem State.modCtx_canonical {f : Ctx → Ctx} : (s.modCtx c f).Canonical ↔ s.Canonical := by simp [State.modCtx]
@[simp] theorem State.dropCtx_canonical : (s.dropCtx c).Canonical ↔ s.Canonical := by simp [State.dropCtx]
@[simp] theorem State.setCore_canonical {x : Core} : (s.setCore k x).Canonical ↔ s.Canonical := by simp [State.setCore]
@[simp] theorem State.modCore_canonical {f : Core → Core} : (s.modCore k f).Canonical ↔ s.Canonical := by simp [State.modCore]
@[simp] theorem State.setCluster_canonical {x : Cluster} : (s.setCluster cl x).Canonical ↔ s.Canonical := by simp [State.setCluster]

@[simp] theorem State.modCluster_canonical {f : Cluster → Cluster} : (s.modCluster cl f).Canonical ↔ s.Canonical := by
  simp [State.modCluster]

@[simp] theorem State.setGang_canonical {x : Gang} : (s.setGang g x).Canonical ↔ s.Canonical := by simp [State.setGang]
@[simp] theorem State.setLaunch_canonical {l : Nat} {x : Launch} : (s.setLaunch l x).Canonical ↔ s.Canonical := by simp [State.setLaunch]
@[simp] theorem State.setBench_canonical {x : Bench} : (s.setBench b x).Canonical ↔ s.Canonical := by simp [State.setBench]
@[simp] theorem State.modBench_canonical {f : Bench → Bench} : (s.modBench b f).Canonical ↔ s.Canonical := by simp [State.modBench]
@[simp] theorem State.setQueue_canonical {x : Queue} : (s.setQueue q x).Canonical ↔ s.Canonical := by simp [State.setQueue]
@[simp] theorem State.setGroup_canonical {x : Group} : (s.setGroup g x).Canonical ↔ s.Canonical := by simp [State.setGroup]
@[simp] theorem State.signal_canonical {v : W64} : (s.signal n v).Canonical ↔ s.Canonical := by simp [State.signal]
@[simp] theorem State.push_canonical {as : List Act} : (s.push as).Canonical ↔ s.Canonical := by simp [State.push]
@[simp] theorem State.pushEvent_canonical {i : Instr} : (s.pushEvent i).Canonical ↔ s.Canonical := by simp [State.pushEvent]
@[simp] theorem State.verdict_canonical {v : Verdict} : (s.verdict v).Canonical ↔ s.Canonical := by simp [State.verdict]
@[simp] theorem State.life_canonical : (s.life w n).Canonical ↔ s.Canonical := by simp [State.life]
@[simp] theorem State.drew_canonical : s.drew.Canonical ↔ s.Canonical := by simp [State.drew]
@[simp] theorem State.fresh_canonical : s.fresh.Canonical ↔ s.Canonical := by simp [State.fresh]

@[simp] theorem State.faultLaunch_canonical {l : Nat} : (s.faultLaunch l f).Canonical ↔ s.Canonical := by
  unfold State.faultLaunch
  split <;> simp

@[simp] theorem State.faultFrame_canonical : (s.faultFrame f).Canonical ↔ s.Canonical := by simp [State.faultFrame]
@[simp] theorem State.raise_canonical : (s.raise c epc code faddr info).Canonical ↔ s.Canonical := by simp [State.raise]

@[simp] theorem State.raiseAt_canonical {lidx : Nat} : (s.raiseAt c epc code faddr info lidx).Canonical ↔ s.Canonical := by
  simp [State.raiseAt]

@[simp] theorem State.joinPort_canonical {w : Wait} : (s.joinPort c w).Canonical ↔ s.Canonical := by
  unfold State.joinPort
  split <;> simp

@[simp] theorem State.park_canonical {w : Wait} : (s.park c w).Canonical ↔ s.Canonical := by simp [State.park]
@[simp] theorem State.retire_canonical : s.retire.Canonical ↔ s.Canonical := by simp [State.retire]

@[simp] theorem finishW_canonical {r : Run State} (h : s.Canonical) (hr : r.Ensures State.Canonical) :
    Answer.Canonical (finishW s c r) := by
  unfold finishW
  split <;> simp_all

/-! ### Byte memory by physical address (Machine/Phys) -/

@[simp] theorem State.framePut_canonical {engine : Bool} (h : s.Canonical) : (s.framePut engine pa bs).Canonical := by
  have hw : Mem.Canonical { s.mem with cells := s.mem.cells.writeBytes pa bs } := s.mem.rawPut_canonical pa bs h
  unfold State.framePut
  dsimp only
  split <;> simp [hw, Mem.setFull_canonical]

@[simp] theorem FrameWrite.undo_canonical {m : Mem} {w : FrameWrite} (h : m.Canonical) : (w.undo m).Canonical := by
  refine mem_foldl_canonical _ (mem_foldl_canonical _ h fun u b hu => ?_) fun u a hu => Mem.setEmpty_canonical 1 u a hu
  split
  · exact ⟨Memory.write_wf _ _ _ hu.1, hu.2⟩
  · exact hu

@[simp] theorem State.unwrite_canonical {f : Nat} (h : s.Canonical) : (s.unwrite f).Canonical := by simp +contextual [State.unwrite, h]
@[simp] theorem State.dropLine_canonical : (s.dropLine k pa).Canonical ↔ s.Canonical := by simp [State.dropLine]

@[simp] theorem State.loadLine_canonical {nc : Bool} : (s.loadLine k pa n nc).2.Canonical ↔ s.Canonical := by
  unfold State.loadLine
  split
  · simp
  · split
    · dsimp only
      split <;> simp
    · simp

@[simp] theorem State.eccCorrect_canonical : (s.eccCorrect pa n).Canonical ↔ s.Canonical := by simp [State.eccCorrect]

@[simp] theorem State.eccMeet_ensures (h : s.Canonical) {P : State → Prop} (hP : ∀ t, t.Canonical → P t) :
    (s.eccMeet pa n).Ensures P := by
  simp [State.eccMeet, h, hP]

@[simp] theorem Mem.keep_canonical {m : Mem} (h : m.Canonical) : (m.keep die).Canonical := by
  unfold Mem.keep
  split
  · exact h
  · exact mem_foldl_canonical _ h fun n l hn => Mem.writeBack_canonical _ n l hn

@[simp] theorem State.keepCaches_canonical (h : s.Canonical) : s.keepCaches.Canonical := by simp [State.keepCaches, h]
@[simp] theorem State.deviceStore_canonical : (s.deviceStore off size v).Canonical ↔ s.Canonical := by simp [State.deviceStore]
@[simp] theorem State.drained_canonical (h : s.Canonical) : (s.drainAll k).Canonical := s.drainAll_canonical k h
@[simp] theorem State.acquire_canonical : (s.acquire k).Canonical ↔ s.Canonical := by simp [State.acquire]

/-! ### Translation and checks (Machine/Translate) -/

@[simp] theorem State.walkMeet_canonical : (s.walkMeet asid va).Canonical ↔ s.Canonical := by simp [State.walkMeet]

theorem State.translate_canonical {u : State} {l : Leaf} (h : s.Canonical) (e : s.translate k asid va = some (l, u)) : u.Canonical := by
  unfold State.translate at e
  dsimp only at e
  split at e
  case h_1 => cases e; exact h
  case h_2 =>
    split at e
    case h_1 => cases e; simpa using h
    case h_2 =>
      split at e
      · cases e
      · cases e; simpa using h

@[simp] theorem State.checkPart_ensures {user : Bool} {len : Nat} {P : Part × State → Prop} (h : s.Canonical)
    (hP : ∀ p t, t.Canonical → P (p, t)) : (s.checkPart k asid user use va len).Ensures P := by
  unfold State.checkPart
  split
  · simp
  · simp
  · next ht => simp [hP _ _ (State.translate_canonical h ht)]

@[simp] theorem State.checkPages_ensures {P : List Part × State → Prop} (h : s.Canonical) (hP : ∀ ps t, t.Canonical → P (ps, t)) :
    (s.checkPages c ea n use).Ensures P := by
  unfold State.checkPages
  simp only [Run.ensures_ite, Run.ensures_bind, Run.ensures_pure, Run.ensures_stop]
  refine ⟨fun _ => trivial, fun _ => State.checkPart_ensures h fun p t ht => ?_⟩
  simp +contextual [hP, ht]

@[simp] theorem State.checkAccess_ensures (h : s.Canonical) {P : List Part × State → Prop} (hP : ∀ ps t, t.Canonical → P (ps, t)) :
    (s.checkAccess c ea n use).Ensures P := by simp +contextual [State.checkAccess, h, hP]

@[simp] theorem State.corrects_canonical {l : List Nat} : (s.corrects l).Canonical ↔ s.Canonical := by simp [State.corrects]

/-! ### Operands and the ends of a form (Machine/Operands) -/

@[simp] theorem State.setPipe_canonical {p : Pipe} : (s.setPipe c i p).Canonical ↔ s.Canonical := by
  unfold State.setPipe
  split <;> simp

@[simp] theorem State.postEvent_canonical {bitNo : Nat} : (s.postEvent gang role bitNo).Canonical ↔ s.Canonical := by
  simp [State.postEvent]

@[simp] theorem State.popQ_canonical : (s.popQ c q).2.Canonical ↔ s.Canonical := by
  unfold State.popQ
  repeat' split
  all_goals simp

@[simp] theorem State.pushQ_canonical {w : W64} (h : s.Canonical) : (s.pushQ c q w).Canonical := by
  unfold State.pushQ
  split
  · simp [h]
  · split <;> simp [h]

@[simp] theorem State.src_canonical : (s.src c i).2.Canonical ↔ s.Canonical := by
  unfold State.src
  split <;> simp

@[simp] theorem State.dst_canonical {v : W64} (h : s.Canonical) : (s.dst c i v).Canonical := by simp [State.dst, h]

@[simp] theorem gated_ensures {g : Run Unit} {popped : Bool} {r : Run State} {P : State → Prop} (h : r.Ensures P) :
    (gated g popped r).Ensures P := fun _ e => h _ (gated_ok e).2

@[simp] theorem State.onCtx_canonical {sel : Bool} {pre : Run Unit} {body : State → Run State} (h : s.Canonical)
    (hb : (body s).Ensures State.Canonical) : Answer.Canonical (s.onCtx c maj x g d a b sel pre body) := by
  unfold State.onCtx
  split
  · simpa using h
  · split <;> simp [h, hb]

@[simp] theorem State.benchFault_canonical : (s.benchFault b epc code faddr info).Canonical ↔ s.Canonical := by simp [State.benchFault]

@[simp] theorem finishF_canonical {r : Run State} (h : s.Canonical) (hr : r.Ensures State.Canonical) :
    Answer.Canonical (finishF' s b r) := by
  unfold finishF'
  split <;> simp_all

@[simp] theorem State.onSlot_canonical {sl : SlotName} {sel : Bool} {body : State → Run State} (h : s.Canonical)
    (hb : (body s).Ensures State.Canonical) : Answer.Canonical (s.onSlot b sl maj x g d a bb sel body) := by
  unfold State.onSlot
  split <;> simp [h, hb]

@[simp] theorem frame_canonical {body : Nat → SlotName → State → Run State} (h : s.Canonical)
    (hb : ∀ b sl, (body b sl s).Ensures State.Canonical) : Answer.Canonical (frame maj x g d a bb body s) := by
  unfold frame
  split <;> simp [h, hb]

@[simp] theorem both_canonical {pre : State → Nat → Run Unit} {wb : Nat → State → Run State} {fb : Nat → SlotName → State → Run State}
    (h : s.Canonical) (hw : ∀ c, (wb c s).Ensures State.Canonical) (hb : ∀ b sl, (fb b sl s).Ensures State.Canonical) :
    Answer.Canonical (both maj x g d a bb pre wb fb s) := by
  unfold both
  split <;> simp [h, hb, hw]

@[simp] theorem weave_canonical {pre : State → Nat → Run Unit} {body : Nat → State → Run State} (h : s.Canonical)
    (hb : ∀ c, (body c s).Ensures State.Canonical) : Answer.Canonical (weave maj x g d a b pre body s) := by
  unfold weave
  split <;> simp [h, hb]

/-! ### Loads and stores (Machine/WeaveMem) -/

@[simp] theorem State.loadPart_ensures (h : s.Canonical) {P : List Byte × State → Prop} (hP : ∀ bs t, t.Canonical → P (bs, t)) :
    (s.loadPart c p).Ensures P := by
  unfold State.loadPart
  split <;> simp +contextual [h, hP]

@[simp] theorem State.loadParts_ensures {P : List Byte × State → Prop} (h : s.Canonical) (hP : ∀ bs t, t.Canonical → P (bs, t)) :
    (s.loadParts c ps).Ensures P := by
  induction ps generalizing s P with
  | nil => simp [State.loadParts, h, hP]
  | cons p ps ih =>
    simp only [State.loadParts, Run.ensures_bind]
    refine State.loadPart_ensures h fun b u hu => ?_
    exact ih hu fun bs v hv => by simp [hP, hv]

@[simp] theorem State.load_ensures {P : Nat × State → Prop} (h : s.Canonical) (hP : ∀ v t, t.Canonical → P (v, t)) :
    (s.load c ea n use).Ensures P := by
  simp only [State.load, Run.ensures_bind]
  refine State.checkAccess_ensures h fun ps u hu => ?_
  refine Run.ensures_of_forall _ fun _ => Run.ensures_of_forall _ fun o => ?_
  split <;> simp +contextual [hP, hu]

@[simp] theorem State.buffer_canonical {more : Bool} : (s.buffer c more ps bs).Canonical ↔ s.Canonical := by
  induction ps generalizing s more bs with
  | nil => rfl
  | cons p ps ih => simp [State.buffer, ih]

@[simp] theorem State.store_ensures {P : State → Prop} (h : s.Canonical) (hP : ∀ t, t.Canonical → P t) : (s.store c ea bs).Ensures P := by
  simp only [State.store, Run.ensures_bind]
  refine State.checkAccess_ensures h fun ps u hu => ?_
  refine Run.ensures_of_forall _ fun _ => ?_
  split
  · have hd := State.drained_canonical (k := coreOf c) hu
    simp [hP, hu, hd, Mem.rawPut_canonical]
  · simp [hP, hu]

@[simp] theorem loadX_canonical {ext : Nat → W64} {t : Imm6} (h : s.Canonical) : Answer.Canonical (loadX maj x size ext t s) := by
  refine weave_canonical h fun c => (Run.ensures_bind _ _).2 (State.load_ensures h fun v u hu => ?_)
  simp [hu]

@[simp] theorem storeX_canonical {t : Imm6} (h : s.Canonical) : Answer.Canonical (storeX maj x size t s) := by simp [storeX, h]

/-! ### Atomics, full/empty forms and cache operations (Machine/Atomics) -/

@[simp] theorem State.checkAligned_ensures {align : Nat} (h : s.Canonical)
    {P : List Part × State → Prop} (hP : ∀ ps t, t.Canonical → P (ps, t)) :
    (s.checkAligned c ea n align use).Ensures P := by simp +contextual [State.checkAligned, h, hP]

@[simp] theorem State.checkAtomic_ensures (h : s.Canonical) {P : List Part × State → Prop} (hP : ∀ ps t, t.Canonical → P (ps, t)) :
    (s.checkAtomic c ea op).Ensures P := by simp +contextual [State.checkAtomic, h, hP]

@[simp] theorem State.atomic_canonical {b d : W64} (h : s.Canonical) : (s.atomic c p op b d).2.Canonical := by
  unfold State.atomic
  dsimp only
  split <;> simp [h, Mem.putBytes_canonical]

@[simp] theorem amo_canonical (h : s.Canonical) : Answer.Canonical (amo maj x op t s) := by
  refine weave_canonical h fun c => (Run.ensures_bind _ _).2 (State.checkAtomic_ensures h fun ps u hu => ?_)
  simp only [Run.ensures_bind]
  refine Run.ensures_of_forall _ fun _ => ?_
  split
  · simp only [Run.ensures_bind, Run.ensures_pure]
    exact Run.ensures_of_forall _ fun _ => State.dst_canonical (State.atomic_canonical (State.src_canonical.2 hu))
  · simpa using hu

@[simp] theorem State.checkFullEmpty_ensures {align : Nat} (h : s.Canonical)
    {P : List Part × State → Prop} (hP : ∀ ps t, t.Canonical → P (ps, t)) :
    (s.checkFullEmpty c at_ ea n align use).Ensures P := by simp +contextual [State.checkFullEmpty, h, hP]

@[simp] theorem State.mark_canonical {full : Bool} (h : s.Canonical) : (s.mark full ps).Canonical := by
  simp +contextual [State.mark, h, Mem.setFull_canonical, Mem.setEmpty_canonical]

@[simp] theorem loadFull_canonical {take : Bool} {t : Imm6} (h : s.Canonical) : Answer.Canonical (loadFull x size take t s) := by
  refine weave_canonical h fun c => (Run.ensures_bind _ _).2 (State.checkFullEmpty_ensures h fun ps u hu => ?_)
  simp only [Run.ensures_bind]
  refine Run.ensures_of_forall _ fun _ => ?_
  have hd := State.drained_canonical (k := coreOf c) hu
  split
  · simp only [Run.ensures_bind, Run.ensures_pure]
    refine Run.ensures_of_forall _ fun _ => State.dst_canonical (State.acquire_canonical.2 ?_)
    have hm := (foldl_canonical_iff ps (s := u.drainAll (coreOf c)) (f := fun u p => u.eccCorrect p.pa p.len) (by simp)).2 hd
    split
    · exact State.mark_canonical hm
    · exact hm
  · simp

@[simp] theorem storeFull_canonical {t : Imm6} (h : s.Canonical) : Answer.Canonical (storeFull x size t s) := by
  refine weave_canonical h fun c => (Run.ensures_bind _ _).2 (State.checkFullEmpty_ensures h fun ps u hu => ?_)
  simp only [Run.ensures_bind]
  refine Run.ensures_of_forall _ fun _ => ?_
  split
  · have hd := State.drained_canonical (k := coreOf c) (State.src_canonical (c := c) (i := t.d).2 hu)
    simpa using State.mark_canonical (State.canonical_mk.2 (Mem.putBytes_canonical _ _ _ _ hd))
  · simpa using hu

@[simp] theorem State.checkLine_ensures (h : s.Canonical) {P : List Part × State → Prop} (hP : ∀ ps t, t.Canonical → P (ps, t)) :
    (s.checkLine c ea).Ensures P := by simp +contextual [State.checkLine, h, hP]

@[simp] theorem State.flushLine_canonical {scope : Nat} (h : s.Canonical) : (s.flushLine c scope pa).Canonical := by
  simp [State.flushLine, h, Mem.writeBack_canonical]

@[simp] theorem State.ldyfPart_ensures {P : Part × State → Prop} (h : s.Canonical) (hP : ∀ p t, t.Canonical → P (p, t)) :
    (s.ldyfPart c ea0).Ensures P := by
  simp only [State.ldyfPart, Run.ensures_bind]
  refine State.checkPages_ensures h fun ps u hu => ?_
  split
  · simp [hP, hu]
  · simp

@[simp] theorem State.loadWhole_ensures {P : List Byte × State → Prop} (h : s.Canonical) (hP : ∀ bs t, t.Canonical → P (bs, t)) :
    (s.loadWhole c p).Ensures P := by
  simp only [State.loadWhole, Run.ensures_bind]
  refine Run.ensures_of_forall _ fun o => ?_
  split
  · simp [hP, h]
  · exact State.loadParts_ensures h hP

@[simp] theorem State.ldyfElems_ensures {P : Part × Nat × State → Prop} (h : s.Canonical) (hP : ∀ p v t, t.Canonical → P (p, v, t)) :
    (s.ldyfElems c ea0).Ensures P := by
  simp only [State.ldyfElems, Run.ensures_bind]
  refine State.ldyfPart_ensures h fun p u hu => ?_
  refine Run.ensures_of_forall _ fun _ => State.loadWhole_ensures hu fun bs v hv => ?_
  simp [hP, hv]

@[simp] theorem State.loadScale_ensures {l : Leaf} (h : s.Canonical) {P : Nat × State → Prop} (hP : ∀ n t, t.Canonical → P (n, t)) :
    (s.loadScale c l ea).Ensures P := by
  unfold State.loadScale
  dsimp only
  split <;> simp +contextual [h, hP]

@[simp] theorem State.ldyfEnd_ensures {l : Leaf} (h : s.Canonical) {P : State → Prop} (hP : ∀ t, t.Canonical → P t) :
    (s.ldyfEnd c d ea0 l v).Ensures P := by simp +contextual [State.ldyfEnd, h, hP]

@[simp] theorem State.ldyfBody_ensures {P : State → Prop} (h : s.Canonical) (hP : ∀ t, t.Canonical → P t) :
    (s.ldyfBody c d ea0).Ensures P := by
  unfold State.ldyfBody
  split
  · simp only [laneZero_ensures]
    exact State.ldyfEnd_ensures h hP
  · simp only [Run.ensures_bind, laneZero_ensures]
    refine Run.ensures_of_forall _ fun typed => ?_
    split
    · simp only [Run.ensures_bind, laneZero_ensures]
      refine State.ldyfElems_ensures h fun p v u hu => ?_
      refine State.ldyfEnd_ensures ?_ hP
      split <;> simp [hu]
    · simp only [Run.ensures_bind, State.laneErr_ensures]
      refine State.load_ensures h fun v u hu => ?_
      simp [hP, hu]

@[simp] theorem State.keepElems_canonical {u : State} (h : u.Canonical) : (s.keepElems u c ea0).Canonical := by
  unfold State.keepElems
  split <;> simp [h]

@[simp] theorem State.bufferLocal_canonical {more : Bool} {qs : List (Nat × Nat)} :
    (s.bufferLocal c more bs qs).Canonical ↔ s.Canonical := by
  induction qs generalizing s more bs with
  | nil => rfl
  | cons q qs ih => simp [State.bufferLocal, ih]

@[simp] theorem loadLocalForm_canonical {t : Local} (h : s.Canonical) : Answer.Canonical (loadLocalForm maj size t s) := by
  simp [loadLocalForm, h]

@[simp] theorem storeLocalForm_canonical {t : Local} (h : s.Canonical) : Answer.Canonical (storeLocalForm maj size t s) := by
  simp [storeLocalForm, h]

/-! ### Fetch (Machine/Fetch) -/

theorem State.codeLine_canonical {u : State} (h : s.Canonical) (e : s.codeLine c va = some (pa, bs, u)) : u.Canonical := by
  unfold State.codeLine at e
  dsimp only at e
  split at e
  · cases e
  · split at e
    · cases e
    · next ht =>
      split at e
      · cases e; exact State.translate_canonical h ht
      · cases e

@[simp] theorem State.codeMeet_ensures {P : State → Prop} (h : s.Canonical) (hP : ∀ t, t.Canonical → P t) :
    (s.codeMeet c va n).Ensures P := by
  unfold State.codeMeet
  split
  · simp
  · simp
  · next ht =>
    have hu := State.codeLine_canonical h ht
    have he {a k : Nat} := State.eccMeet_ensures (pa := a) (n := k) hu hP
    split <;> split <;> simp [hP, hu, he]

@[simp] theorem State.fetchSyl_ensures {g : Seg} {P : Nat × State → Prop} (h : s.Canonical) (hP : ∀ w t, t.Canonical → P (w, t)) :
    (s.fetchSyl c g va).Ensures P := by
  simp only [State.fetchSyl, Run.ensures_bind]
  refine State.codeMeet_ensures h fun u hu => State.codeMeet_ensures hu fun u hu => State.codeMeet_ensures hu fun u hu => ?_
  split
  · simp only [Run.ensures_bind, Run.ensures_pure]
    refine Run.ensures_of_forall _ fun _ => hP _ _ ?_
    split <;> simp [hu]
  · simp

@[simp] theorem State.fetchGroup_ensures {P : List (Nat × Nat) × Seg × State → Prop} (h : s.Canonical)
    (hP : ∀ ws g t, t.Canonical → P (ws, g, t)) : (s.fetchGroup c pc).Ensures P := by
  simp only [State.fetchGroup, Run.ensures_bind]
  refine Run.ensures_of_forall _ fun g => State.fetchSyl_ensures h fun w u hu => ?_
  simp only [Run.ensures_ite, Run.ensures_bind, Run.ensures_pure, Run.ensures_illegal]
  refine ⟨fun _ => hP _ _ _ hu, fun _ => ⟨fun _ => trivial, fun _ => ⟨fun _ => trivial, fun _ => ?_⟩⟩⟩
  exact State.fetchSyl_ensures hu fun v u' hu' => by simp [hP, hu']

/-! ### y forms (Machine/WeaveVec) -/

@[simp] theorem yForm_canonical {rounds : Bool} {f : Ctx → Nat → Nat × Nat} (h : s.Canonical) :
    Answer.Canonical (yForm maj x g d a b n k rounds f s) := by simp [yForm, h]

@[simp] theorem yFloat_canonical {f : Fmt} {op : Rm → Nat → Nat → Nat → Nat → Nat × Nat} (h : s.Canonical) :
    Answer.Canonical (yFloat maj x f op t s) := by simp [yFloat, h]

@[simp] theorem yInt_canonical {op : Nat → Nat → Nat → Nat} (h : s.Canonical) : Answer.Canonical (yInt maj x op t s) := by simp [yInt, h]

@[simp] theorem yReduce_canonical {f : Nat × Nat → Nat × Nat → Nat × Nat} {ext : Nat → W64} {t : Bin} (h : s.Canonical) :
    Answer.Canonical (yReduce x f ext t s) := by simp [yReduce, h]

/-! ### v forms (Machine/FrameVec) -/

@[simp] theorem frameIf_canonical {ok : Bench → SlotName → Bool} {body : Nat → SlotName → State → Run State} (h : s.Canonical)
    (hb : ∀ b sl, (body b sl s).Ensures State.Canonical) : Answer.Canonical (frameIf maj x g d a bb ok body s) := by
  unfold frameIf
  split <;> simp [h, hb]

@[simp] theorem vForm_canonical {f : Bench → Nat → Nat × Nat} (h : s.Canonical) : Answer.Canonical (vForm maj x lat n g d a b f s) := by
  simp [vForm, h]

@[simp] theorem vTri_canonical {op : Nat → Nat → Nat → Nat × Nat} (h : s.Canonical) : Answer.Canonical (vTri maj x lat n op t s) := by
  simp [vTri, h]

@[simp] theorem vBin_canonical {op : Nat → Nat × Nat} {t : Bin} (h : s.Canonical) : Answer.Canonical (vBin maj x lat n op t s) := by
  simp [vBin, h]

@[simp] theorem laneForm_canonical {f : Bench → Nat → Nat} (h : s.Canonical) : Answer.Canonical (laneForm maj x lat g d a b f s) := by
  simp [laneForm, h]

@[simp] theorem vWiden_canonical {f : Fmt} {t : BinH7} (h : s.Canonical) : Answer.Canonical (vWiden x f t s) := by simp [vWiden, h]

@[simp] theorem vNarrow_canonical {src hi r : Nat} {conv : Rm → Nat → Nat → Nat × Nat} (h : s.Canonical) :
    Answer.Canonical (vNarrow maj x src g d a hi r conv s) := by
  simp [vNarrow, h]

@[simp] theorem vSame_canonical {conv : Rm → Nat → Nat → Nat × Nat} {t : CvtR} (h : s.Canonical) :
    Answer.Canonical (vSame x conv t s) := by
  simp [vSame, h]

@[simp] theorem vReduce_canonical {f : Nat × Nat → Nat × Nat → Nat × Nat} {t : Bin} (h : s.Canonical) :
    Answer.Canonical (vReduce x f t s) := by simp [vReduce, h]

@[simp] theorem State.endWrite_canonical {e : EndWrite} : (s.endWrite e).Canonical ↔ s.Canonical := by simp [State.endWrite]

/-! ### Scalar forms (Machine/Scalar) -/

@[simp] theorem triAlu_canonical {f : W64 → W64 → W64} (h : s.Canonical) : Answer.Canonical (triAlu maj x lat f t s) := by
  simp [triAlu, h]

@[simp] theorem binAlu_canonical {f : W64 → W64} {t : Bin} (h : s.Canonical) : Answer.Canonical (binAlu maj x lat f t s) := by
  simp [binAlu, h]

@[simp] theorem immAlu_canonical {raw : Nat} {imm : State → Run W64} {f : W64 → W64 → W64} (h : s.Canonical) :
    Answer.Canonical (immAlu maj x lat g d a raw imm f s) := by
  simp [immAlu, h]

@[simp] theorem triCmp_canonical {f : W64 → W64 → Bool} (h : s.Canonical) : Answer.Canonical (triCmp maj x f t s) := by simp [triCmp, h]

@[simp] theorem immCmp_canonical {f : W64 → W64 → Bool} {t : Imm6} (h : s.Canonical) : Answer.Canonical (immCmp maj x f t s) := by
  simp [immCmp, h]

@[simp] theorem predOp_canonical {f : Bool → Bool → Bool} (h : s.Canonical) : Answer.Canonical (predOp maj x g d a b f s) := by
  simp [predOp, h]

@[simp] theorem jumpReg_canonical {t : UnA} (h : s.Canonical) : Answer.Canonical (jumpReg x t s) := by simp [jumpReg, h]

/-! ### The matrix engine (Machine/Matrix) -/

@[simp] theorem mmForm_canonical {cls : MatClass} {sparse : Bool} {busy : Nat → Nat} {t : Mm} (h : s.Canonical) :
    Answer.Canonical (mmForm maj x cls sparse busy t s) := by simp [mmForm, h]

@[simp] theorem vdot_canonical {sat : Bool} (h : s.Canonical) : Answer.Canonical (vdot x n w sat t s) := by simp [vdot, h]

/-! ### Copies (Machine/Engines) -/

@[simp] theorem State.setBenchBar_canonical {o : BarObj} (h : s.Canonical) : (s.setBenchBar b off o).Canonical := by
  simp [State.setBenchBar, h]

@[simp] theorem State.setLocalBar_canonical {cl la : Nat} {o : BarObj} (h : s.Canonical) : (s.setLocalBar cl la o).Canonical :=
  Mem.writeLocal_canonical _ _ h

@[simp] theorem State.acceptCopy_ensures {clr : ClReg} {kindBad : Bool} {due : Nat} {linear : Option (Nat × Nat)}
    (h : s.Canonical) {P : State → Prop} (hP : ∀ t, t.Canonical → P t) :
    (s.acceptCopy b clr kindBad faddr due linear).Ensures P := by simp [State.acceptCopy, h, hP]

@[simp] theorem State.setCopy_canonical {c : Copy} : (s.setCopy id c).Canonical ↔ s.Canonical := by simp [State.setCopy]

@[simp] theorem State.request_canonical {j : Nat} : (s.request id j).Canonical ↔ s.Canonical := by
  unfold State.request
  split
  · simp
  · split <;> simp

@[simp] theorem State.dropCaches_canonical (h : s.Canonical) : (s.dropCaches pa n).Canonical := by
  simp [State.dropCaches, h, Mem.discard_canonical]

@[simp] theorem State.frameWrite_canonical (h : s.Canonical) : (s.frameWrite pa bs).Canonical := by simp [State.frameWrite, h]

@[simp] theorem State.slotWrite_canonical {q : Copy} {z : Granule} (h : s.Canonical) : (s.slotWrite id q z).Canonical := by
  unfold State.slotWrite
  extract_lets cut r
  have hr : r.1.Canonical := foldl_fst_canonical _ h fun a p ha => by
    split
    · exact State.frameWrite_canonical ha
    · exact ha
  split <;> simp [hr]

@[simp] theorem State.copyFault_canonical {q : Copy} {z : CopyElem × Nat × Nat × Nat} : (s.copyFault id q z).Canonical ↔ s.Canonical := by
  unfold State.copyFault
  extract_lets now t u
  have hu : u.Canonical ↔ t.Canonical := foldl_canonical_iff _ fun v g => by split <;> simp
  simp [hu, t]

@[simp] theorem State.slotStart_canonical (h : s.Canonical) : (s.slotStart id j).Canonical := by
  unfold State.slotStart
  split
  · exact h
  · split
    · exact h
    · dsimp only
      split
      · simpa using h
      · split
        · have hw := State.slotWrite_canonical (id := id) (q := ‹Copy›) (z := ‹Granule›) h
          split <;> simp [hw]
        · split
          · split <;> simp [h]
          · split <;> simp [h]

@[simp] theorem Copy.lands_canonical {c : Copy} {op : EndOp} : (c.lands s pa op).Canonical ↔ s.Canonical := by simp [Copy.lands]

@[simp] theorem Copy.landElem_canonical {q : Copy} {r : Nat} {z : State × Nat} : (q.landElem r z i).1.Canonical ↔ z.1.Canonical := by
  unfold Copy.landElem
  dsimp only
  split
  · rfl
  · simp

@[simp] theorem Copy.landLoad_canonical {q : Copy} (h : s.Canonical) : (q.landLoad s).1.Canonical :=
  foldl_fst_canonical _ h fun _ _ ha => foldl_fst_canonical _ ha fun _ _ hb => Copy.landElem_canonical.2 hb

@[simp] theorem Copy.landStore_canonical {q : Copy} (h : s.Canonical) : (q.landStore s).1.Canonical :=
  foldl_fst_canonical _ h fun _ _ ha => by
    dsimp only
    split
    · exact ha
    · exact Copy.lands_canonical.2 ha

@[simp] theorem Copy.notices_canonical {c : Copy} : (c.notices s).Canonical ↔ s.Canonical := by simp [Copy.notices]
@[simp] theorem State.copyFlags_canonical {f : Nat} : (s.copyFlags b f).Canonical ↔ s.Canonical := by simp [State.copyFlags]

@[simp] theorem State.retireCopy_canonical : (s.retireCopy id).Canonical ↔ s.Canonical := by
  unfold State.retireCopy
  split <;> simp

/-! ### Gangs, queues and replay (Machine/WeaveCtl) -/

@[simp] theorem State.closeProducer_canonical : (s.closeProducer g i).Canonical ↔ s.Canonical := by
  unfold State.closeProducer
  repeat' split
  all_goals simp

@[simp] theorem State.closeConsumer_canonical : (s.closeConsumer g i).Canonical ↔ s.Canonical := by
  unfold State.closeConsumer
  repeat' split
  all_goals simp

@[simp] theorem State.closeRole_canonical {role : Nat} : (s.closeRole g role).Canonical ↔ s.Canonical := by
  unfold State.closeRole
  split
  · refine foldl_canonical_iff _ fun t i => ?_
    split
    · simp
    · rfl
  · rfl

@[simp] theorem State.endGang_canonical (h : s.Canonical) : (s.endGang g).Canonical := by
  unfold State.endGang
  split
  · exact h
  · next gr _ =>
    have hd := foldl_canonical gr.cores (f := fun t k => (t.drainAll k).modCore k Core.release) h fun t k ht => by
      simp [ht]
    dsimp only
    split <;> simp [hd]

@[simp] theorem State.keepLeft_canonical {x : Ctx} : (s.keepLeft c x).Canonical ↔ s.Canonical := by simp [State.keepLeft]

@[simp] theorem State.endCtx_canonical (h : s.Canonical) : (s.endCtx c).Canonical := by
  have hwake {p : Prop} [Decidable p] {k : Nat} {f : Ctx → Ctx} {u : State} (hu : u.Canonical) :
      (if p then u.modCtx k f else u).Canonical := by
    simp [hu]
  have hclose {p : Prop} [Decidable p] {g r : Nat} {u : State} (hu : u.Canonical) :
      (if p then u.closeRole g r else u).Canonical := by simp [hu]
  have hend {p : Prop} [Decidable p] {g : Nat} {u : State} (hu : u.Canonical) : (if p then u.endGang g else u).Canonical := by simp [hu]
  have hleft : ((if slotOf c = 0 then s.keepLeft c (s.ctx c) else s).dropCtx c).Canonical := by simp [h]
  exact hend (hclose (hwake hleft))

@[simp] theorem State.modGBar_canonical {f : GBar → GBar} : (s.modGBar g b f).Canonical ↔ s.Canonical := by
  unfold State.modGBar
  split <;> simp

@[simp] theorem State.gbarArrive_canonical {addr : Nat} (h : s.Canonical) : (s.gbarArrive c addr t).Canonical := by
  unfold State.gbarArrive
  split <;> simp [h]

@[simp] theorem State.gbarBody_ensures {P : State → Prop} (h : s.Canonical) (hP : ∀ t, t.Canonical → P t) :
    (s.gbarBody c t).Ensures P := by
  have hu := State.gbarArrive_canonical (c := c) (addr := s.ctl.syl) (t := t) h
  simp only [State.gbarBody, Run.ensures_ite, Run.ensures_ok, Run.ensures_waitFor]
  exact ⟨fun _ => hP _ (State.dst_canonical (by simp [hu])), fun _ => trivial⟩

@[simp] theorem State.withdrawAll_canonical (h : s.Canonical) : (s.withdrawAll c).Canonical := by simp [State.withdrawAll, h]

@[simp] theorem State.blockWords_ensures {z : Seg} {P : List Nat × State → Prop} (h : s.Canonical) (hP : ∀ ws t, t.Canonical → P (ws, t)) :
    (s.blockWords c z n va).Ensures P := by
  induction n generalizing s va P with
  | zero => simp [State.blockWords, h, hP]
  | succ n ih =>
    unfold State.blockWords
    split
    · split
      · next hf =>
        simp only [Run.ensures_bind]
        exact ih (State.fetchSyl_ensures h (P := fun r => r.2.Canonical) (fun _ _ ht => ht) _ hf) fun ws u hu => by simp [hP, hu]
      · simp
      · simp
    · simp

@[simp] theorem State.repfCheck_ensures {t : Repf} (h : s.Canonical)
    {P : List Nat × Seg × State → Prop} (hP : ∀ xs g t, t.Canonical → P (xs, g, t)) :
    (s.repfCheck c t n).Ensures P := by simp +contextual [State.repfCheck, h, hP]

@[simp] theorem State.stageCheck_ensures {z : W64} {P : Nat × Nat × State → Prop} (h : s.Canonical)
    (hP : ∀ m pa t, t.Canonical → P (m, pa, t)) : (s.stageCheck c z).Ensures P := by
  simp only [State.stageCheck, Run.ensures_bind]
  refine State.checkPages_ensures h fun ps u hu => ?_
  split
  · split
    · dsimp only
      split
      · simp [hP, hu]
      · simp
    · simp
  · simp

/-! ### Copy and barrier forms (Machine/EngineForms) -/

@[simp] theorem State.frameCopy_ensures (h : s.Canonical) {P : State → Prop} (hP : ∀ t, t.Canonical → P t) :
    (s.frameCopy b d a kind).Ensures P := by simp +contextual [State.frameCopy, h, hP]

@[simp] theorem State.weaveCopy_ensures (h : s.Canonical) {P : State → Prop} (hP : ∀ t, t.Canonical → P t) :
    (s.weaveCopy c d kind).Ensures P := by simp [State.weaveCopy, h, hP]

@[simp] theorem cpy_canonical (h : s.Canonical) : Answer.Canonical (cpy x g d a b kind s) := by simp [cpy, h]

@[simp] theorem State.readWords_ensures {P : List Byte × State → Prop} (h : s.Canonical) (hP : ∀ bs t, t.Canonical → P (bs, t)) :
    (s.readWords c ea n).Ensures P := by
  induction n generalizing s ea P with
  | zero => simp [State.readWords, h, hP]
  | succ n ih =>
    simp only [State.readWords, Run.ensures_bind]
    refine State.load_ensures h fun v u hu => ?_
    exact ih hu fun bs t ht => by simp [hP, ht]

@[simp] theorem State.readCut_ensures {P : List Byte × State → Prop} (h : s.Canonical) (hP : ∀ bs t, t.Canonical → P (bs, t)) :
    (s.readCut c ea).Ensures P := by
  simp only [State.readCut, Run.ensures_bind]
  refine State.readWords_ensures h fun bs u hu => ?_
  exact State.readWords_ensures hu fun ds v hv => by simp [hP, hv]

/-! ### Jigs and channels (Machine/JigForms) -/

@[simp] theorem State.setChannel_canonical {ch : Nat} {c : Channel} : (s.setChannel ch c).Canonical ↔ s.Canonical := by
  simp [State.setChannel]

@[simp] theorem State.send_canonical {m : Message} : (s.send m).Canonical ↔ s.Canonical := by simp [State.send]

@[simp] theorem State.landEntry_canonical {ch now : Nat} {v : W1024} : (s.landEntry ch now v).Canonical ↔ s.Canonical := by
  unfold State.landEntry
  split <;> simp

@[simp] theorem State.wake_canonical {p : Wait → Bool} {z : Nat → Act} (h : s.Canonical) : Answer.Canonical (s.wake c p z) := by
  unfold State.wake
  split
  · simp
  · split
    · simp
    · split <;> simp [h]

/-! ### Remote requests (Machine/RemoteForms) -/

@[simp] theorem State.spanMeet_canonical : (s.spanMeet asid va ps).Canonical ↔ s.Canonical := by
  induction ps generalizing s va with
  | nil => rfl
  | cons p ps ih => simp [State.spanMeet, ih]

@[simp] theorem State.spanWalks_canonical : (s.spanWalks asid va ps).Canonical ↔ s.Canonical := by
  induction ps generalizing s va with
  | nil => rfl
  | cons p ps ih => simp [State.spanWalks, ih]

@[simp] theorem State.spanPut_canonical (h : s.Canonical) : (s.spanPut ps bs).Canonical := by
  induction ps generalizing s bs with
  | nil => exact h
  | cons p ps ih => exact ih (Mem.enginePut_canonical _ _ _ _ h)

@[simp] theorem State.spanEmpty_canonical (h : s.Canonical) : (s.spanEmpty ps).Canonical := by
  simp +contextual [State.spanEmpty, h, Mem.setEmpty_canonical]

@[simp] theorem State.readReq_ensures {form : Option Nat} (h : s.Canonical) {P : WorkReq × State → Prop} (hP : ∀ w t, t.Canonical → P (w, t)) :
    (s.readReq c a form).Ensures P := by simp +contextual [State.readReq, h, hP]

@[simp] theorem State.setReq_canonical : (s.setReq id r).Canonical ↔ s.Canonical := by simp [State.setReq]

@[simp] theorem State.completeReq_canonical : (s.completeReq id status).Canonical ↔ s.Canonical := by
  unfold State.completeReq
  repeat' split
  all_goals simp

@[simp] theorem State.fetchConn_canonical {k : Conn} : (s.fetchConn conn k).Canonical ↔ s.Canonical := by simp [State.fetchConn]

@[simp] theorem State.useConn_canonical : (s.useConn conn).Canonical ↔ s.Canonical := by
  unfold State.useConn
  split <;> simp

@[simp] theorem State.startReq_ensures (h : s.Canonical) {P : State → Prop} (hP : ∀ t, t.Canonical → P t) :
    (s.startReq id).Ensures P := by
  unfold State.startReq
  split <;> simp [h, hP]

@[simp] theorem State.issueReq_canonical (h : s.Canonical) : (s.issueReq c d r).2.Canonical := by simp [State.issueReq, h]

@[simp] theorem rmaForm_canonical {t : Bin} (h : s.Canonical) : Answer.Canonical (rmaForm maj x op t s) := by
  refine weave_canonical h fun c => (Run.ensures_bind _ _).2 (State.readReq_ensures (State.src_canonical.2 h) fun w u hu => ?_)
  simp only [Run.ensures_ite, Run.ensures_waitFor]
  refine ⟨fun _ => trivial, fun _ => State.startReq_ensures (State.issueReq_canonical ?_) fun _ ht => ht⟩
  split <;> simp [hu]

/-! ### The loop buffer (Machine/LoopBuffer) -/

@[simp] theorem State.beginPrefetch_canonical {hdr : Nat} : (s.beginPrefetch b hdr).Canonical ↔ s.Canonical := by
  unfold State.beginPrefetch
  dsimp only
  split
  · split <;> simp
  · simp
  · simp

@[simp] theorem State.feed_canonical : (s.feed b).Canonical ↔ s.Canonical := by
  unfold State.feed
  dsimp only
  split
  · rfl
  · split
    · simp
    · split <;> simp

/-! ### Landings, holds and mortises (Machine/FrameEvents) -/

@[simp] theorem State.modFrame_canonical {f : Frame → Frame} : (s.modFrame f).Canonical ↔ s.Canonical := by simp [State.modFrame]
@[simp] theorem State.packageFault_canonical : (s.packageFault code faddr info).Canonical ↔ s.Canonical := by simp [State.packageFault]

@[simp] theorem State.startBlock_canonical {e : Nat} : (s.startBlock e b).Canonical ↔ s.Canonical := by
  unfold State.startBlock
  dsimp only
  split <;> simp

@[simp] theorem State.addCause_canonical {bench about held : Nat} : (s.addCause code bench idx about held).Canonical ↔ s.Canonical := by
  simp [State.addCause]

@[simp] theorem State.holdTick_canonical : s.holdTick.Canonical ↔ s.Canonical := by simp [State.holdTick]

@[simp] theorem State.landOn_canonical {p : Effect → Bool} (h : s.Canonical) : Answer.Canonical (s.landOn b p) := by
  simp [State.landOn, h]

@[simp] theorem State.landRows_canonical {cls acc ord : Nat} {rows : List (Nat × List Byte)} :
    (s.landRows b cls acc ord rows).Canonical ↔ s.Canonical := by simp [State.landRows]

@[simp] theorem State.postMrt_canonical : (s.postMrt asid).Canonical ↔ s.Canonical := by simp [State.postMrt]

@[simp] theorem State.closeMortise_canonical {m : Nat} (h : s.Canonical) : Answer.Canonical (s.closeMortise m) := by
  unfold State.closeMortise
  split <;> simp [h]

@[simp] theorem State.holdTenon_canonical {m : Nat} : (s.holdTenon m).Canonical ↔ s.Canonical := by simp [State.holdTenon]

@[simp] theorem State.applyLatch_canonical {l : MortiseLatch} (h : s.Canonical) : (s.applyLatch l).Canonical := by
  simp +contextual [State.applyLatch, h]

/-! ### Queues (Machine/Queues) -/

@[simp] theorem State.modQueue_canonical {f : Queue → Queue} : (s.modQueue q f).Canonical ↔ s.Canonical := by simp [State.modQueue]
@[simp] theorem State.complete_canonical : (s.complete q status index frec).Canonical ↔ s.Canonical := by simp [State.complete]

@[simp] theorem State.completeFrame_canonical : (s.completeFrame q status index frec).Canonical ↔ s.Canonical := by
  simp [State.completeFrame]

@[simp] theorem State.interrupt_canonical : (s.interrupt q).Canonical ↔ s.Canonical := by simp [State.interrupt]
@[simp] theorem State.dropLaunch_canonical : (s.dropLaunch id l).Canonical ↔ s.Canonical := by simp [State.dropLaunch]
@[simp] theorem State.dropSpent_canonical {c : Completion} : (s.dropSpent q c).Canonical ↔ s.Canonical := by simp [State.dropSpent]
@[simp] theorem State.busy_canonical : s.busy.Canonical ↔ s.Canonical := by simp [State.busy]
@[simp] theorem State.eccComplete_canonical : (s.eccComplete q index at_).Canonical ↔ s.Canonical := by simp [State.eccComplete]

/-! ### Frame launches (Machine/FrameLaunch) -/

@[simp] theorem State.armBenches_canonical {es : List TtEntry} : (s.armBenches es).Canonical ↔ s.Canonical :=
  foldl_canonical_iff _ fun t b => by split <;> simp

@[simp] theorem State.seatLaunch_canonical {b : Built} : (s.seatLaunch b).Canonical ↔ s.Canonical := by simp [State.seatLaunch]

@[simp] theorem State.startFrame_canonical (h : s.Canonical) : s.startFrame.Canonical := by
  unfold State.startFrame
  split
  · exact h
  · exact ⟨h.1, h.2⟩

@[simp] theorem State.dropPause_canonical : s.dropPause.Canonical ↔ s.Canonical := by
  unfold State.dropPause
  split <;> simp

@[simp] theorem State.choosePause_canonical {p : Nat} : (s.choosePause q save p).Canonical ↔ s.Canonical := by simp [State.choosePause]

@[simp] theorem State.pauseEarly_canonical : s.pauseEarly.Canonical ↔ s.Canonical := by
  unfold State.pauseEarly
  split <;> simp

@[simp] theorem State.refusePending_canonical {dtag : Nat} : (s.refusePending dtag).Canonical ↔ s.Canonical := by
  unfold State.refusePending
  split <;> simp

@[simp] theorem State.hearReady_canonical {n : Nat × Nat × Nat × Nat} : (s.hearReady n).Canonical ↔ s.Canonical := by
  simp [State.hearReady]

@[simp] theorem State.forwardPause_canonical : s.forwardPause.Canonical ↔ s.Canonical := by
  unfold State.forwardPause
  split <;> simp

@[simp] theorem State.segmentsHeld_canonical (h : s.Canonical) : s.segmentsHeld.Canonical := by
  unfold State.segmentsHeld
  split <;> simp [h]

@[simp] theorem State.benchSubtract_canonical (h : s.Canonical) : (s.benchSubtract b off n).Canonical := by simp [State.benchSubtract, h]
@[simp] theorem State.endOne_canonical {e : EndWrite} (h : s.Canonical) : (s.endOne e).Canonical := by simp [State.endOne, h]

@[simp] theorem State.finishWrites_canonical (h : s.Canonical) : s.finishWrites.Canonical := by
  unfold State.finishWrites
  extract_lets f s1 s2 s3 s4
  have h1 : s1.Canonical := foldl_canonical _ h fun t e ht => State.endOne_canonical ht
  have h2 : s2.Canonical := foldl_canonical _ h1 fun t u ht => State.benchSubtract_canonical ht
  simp [s4, s3, h2]

@[simp] theorem State.landRest_canonical (h : s.Canonical) : (s.landRest b).Canonical :=
  foldl_canonical _ h fun _ _ ht => foldl_canonical _ ht fun u _ hu => u.mem.rawPut_canonical _ _ hu

@[simp] theorem State.endFrame_canonical (h : s.Canonical) : (s.endFrame status frec).Canonical := by
  unfold State.endFrame
  split <;> simp +contextual [h]

@[simp] theorem State.faultEnd_canonical (h : s.Canonical) : (s.faultEnd f n at_).Canonical := by
  unfold State.faultEnd
  split <;> simp [h]

@[simp] theorem State.endEarlier_canonical {f port : Nat} (h : s.Canonical) : (s.endEarlier code f port).Canonical := by
  unfold State.endEarlier
  split <;> simp [h]

@[simp] theorem State.settle_canonical : s.settle.Canonical ↔ s.Canonical := by simp [State.settle]

/-! ### A frame launch saved and resumed (Machine/FrameSave) -/

@[simp] theorem State.putAt_canonical {ps : List (Nat × List Byte)} (h : s.Canonical) : (s.putAt base ps).Canonical := by
  simp +contextual [State.putAt, h, Mem.putBytes_canonical]

@[simp] theorem State.saveBench_canonical (h : s.Canonical) : (s.saveBench save b).Canonical := by simp [State.saveBench, h]
@[simp] theorem State.saveHeader_canonical (h : s.Canonical) : (s.saveHeader save).Canonical := by simp [State.saveHeader, h]

@[simp] theorem State.restoreSram_canonical (h : s.Canonical) : (s.restoreSram save).Canonical :=
  foldl_canonical _ (Mem.filterCells_canonical _ h) fun _ _ ht => foldl_canonical _ ht fun u _ hu => u.mem.rawPut_canonical _ _ hu

@[simp] theorem State.meetSave_canonical : (s.meetSave save).Canonical ↔ s.Canonical := by
  unfold State.meetSave
  dsimp only
  split <;> simp

@[simp] theorem State.resumeFrame_canonical {p : Frame} (h : s.Canonical) : (s.resumeFrame q save p).Canonical := by
  simp [State.resumeFrame, h]

/-! ### Weave launches (Machine/WeaveLaunch) -/

@[simp] theorem State.keepRefused_canonical : (s.keepRefused q l).Canonical ↔ s.Canonical := by simp [State.keepRefused]

@[simp] theorem State.readRecord_canonical : (s.readRecord q).Canonical ↔ s.Canonical := by
  unfold State.readRecord
  dsimp only
  split <;> simp

@[simp] theorem State.readRecords_canonical : (s.readRecords q n).Canonical ↔ s.Canonical := by
  induction n generalizing s with
  | zero => rfl
  | succ n ih => simp [State.readRecords, ih]

@[simp] theorem State.endDeferrals_canonical {old : Nat} : (s.endDeferrals die old).Canonical ↔ s.Canonical := by
  simp [State.endDeferrals]

@[simp] theorem State.fuse_canonical {fused : Bool} : (s.fuse cl fused).Canonical ↔ s.Canonical := by simp [State.fuse]

@[simp] theorem State.seatRole_canonical (h : s.Canonical) : (s.seatRole l gang core role).Canonical :=
  Mem.filterLocal_canonical _ (m := ((s.acquire core).modCore core _).mem) (State.acquire_canonical.2 h)

@[simp] theorem State.saveGang_canonical {gr : Gang} (h : s.Canonical) : (s.saveGang base gr).Canonical :=
  foldl_canonical _ (State.putAt_canonical h) fun _ _ ht => State.putAt_canonical (State.putAt_canonical ht)

@[simp] theorem State.loadRole_canonical (h : s.Canonical) : (s.loadRole l base gang idx core role).Canonical := by
  unfold State.loadRole
  extract_lets rb live rd s1 s2
  have h1 : s1.Canonical := (foldl_canonical_iff _ fun t j => by simp).2 h
  have h2 : s2.Canonical := by simpa [s2] using h1
  exact Mem.writeLocal_canonical _ _ h2

@[simp] theorem State.placeGang_canonical (h : s.Canonical) : (s.placeGang id l idx cl).Canonical := by
  unfold State.placeGang
  extract_lets gid cores saved base pipes g s1 s2 s3
  clear_value saved
  have h1 : s1.Canonical := by simp [s1, h]
  have h2 : s2.Canonical := foldl_canonical _ h1 fun t r ht => by
    have hu := State.seatRole_canonical (l := l) (gang := gid) (core := r.2) (role := r.1) ht
    dsimp only
    split
    · exact State.loadRole_canonical hu
    · exact State.setCtx_canonical.2 hu
  have h3 : s3.Canonical := State.setLaunch_canonical.2 h2
  split
  · exact h3
  · split <;> simp [h3]

@[simp] theorem State.setDispatcher_canonical {d : Dispatcher} : (s.setDispatcher die d).Canonical ↔ s.Canonical := by
  simp [State.setDispatcher]

@[simp] theorem State.reserve_canonical {r : Option (Nat × Nat × Nat)} : (s.reserve die r).Canonical ↔ s.Canonical := by
  simp [State.reserve]

@[simp] theorem State.unreserve_canonical {p : Nat × Nat × Nat → Bool} : (s.unreserve p).Canonical ↔ s.Canonical :=
  foldl_canonical_iff _ fun t d => by
    split
    · split <;> simp
    · rfl

@[simp] theorem State.consider_canonical {first : Bool} {c : Candidate} (h : s.Canonical) : (s.consider die first c).Canonical := by
  unfold State.consider
  repeat' split
  all_goals simp [h]

@[simp] theorem State.considerAll_canonical {first : Bool} {cs : List Candidate} (h : s.Canonical) :
    (s.considerAll die first cs).Canonical := by
  induction cs generalizing s first with
  | nil => exact h
  | cons z cs ih => exact ih (State.consider_canonical h)

@[simp] theorem State.offerTo_canonical {z : Candidate} {unused : List Nat} {ds : List Nat} (h : s.Canonical) :
    (s.offerTo z unused ds).1.Canonical := by
  induction ds generalizing s unused with
  | nil => exact h
  | cons d ds ih =>
    unfold State.offerTo
    dsimp only
    split
    · exact State.consider_canonical h
    · exact ih (State.consider_canonical h)

@[simp] theorem State.considerBoth_canonical {l0 l1 cs : List Candidate} {unused turn : List Nat} (h : s.Canonical) :
    (s.considerBoth l0 l1 unused turn cs).Canonical := by
  induction cs generalizing s unused turn with
  | nil => exact h
  | cons z cs ih =>
    unfold State.considerBoth
    split
    · exact ih h
    · exact ih (State.offerTo_canonical h)

@[simp] theorem State.dropDeferred_canonical : (s.dropDeferred die).Canonical ↔ s.Canonical := by
  unfold State.dropDeferred
  repeat' split
  all_goals simp

@[simp] theorem State.disarm_canonical : (s.disarm id).Canonical ↔ s.Canonical := by simp [State.disarm]
@[simp] theorem State.leave_canonical : (s.leave id n l).Canonical ↔ s.Canonical := by simp [State.leave]

@[simp] theorem State.settleStores_canonical {drain : Bool} (h : s.Canonical) : (s.settleStores core drain n).Canonical := by
  induction n generalizing s drain with
  | zero => exact h
  | succ n ih =>
    unfold State.settleStores
    split
    · exact h
    · next e rest _ =>
      have ht : (s.modCore core fun k => { k with sb := rest }).drew.Canonical := by simp [h]
      exact ih (by simp [ht, State.performStore_canonical _ core e ht])

@[simp] theorem State.killGang_canonical {g : Gang} (h : s.Canonical) : (s.killGang gid g).Canonical := by
  simp +contextual [State.killGang, h]

@[simp] theorem State.killGangs_canonical (h : s.Canonical) : (s.killGangs id).Canonical := by simp +contextual [State.killGangs, h]

@[simp] theorem State.killLaunch_canonical {freeGroups : Bool} (h : s.Canonical) : (s.killLaunch id l freeGroups).Canonical := by
  simp [State.killLaunch, h]

@[simp] theorem State.faultLaunchEnd_canonical (h : s.Canonical) : (s.faultLaunchEnd id l).Canonical := by
  unfold State.faultLaunchEnd
  split <;> simp [h]

/-! ### Pre-emption (Machine/Preempt) -/

@[simp] theorem State.haltCtx_canonical (h : s.Canonical) : (s.haltCtx c).Canonical := by simp [State.haltCtx, h]

@[simp] theorem State.preempted_canonical : (s.preempted id).Canonical ↔ s.Canonical := by
  unfold State.preempted
  split <;> simp

@[simp] theorem State.noTarget_canonical : (s.noTarget q).Canonical ↔ s.Canonical := by simp [State.noTarget]

@[simp] theorem State.preemptWeave_canonical : (s.preemptWeave q save).Canonical ↔ s.Canonical := by
  unfold State.preemptWeave
  split
  · simp
  · split <;> simp

@[simp] theorem State.preemptFrame_canonical : (s.preemptFrame q save).Canonical ↔ s.Canonical := by simp [State.preemptFrame]

@[simp] theorem State.resumeWeave_canonical : (s.resumeWeave q save).Canonical ↔ s.Canonical := by
  unfold State.resumeWeave
  split
  · simp
  · split <;> simp

@[simp] theorem State.resumeHead_canonical (h : s.Canonical) : (s.resumeHead q save).Canonical := by
  unfold State.resumeHead
  split <;> simp [h]

@[simp] theorem State.disable_canonical : (s.disable q).Canonical ↔ s.Canonical := by simp [State.disable]

@[simp] theorem State.cancelFrame_canonical {l : FrameLaunch} (h : s.Canonical) : (s.cancelFrame l).Canonical := by
  simp [State.cancelFrame, h]

@[simp] theorem State.cancelAll_canonical (h : s.Canonical) : (s.cancelAll q).Canonical := by
  unfold State.cancelAll
  split
  · refine foldl_canonical _ h fun t id ht => ?_
    split
    · split <;> simp [ht]
    · exact ht
  · dsimp only
    repeat' split
    all_goals simp [h]

@[simp] theorem State.destroy_canonical (h : s.Canonical) : (s.destroy q).Canonical := by simp [State.destroy, h]

/-! ### Block transfers (Machine/BlockTransfer) -/

@[simp] theorem State.writeSpot_canonical {p : Spot} (h : s.Canonical) : (s.writeSpot p bs).Canonical := by
  unfold State.writeSpot
  split
  · exact Mem.writeLocal_canonical _ _ h
  · split
    · simpa using h
    · exact Mem.enginePut_canonical _ _ _ _ h

@[simp] theorem State.engineFill_canonical {l : Leaf} : (s.engineFill cl id asid va l).Canonical ↔ s.Canonical := by
  simp [State.engineFill]

@[simp] theorem State.bteDense_ensures {q : BteCopy} {z : Cut} {P : Spot × State → Prop} (h : s.Canonical)
    (hP : ∀ d t, t.Canonical → P (d, t)) : (s.bteDense cl id q z i).Ensures P := by
  unfold State.bteDense
  dsimp only
  split
  · simp [h, hP]
  · split <;> simp [h, hP]

@[simp] theorem State.putSpot_canonical {p : Spot} {half odd : Nat} (h : s.Canonical) : (s.putSpot p half odd v).Canonical := by
  simp [State.putSpot, h]

@[simp] theorem State.eccSpot_ensures {p : Spot} (h : s.Canonical) {P : State → Prop} (hP : ∀ t, t.Canonical → P t) :
    (s.eccSpot p n i).Ensures P := by
  unfold State.eccSpot
  split <;> simp [h, hP]

@[simp] theorem State.bteStep_ensures {q : BteCopy} {z : Cut} {P : State × Nat → Prop} (h : s.Canonical)
    (hP : ∀ t n, t.Canonical → P (t, n)) : (s.bteStep cl id q z i).Ensures P := by
  unfold State.bteStep
  split
  · simp only [Run.ensures_ite, Run.ensures_ok, Run.ensures_bind]
    refine ⟨fun _ => hP _ _ h, fun _ => State.bteDense_ensures h fun d u hu => ?_⟩
    simp [hP, hu]
  · simp only [Run.ensures_bind]
    refine Run.ensures_of_forall _ fun e => State.bteDense_ensures (State.engineFill_canonical.2 h) fun d u hu => ?_
    have hputs {u : State} {n : Nat} {p : Spot} {k o v : Nat} (hu : u.Canonical) : P (u.putSpot p k o v, n) := hP _ _ (by simp [hu])
    have hwrites {u : State} {n : Nat} {p : Spot} {bs : List Byte} (hu : u.Canonical) : P (u.writeSpot p bs, n) := hP _ _ (by simp [hu])
    simp only [Run.ensures_ite, Run.ensures_bind, Run.ensures_pure]
    refine ⟨fun _ => State.eccSpot_ensures hu fun t ht => State.eccSpot_ensures ht fun t ht => ?_,
      fun _ => State.eccSpot_ensures hu fun t ht => ?_⟩
    all_goals simp +contextual [hputs, hwrites, ht]

@[simp] theorem State.bteRun_canonical {q : BteCopy} {z : Cut} {later is : List Nat} {fl : Nat} (h : s.Canonical) :
    (s.bteRun cl id q z later is fl).1.Canonical := by
  induction is generalizing s fl with
  | nil => exact h
  | cons i is ih =>
    unfold State.bteRun
    split
    · next ht => exact ih (State.bteStep_ensures h (P := fun r => r.1.Canonical) (fun _ _ hu => hu) _ ht)
    · exact h

@[simp] theorem State.setBte_canonical {q : BteCopy} : (s.setBte cl id q).Canonical ↔ s.Canonical := by simp [State.setBte]
@[simp] theorem State.dropBte_canonical : (s.dropBte cl id).Canonical ↔ s.Canonical := by simp [State.dropBte]

@[simp] theorem State.bteNotice_canonical {q : BteCopy} {c : Cut} (h : s.Canonical) : (s.bteNotice cl q c n).Canonical := by
  unfold State.bteNotice
  dsimp only
  split <;> simp [h]

/-! ### The fabric (Machine/Fabric) -/

@[simp] theorem State.rmaFault_canonical {e : Stop} : (s.rmaFault r e).Canonical ↔ s.Canonical := by
  unfold State.rmaFault
  split <;> simp

@[simp] theorem State.placeReq_canonical {data : List Nat} (h : s.Canonical) : (s.placeReq id r data status).Canonical := by
  unfold State.placeReq
  split <;> simp [h]

@[simp] theorem State.turnAway_canonical : (s.turnAway conn).Canonical ↔ s.Canonical := by
  unfold State.turnAway
  split <;> simp

@[simp] theorem State.fireReq_ensures (h : s.Canonical) {P : State → Prop} (hP : ∀ t, t.Canonical → P t) :
    (s.fireReq id r).Ensures P := by
  unfold State.fireReq
  dsimp only
  split <;> simp +contextual [h, hP]

@[simp] theorem State.remoteAmo_ensures {rq : RemoteRequest} {P : W64 × State → Prop} (h : s.Canonical)
    (hP : ∀ v t, t.Canonical → P (v, t)) : (s.remoteAmo asid rq).Ensures P := by
  simp only [State.remoteAmo, Run.ensures_bind]
  refine Run.ensures_of_forall _ fun _ => Run.ensures_of_forall _ fun ps => Run.ensures_of_forall _ fun _ => Run.ensures_of_forall _ fun _ => ?_
  have hm := State.spanMeet_canonical (asid := asid) (va := rq.addr) (ps := ps).2 h
  split <;> simp [hP, hm, Mem.putBytes_canonical]

@[simp] theorem State.answerAmo_canonical {rq : RemoteRequest} (h : s.Canonical) : (s.answerAmo asid rq).Canonical := by
  unfold State.answerAmo
  split
  · next ht => exact State.send_canonical.2 (State.remoteAmo_ensures h (P := fun r => r.2.Canonical) (fun _ _ hu => hu) _ ht)
  · exact State.send_canonical.2 h

@[simp] theorem State.setConn_canonical {k : Conn} : (s.setConn conn k).Canonical ↔ s.Canonical := by simp [State.setConn]
@[simp] theorem State.endConn_canonical : (s.endConn conn).Canonical ↔ s.Canonical := by simp [State.endConn]

@[simp] theorem State.makeRoom_canonical (h : s.Canonical) : s.makeRoom.Canonical := by
  unfold State.makeRoom
  split
  · exact h
  · split <;> simp [h, Mem.putBytes_canonical]

@[simp] theorem State.ccResult_canonical {res : Nat} : (s.ccResult res).Canonical ↔ s.Canonical := by simp [State.ccResult]

@[simp] theorem State.openConn_canonical {desc : List Byte} (h : s.Canonical) : (s.openConn asid conn desc).Canonical := by
  simp [State.openConn, h]

@[simp] theorem State.closeConn_canonical : (s.closeConn asid conn).Canonical ↔ s.Canonical := by
  unfold State.closeConn
  split <;> simp

@[simp] theorem State.ccBegin_canonical {opens : Bool} : (s.ccBegin opens asid conn).Canonical ↔ s.Canonical := by simp [State.ccBegin]

@[simp] theorem State.ccFinish_canonical (h : s.Canonical) : s.ccFinish.Canonical := by
  unfold State.ccFinish
  split <;> simp [h]

@[simp] theorem State.setSwitch_canonical {sq : Nat} {e : SwitchEntry} : (s.setSwitch gid sq e).Canonical ↔ s.Canonical := by
  simp [State.setSwitch]

@[simp] theorem State.dropSwitch_canonical {sq : Nat} : (s.dropSwitch gid sq).Canonical ↔ s.Canonical := by simp [State.dropSwitch]

@[simp] theorem State.joinEntry_canonical {e : SwitchEntry} {c : Contribution} : (s.joinEntry e c).Canonical ↔ s.Canonical := by
  simp [State.joinEntry]

@[simp] theorem State.putSum_canonical {pas : List (Nat × Bool)} {vs : List Nat} (h : s.Canonical) : (s.putSum pas vs).Canonical := by
  induction pas generalizing s vs with
  | nil => exact h
  | cons p pas ih =>
    cases vs with
    | nil => exact h
    | cons v vs => exact ih (Mem.enginePut_canonical _ _ _ _ h)

@[simp] theorem State.purge_canonical {r : Shootdown} : (s.purge r).Canonical ↔ s.Canonical := by simp [State.purge]
@[simp] theorem State.setSdq_canonical {l : List Shootdown} : (s.setSdq die l).Canonical ↔ s.Canonical := by simp [State.setSdq]
@[simp] theorem State.sdFlag_canonical {bit : Nat} : (s.sdFlag die bit).Canonical ↔ s.Canonical := by simp [State.sdFlag]

@[simp] theorem State.askShootdown_canonical {r : Shootdown} : (s.askShootdown die r).Canonical ↔ s.Canonical := by
  simp [State.askShootdown]

/-! ### The host (Machine/HostSide) -/

@[simp] theorem State.modHost_canonical {f : Hst → Hst} : (s.modHost f).Canonical ↔ s.Canonical := by simp [State.modHost]

@[simp] theorem State.queueWrite_canonical {reg : Nat} : (s.queueWrite q reg v).Canonical ↔ s.Canonical := by
  unfold State.queueWrite
  split
  · simp
  · split <;> simp

@[simp] theorem State.configWrite_canonical {f : Hst → Hst} : (s.configWrite f).Canonical ↔ s.Canonical := by simp [State.configWrite]
@[simp] theorem State.setKnot_canonical {t : Nat} : (s.setKnot t w v).Canonical ↔ s.Canonical := by simp [State.setKnot]
@[simp] theorem State.answer_canonical : (s.answer v).Canonical ↔ s.Canonical := by simp [State.answer]

@[simp] theorem State.hostAtomic_canonical {cmp : Nat} (h : s.Canonical) : (s.hostAtomic op pa v cmp).Canonical := by
  unfold State.hostAtomic
  dsimp only
  split <;> simp [h, Mem.putBytes_canonical]

@[simp] theorem State.sample_canonical {seconds : Nat} : (s.sample seconds).Canonical ↔ s.Canonical := by simp [State.sample]
@[simp] theorem State.powerOff_canonical : s.powerOff.Canonical := Mem.reset_canonical

@[simp] theorem State.clockHeard_canonical {member : Option Nat} : (s.clockHeard member v).Canonical ↔ s.Canonical := by
  simp [State.clockHeard]

@[simp] theorem State.leaveDomain_canonical : s.leaveDomain.Canonical ↔ s.Canonical := by simp [State.leaveDomain]
@[simp] theorem State.alignFails_canonical : s.alignFails.Canonical ↔ s.Canonical := by simp [State.alignFails]

@[simp] theorem State.noteDemand_canonical : s.noteDemand.Canonical ↔ s.Canonical := by
  unfold State.noteDemand
  split <;> simp

/-! ### Traps and system forms (Machine/System) -/

@[simp] theorem State.trapNow_canonical : (s.trapNow c n).Canonical ↔ s.Canonical := by simp [State.trapNow]

end Sys2Proof.Machine
end

section

/-! ## O60: instructions and events -/

namespace Sys2Proof.Machine

variable {s : State} {t : Tri} {asid b c conn die ectr gid gr id m off q save sq v : Nat} {data : List Nat}

/-! ### Loads and stores (Machine/WeaveMem) -/

@[simp] theorem execLdy_canonical {t : Imm6} (h : s.Canonical) : Answer.Canonical (execLdy t s) := by simp [execLdy, h]
@[simp] theorem execSty_canonical {t : Imm6} (h : s.Canonical) : Answer.Canonical (execSty t s) := by simp [execSty, h]
@[simp] theorem execLdyb_canonical {t : Imm6} (h : s.Canonical) : Answer.Canonical (execLdyb t s) := by simp [execLdyb, h]

/-! ### Atomics, full/empty forms and cache operations (Machine/Atomics) -/

@[simp] theorem execSete_canonical {t : AImm} (h : s.Canonical) : Answer.Canonical (execSete t s) := by
  refine weave_canonical h fun c => (Run.ensures_bind _ _).2 (State.checkFullEmpty_ensures h fun ps u hu => ?_)
  simp only [Run.ensures_bind, Run.ensures_pure]
  exact Run.ensures_of_forall _ fun _ => State.mark_canonical (State.drained_canonical hu)

@[simp] theorem execFenceAcq_canonical {t : UnB} (h : s.Canonical) : Answer.Canonical (execFenceAcq t s) := by simp [execFenceAcq, h]
@[simp] theorem execFenceRel_canonical {t : UnB} (h : s.Canonical) : Answer.Canonical (execFenceRel t s) := by simp [execFenceRel, h]
@[simp] theorem execFenceSc_canonical {t : UnB} (h : s.Canonical) : Answer.Canonical (execFenceSc t s) := by simp [execFenceSc, h]
@[simp] theorem execTfence_canonical {t : UnB} (h : s.Canonical) : Answer.Canonical (execTfence t s) := by simp [execTfence, h]

@[simp] theorem execCflush_canonical {t : Imm6} (h : s.Canonical) : Answer.Canonical (execCflush t s) := by
  refine weave_canonical h fun c => (Run.ensures_bind _ _).2 (State.checkLine_ensures h fun ps u hu => ?_)
  simp only [Run.ensures_bind, Run.ensures_pure]
  exact Run.ensures_of_forall _ fun _ => foldl_canonical _ hu fun _ _ hv => State.flushLine_canonical hv

@[simp] theorem execCinv_canonical {t : Imm6} (h : s.Canonical) : Answer.Canonical (execCinv t s) := by
  refine weave_canonical h fun c => (Run.ensures_bind _ _).2 (State.checkLine_ensures h fun ps u hu => ?_)
  simp only [Run.ensures_bind, Run.ensures_pure]
  exact Run.ensures_of_forall _ fun _ => foldl_canonical _ hu fun _ _ hv => by simp [hv]

@[simp] theorem execCpref_canonical {t : Imm6} (h : s.Canonical) : Answer.Canonical (execCpref t s) := by
  refine weave_canonical h fun c => ?_
  dsimp only
  split
  · simpa using h
  · split
    · simp
    · next ht =>
      have hu := State.translate_canonical h ht
      split
      · simp only [Run.ensures_bind, Run.ensures_pure]
        exact State.eccMeet_ensures hu fun v hv => by simp [hv]
      · simpa using h
    · simpa using h

@[simp] theorem execLdyf_canonical {t : Imm6} (h : s.Canonical) : Answer.Canonical (execLdyf t s) := by
  have hw : Answer.Canonical (weave 0x2B 3 t.g t.d t.a t.i (fun u c => u.ldyfPre c (u.eaOf c t.a t.i 4))
      (fun c u => u.ldyfBody c t.d (u.eaOf c t.a t.i 4)) s) := weave_canonical h fun c => State.ldyfBody_ensures h fun _ hu => hu
  unfold execLdyf
  split
  · next hu =>
    have hu := hw.next hu
    split <;> simp [hu]
  · exact hw

/-! ### y forms (Machine/WeaveVec) -/

@[simp] theorem execYbcast_canonical {t : Bin} (h : s.Canonical) : Answer.Canonical (execYbcast t s) := by simp [execYbcast, h]
@[simp] theorem execYext_canonical (h : s.Canonical) : Answer.Canonical (execYext t s) := by simp [execYext, h]
@[simp] theorem execYins_canonical (h : s.Canonical) : Answer.Canonical (execYins t s) := by simp [execYins, h]

/-! ### v forms (Machine/FrameVec) -/

@[simp] theorem execVqnt_canonical (h : s.Canonical) : Answer.Canonical (execVqnt t s) := by simp [execVqnt, h]
@[simp] theorem execVdq_canonical (h : s.Canonical) : Answer.Canonical (execVdq t s) := by simp [execVdq, h]
@[simp] theorem execVscl_canonical (h : s.Canonical) : Answer.Canonical (execVscl t s) := by simp [execVscl, h]
@[simp] theorem execVcomp_canonical (h : s.Canonical) : Answer.Canonical (execVcomp t s) := by simp [execVcomp, h]
@[simp] theorem execVmask_canonical {t : GuardN} (h : s.Canonical) : Answer.Canonical (execVmask t s) := by simp [execVmask, h]
@[simp] theorem execVld_canonical {t : Imm6} (h : s.Canonical) : Answer.Canonical (execVld t s) := by simp [execVld, h]
@[simp] theorem execVst_canonical {t : Imm6} (h : s.Canonical) : Answer.Canonical (execVst t s) := by simp [execVst, h]
@[simp] theorem execVldb_canonical {t : Imm6} (h : s.Canonical) : Answer.Canonical (execVldb t s) := by simp [execVldb, h]
@[simp] theorem execVstm_canonical {t : Imm6} (h : s.Canonical) : Answer.Canonical (execVstm t s) := by simp [execVstm, h]
@[simp] theorem execVmova_canonical {t : BinN} (h : s.Canonical) : Answer.Canonical (execVmova t s) := by simp [execVmova, h]

/-! ### Frame control (Machine/FrameCtl) -/

@[simp] theorem execAnchor_canonical {t : Anchor} (h : s.Canonical) : Answer.Canonical (execAnchor t s) := by simp [execAnchor, h]
@[simp] theorem execMlatch_canonical {t : DImm} (h : s.Canonical) : Answer.Canonical (execMlatch t s) := by simp [execMlatch, h]
@[simp] theorem execSlipchk_canonical {t : Bin} (h : s.Canonical) : Answer.Canonical (execSlipchk t s) := by simp [execSlipchk, h]
@[simp] theorem execFcnt_canonical (h : s.Canonical) : Answer.Canonical (execFcnt t s) := by simp [execFcnt, h]
@[simp] theorem execSeql_canonical {t : SeqlWr} (h : s.Canonical) : Answer.Canonical (execSeql t s) := by simp [execSeql, h]
@[simp] theorem execSeqlRead_canonical {t : SeqlRd} (h : s.Canonical) : Answer.Canonical (execSeqlRead t s) := by simp [execSeqlRead, h]
@[simp] theorem execBhalt_canonical {t : Nul} (h : s.Canonical) : Answer.Canonical (execBhalt t s) := by simp [execBhalt, h]

@[simp] theorem execBhdr_canonical {t : Bhdr} (h : s.Canonical) : Answer.Canonical (execBhdr t s) := by
  unfold execBhdr
  split <;> simp [h]

/-! ### Scalar forms (Machine/Scalar) -/

@[simp] theorem execLi_canonical {t : Wide} (h : s.Canonical) : Answer.Canonical (execLi t s) := by simp [execLi, h]
@[simp] theorem execLih_canonical {t : Wide} (h : s.Canonical) : Answer.Canonical (execLih t s) := by simp [execLih, h]

@[simp] theorem execSel_canonical (h : s.Canonical) : Answer.Canonical (execSel t s) := by
  unfold execSel
  split <;> simp [h]

@[simp] theorem execExtr_canonical {t : Imm6} (h : s.Canonical) : Answer.Canonical (execExtr t s) := by simp [execExtr, h]
@[simp] theorem execIns_canonical {t : Imm6} (h : s.Canonical) : Answer.Canonical (execIns t s) := by simp [execIns, h]
@[simp] theorem execBr_canonical {t : Jump} (h : s.Canonical) : Answer.Canonical (execBr t s) := by simp [execBr, h]
@[simp] theorem execCall_canonical {t : Jump} (h : s.Canonical) : Answer.Canonical (execCall t s) := by simp [execCall, h]
@[simp] theorem execJalr_canonical {t : Bin} (h : s.Canonical) : Answer.Canonical (execJalr t s) := by simp [execJalr, h]
@[simp] theorem execLoopk_canonical {t : Loopk} (h : s.Canonical) : Answer.Canonical (execLoopk t s) := by simp [execLoopk, h]

@[simp] theorem execLoope_canonical {z : Bare} (h : s.Canonical) : Answer.Canonical (execLoope z s) := by
  simp [execLoope, h]

@[simp] theorem execWfe_canonical (h : s.Canonical) : Answer.Canonical (execWfe t s) := by simp [execWfe, h]

/-! ### The matrix engine (Machine/Matrix) -/

@[simp] theorem execSpsel_canonical {t : BinN2} (h : s.Canonical) : Answer.Canonical (execSpsel t s) := by simp [execSpsel, h]
@[simp] theorem execLload_canonical {t : Lload} (h : s.Canonical) : Answer.Canonical (execLload t s) := by simp [execLload, h]
@[simp] theorem execLpass_canonical {t : UnA} (h : s.Canonical) : Answer.Canonical (execLpass t s) := by simp [execLpass, h]
@[simp] theorem execLswap_canonical {t : Nul} (h : s.Canonical) : Answer.Canonical (execLswap t s) := by simp [execLswap, h]
@[simp] theorem execLstat_canonical {t : UnD} (h : s.Canonical) : Answer.Canonical (execLstat t s) := by simp [execLstat, h]
@[simp] theorem execArel_canonical {t : HandleD} (h : s.Canonical) : Answer.Canonical (execArel t s) := by simp [execArel, h]
@[simp] theorem execArd_canonical {t : HandleRd} (h : s.Canonical) : Answer.Canonical (execArd t s) := by simp [execArd, h]
@[simp] theorem execAwr_canonical {t : HandleAB} (h : s.Canonical) : Answer.Canonical (execAwr t s) := by simp [execAwr, h]
@[simp] theorem execAzero_canonical {t : HandleD} (h : s.Canonical) : Answer.Canonical (execAzero t s) := by simp [execAzero, h]
@[simp] theorem execOsmUpd_canonical {t : OsmUpd} (h : s.Canonical) : Answer.Canonical (execOsmUpd t s) := by simp [execOsmUpd, h]
@[simp] theorem execOsmMrg_canonical {t : OsmMrg} (h : s.Canonical) : Answer.Canonical (execOsmMrg t s) := by simp [execOsmMrg, h]
@[simp] theorem execOsmFin_canonical {t : HandleD} (h : s.Canonical) : Answer.Canonical (execOsmFin t s) := by simp [execOsmFin, h]
@[simp] theorem execOsmRst_canonical {t : HandleD} (h : s.Canonical) : Answer.Canonical (execOsmRst t s) := by simp [execOsmRst, h]

/-! ### Winnow forms (Machine/Winnow) -/

@[simp] theorem execWinSig_canonical {t : DB} (h : s.Canonical) : Answer.Canonical (execWinSig t s) := by simp [execWinSig, h]
@[simp] theorem execWinCmp_canonical {t : HandleAB} (h : s.Canonical) : Answer.Canonical (execWinCmp t s) := by simp [execWinCmp, h]
@[simp] theorem execWinSkip_canonical {t : UnB} (h : s.Canonical) : Answer.Canonical (execWinSkip t s) := by simp [execWinSkip, h]
@[simp] theorem execWinKeep_canonical {t : AB} (h : s.Canonical) : Answer.Canonical (execWinKeep t s) := by simp [execWinKeep, h]
@[simp] theorem execWinStep_canonical {t : UnD} (h : s.Canonical) : Answer.Canonical (execWinStep t s) := by simp [execWinStep, h]
@[simp] theorem execWinMap_canonical {t : DB} (h : s.Canonical) : Answer.Canonical (execWinMap t s) := by simp [execWinMap, h]

@[simp] theorem execWinSet_canonical (h : s.Canonical) : Answer.Canonical (execWinSet t s) := by
  unfold execWinSet
  split <;> simp [h]

@[simp] theorem execWinClr_canonical {t : UnA} (h : s.Canonical) : Answer.Canonical (execWinClr t s) := by simp [execWinClr, h]

/-! ### Copies (Machine/Engines) -/

@[simp] theorem execCopyGranuleRequest_canonical (h : s.Canonical) : Answer.Canonical (execCopyGranuleRequest b id s) := by
  unfold execCopyGranuleRequest
  split <;> simp [h]

@[simp] theorem execFrameSlotStart_canonical {k : Nat} (h : s.Canonical) : Answer.Canonical (execFrameSlotStart k s) := by
  simp +contextual [execFrameSlotStart, h]

@[simp] theorem execEccRereadComplete_canonical {n : Nat} (h : s.Canonical) : Answer.Canonical (execEccRereadComplete b id n s) := by
  unfold execEccRereadComplete
  split
  · simp
  · split <;> simp [h]

@[simp] theorem execCopyLanding_canonical (h : s.Canonical) : Answer.Canonical (execCopyLanding b id s) := by
  unfold execCopyLanding
  repeat' split
  all_goals simp [h]

/-! ### Gangs, queues and replay (Machine/WeaveCtl) -/

@[simp] theorem execHstart_canonical (h : s.Canonical) : Answer.Canonical (execHstart t s) := by
  refine weave_canonical h fun c => ?_
  dsimp only
  split
  · simp [h]
  · simp only [Run.ensures_ok]
    exact State.dst_canonical (State.setCtx_canonical.2 (State.modCore_canonical.2 (State.drained_canonical (by simp [h]))))

@[simp] theorem execHjoin_canonical {t : UnA} (h : s.Canonical) : Answer.Canonical (execHjoin t s) := by simp [execHjoin, h]
@[simp] theorem execHkill_canonical {t : UnA} (h : s.Canonical) : Answer.Canonical (execHkill t s) := by simp [execHkill, h]
@[simp] theorem execHself_canonical {t : UnD} (h : s.Canonical) : Answer.Canonical (execHself t s) := by simp [execHself, h]

@[simp] theorem execQpeek_canonical {t : Bin} (h : s.Canonical) : Answer.Canonical (execQpeek t s) := by
  refine weave_canonical h fun c => ?_
  split
  · split <;> simp [h]
  · split <;> simp [h]

@[simp] theorem execQdepth_canonical {t : Bin} (h : s.Canonical) : Answer.Canonical (execQdepth t s) := by simp [execQdepth, h]

@[simp] theorem execQclose_canonical {t : UnA} (h : s.Canonical) : Answer.Canonical (execQclose t s) := by
  refine weave_canonical h fun c => ?_
  rw [Run.ensures_ok]
  split
  · simp [h]
  · split <;> simp [h]

@[simp] theorem execQdrop_canonical (h : s.Canonical) : Answer.Canonical (execQdrop t s) := by
  refine weave_canonical h fun c => ?_
  rw [Run.ensures_ok]
  split <;> simp [h]

@[simp] theorem execGarrive_canonical (h : s.Canonical) : Answer.Canonical (execGarrive t s) := by
  refine weave_canonical h fun c => ?_
  rw [Run.ensures_ok]
  exact State.dst_canonical (State.modGBar_canonical.2 (State.drained_canonical (by simp [h])))

@[simp] theorem execGwait_canonical {t : AB} (h : s.Canonical) : Answer.Canonical (execGwait t s) := by simp [execGwait, h]

@[simp] theorem execGbar_canonical (h : s.Canonical) : Answer.Canonical (execGbar t s) := by
  have hw : Answer.Canonical (weave 0x3A 0 t.g t.d t.a t.b noPre (fun c u => u.gbarBody c t) s) :=
    weave_canonical h fun c => State.gbarBody_ensures h fun _ hu => hu
  unfold execGbar
  split
  · next hu =>
    have hu := hw.next hu
    split
    · split <;> simp [hu]
    · simpa using hu
  · exact hw

@[simp] theorem execGrank_canonical {t : UnD} (h : s.Canonical) : Answer.Canonical (execGrank t s) := by simp [execGrank, h]
@[simp] theorem execRepf_canonical {t : Repf} (h : s.Canonical) : Answer.Canonical (execRepf t s) := by simp [execRepf, h]
@[simp] theorem execDone_canonical {t : Nul} (h : s.Canonical) : Answer.Canonical (execDone t s) := by simp [execDone, h]
@[simp] theorem execSignal_canonical {t : AB} (h : s.Canonical) : Answer.Canonical (execSignal t s) := by simp [execSignal, h]
@[simp] theorem execYield_canonical {t : Nul} (h : s.Canonical) : Answer.Canonical (execYield t s) := by simp [execYield, h]
@[simp] theorem execWaitev_canonical (h : s.Canonical) : Answer.Canonical (execWaitev t s) := by simp [execWaitev, h]
@[simp] theorem execTenonV_canonical {t : AB} (h : s.Canonical) : Answer.Canonical (execTenonV t s) := by simp [execTenonV, h]

@[simp] theorem execTenonW_canonical {t : AB} (h : s.Canonical) : Answer.Canonical (execTenonW t s) := by
  refine weave_canonical h fun c => (Run.ensures_bind _ _).2 (State.stageCheck_ensures (State.src_canonical.2 h) fun m pa u hu => ?_)
  simpa using State.drained_canonical (State.src_canonical.2 hu)

@[simp] theorem execTenonQ_canonical {t : Bin} (h : s.Canonical) : Answer.Canonical (execTenonQ t s) := by simp [execTenonQ, h]

/-! ### Copy and barrier forms (Machine/EngineForms) -/

@[simp] theorem execBarInit_canonical {t : AB} (h : s.Canonical) : Answer.Canonical (execBarInit t s) := by
  refine both_canonical h (fun c => ?_) fun b sl => ?_
  · simp only [Run.ensures_bind, Run.ensures_pure]
    exact Run.ensures_of_forall _ fun la => State.setLocalBar_canonical (State.drained_canonical (by simp [h]))
  · simp [h]

@[simp] theorem execBarArrive_canonical (h : s.Canonical) : Answer.Canonical (execBarArrive t s) := by
  refine both_canonical h (fun c => ?_) fun b sl => ?_
  · simp only [Run.ensures_bind, Run.ensures_pure]
    exact Run.ensures_of_forall _ fun la => State.dst_canonical (State.setLocalBar_canonical (State.drained_canonical (by simp [h])))
  · simp [h]

@[simp] theorem execBarWait_canonical {t : BarWait} (h : s.Canonical) : Answer.Canonical (execBarWait t s) := by simp [execBarWait, h]

@[simp] theorem execBarTest_canonical {t : BarTest} (h : s.Canonical) : Answer.Canonical (execBarTest t s) := by
  refine both_canonical h (fun c => ?_) fun b sl => ?_
  · have hd := State.drained_canonical (k := coreOf c) (State.src_canonical (c := c) (i := t.a).2 h)
    simp only [Run.ensures_bind, Run.ensures_pure]
    exact Run.ensures_of_forall _ fun la => State.dst_canonical (by simp [hd])
  · simp [h]

@[simp] theorem execWmSet_canonical (h : s.Canonical) : Answer.Canonical (execWmSet t s) := by simp [execWmSet, h]
@[simp] theorem execWmRd_canonical {t : Bin} (h : s.Canonical) : Answer.Canonical (execWmRd t s) := by simp [execWmRd, h]
@[simp] theorem execClSend_canonical {t : Bin} (h : s.Canonical) : Answer.Canonical (execClSend t s) := by simp [execClSend, h]
@[simp] theorem execClChk_canonical {t : Bin} (h : s.Canonical) : Answer.Canonical (execClChk t s) := by simp [execClChk, h]

/-! ### Jigs and channels (Machine/JigForms) -/

@[simp] theorem execJigLoad_canonical {t : UnA} (h : s.Canonical) : Answer.Canonical (execJigLoad t s) := by simp [execJigLoad, h]
@[simp] theorem execJigGo_canonical {t : Nul} (h : s.Canonical) : Answer.Canonical (execJigGo t s) := by simp [execJigGo, h]
@[simp] theorem execJigStop_canonical {t : Nul} (h : s.Canonical) : Answer.Canonical (execJigStop t s) := by simp [execJigStop, h]
@[simp] theorem execJigStat_canonical {t : UnD} (h : s.Canonical) : Answer.Canonical (execJigStat t s) := by simp [execJigStat, h]
@[simp] theorem execJigIteration_canonical (h : s.Canonical) : Answer.Canonical (execJigIteration b s) := by simp [execJigIteration, h]
@[simp] theorem execChPut_canonical (h : s.Canonical) : Answer.Canonical (execChPut t s) := by simp [execChPut, h]
@[simp] theorem execChGet_canonical {t : Bin} (h : s.Canonical) : Answer.Canonical (execChGet t s) := by simp [execChGet, h]

@[simp] theorem execChRed_canonical (h : s.Canonical) : Answer.Canonical (execChRed t s) := by
  refine frame_canonical h fun b sl => ?_
  simp only [Run.ensures_bind]
  refine Run.ensures_of_forall _ fun ch => ?_
  split <;> simp [h]

@[simp] theorem execChStat_canonical {t : Bin} (h : s.Canonical) : Answer.Canonical (execChStat t s) := by simp [execChStat, h]

@[simp] theorem execChannelEntryLanding_canonical {ch : Nat} {arriving : Option (Nat × Nat)} (h : s.Canonical) :
    Answer.Canonical (execChannelEntryLanding ch arriving s) := by
  unfold execChannelEntryLanding
  split
  · simp
  · split <;> simp [h]

@[simp] theorem execPause_canonical {t : Pause} (h : s.Canonical) : Answer.Canonical (execPause t s) := by simp [execPause, h]

/-! ### Remote requests (Machine/RemoteForms) -/

@[simp] theorem execSplGrp_canonical {t : Bin} (h : s.Canonical) : Answer.Canonical (execSplGrp t s) := by
  refine weave_canonical h fun c => (Run.ensures_bind _ _).2 (Run.ensures_of_forall _ fun _ => ?_)
  split
  · simp
  · simp only [Run.ensures_bind]
    refine State.readWords_ensures (State.src_canonical.2 h) fun bs u hu => ?_
    split <;> simp [hu]

@[simp] theorem execSplRst_canonical {t : UnD} (h : s.Canonical) : Answer.Canonical (execSplRst t s) := by simp [execSplRst, h]

@[simp] theorem execSplLdr_canonical {t : UnD} (h : s.Canonical) : Answer.Canonical (execSplLdr t s) := by
  refine weave_canonical h fun c => (Run.ensures_bind _ _).2 (Run.ensures_of_forall _ fun gr => ?_)
  have hd := State.drained_canonical (k := coreOf c) h
  simp only [Run.ensures_ite, Run.ensures_waitFor, Run.ensures_bind, Run.ensures_pure]
  refine ⟨fun _ => trivial, fun _ => Run.ensures_of_forall _ fun ps => Run.ensures_of_forall _ fun src => ?_⟩
  simp [State.spanEmpty_canonical, hd]

@[simp] theorem execSplStat_canonical {t : Bin} (h : s.Canonical) : Answer.Canonical (execSplStat t s) := by simp [execSplStat, h]
@[simp] theorem execRingSet_canonical {t : AB} (h : s.Canonical) : Answer.Canonical (execRingSet t s) := by simp [execRingSet, h]
@[simp] theorem execRingNext_canonical {t : Bin} (h : s.Canonical) : Answer.Canonical (execRingNext t s) := by simp [execRingNext, h]
@[simp] theorem execRingSkip_canonical {t : Bin} (h : s.Canonical) : Answer.Canonical (execRingSkip t s) := by simp [execRingSkip, h]
@[simp] theorem execRingRd_canonical (h : s.Canonical) : Answer.Canonical (execRingRd t s) := by simp [execRingRd, h]

@[simp] theorem execRmaFlush_canonical {t : Bin} (h : s.Canonical) : Answer.Canonical (execRmaFlush t s) := by
  refine weave_canonical h fun c => (Run.ensures_bind _ _).2 (Run.ensures_of_forall _ fun _ => ?_)
  simp only [Run.ensures_ite, Run.ensures_waitFor]
  exact ⟨fun _ => trivial, fun _ => State.startReq_ensures (State.issueReq_canonical (State.src_canonical.2 h)) fun _ hu => hu⟩

@[simp] theorem execRmaArm_canonical (h : s.Canonical) : Answer.Canonical (execRmaArm t s) := by
  refine weave_canonical h fun c => (Run.ensures_bind _ _).2 (State.readReq_ensures (State.src_canonical.2 h) fun w u hu => ?_)
  simp [hu]

@[simp] theorem execRmaWait_canonical {t : Bin} (h : s.Canonical) : Answer.Canonical (execRmaWait t s) := by
  refine weave_canonical h fun c => ?_
  dsimp only
  split
  · simp [h]
  · split <;> simp [h]

/-! ### Landings, holds and mortises (Machine/FrameEvents) -/

@[simp] theorem execBlockRelease_canonical {e : Nat} (h : s.Canonical) : Answer.Canonical (execBlockRelease e s) := by
  simp [execBlockRelease, h]

@[simp] theorem execAnchorLate_canonical (h : s.Canonical) : Answer.Canonical (execAnchorLate b s) := by simp [execAnchorLate, h]
@[simp] theorem execHoldEnd_canonical (h : s.Canonical) : Answer.Canonical (execHoldEnd s) := by simp [execHoldEnd, h]

@[simp] theorem execHoldTimeout_canonical (h : s.Canonical) : Answer.Canonical (execHoldTimeout s) := by
  unfold execHoldTimeout
  split <;> simp [h]

@[simp] theorem execMatrixResultLanding_canonical (h : s.Canonical) : Answer.Canonical (execMatrixResultLanding b s) := by
  simp [execMatrixResultLanding, h]

@[simp] theorem execLatchLanding_canonical (h : s.Canonical) : Answer.Canonical (execLatchLanding b s) := by simp [execLatchLanding, h]

@[simp] theorem execLpassLanding_canonical (h : s.Canonical) : Answer.Canonical (execLpassLanding b s) := by
  unfold execLpassLanding
  dsimp only
  split <;> simp [h]

@[simp] theorem execWinnowCopyLanding_canonical (h : s.Canonical) : Answer.Canonical (execWinnowCopyLanding b s) := by
  simp [execWinnowCopyLanding, h]

@[simp] theorem execMortiseOpen_canonical (h : s.Canonical) : Answer.Canonical (execMortiseOpen m s) := by
  unfold execMortiseOpen
  split <;> simp [h]

@[simp] theorem execMortiseClose_canonical (h : s.Canonical) : Answer.Canonical (execMortiseClose m s) := by simp [execMortiseClose, h]
@[simp] theorem execHoldLatch_canonical (h : s.Canonical) : Answer.Canonical (execHoldLatch m s) := by simp [execHoldLatch, h]
@[simp] theorem execFrameStart_canonical (h : s.Canonical) : Answer.Canonical (execFrameStart s) := by simp [execFrameStart, h]

/-! ### Queues (Machine/Queues) -/

@[simp] theorem execCompletionEntryWrite_canonical (h : s.Canonical) : Answer.Canonical (execCompletionEntryWrite q s) := by
  unfold execCompletionEntryWrite
  dsimp only
  split <;> simp [h, Mem.putBytes_canonical]

@[simp] theorem execInterruptWindowClose_canonical (h : s.Canonical) : Answer.Canonical (execInterruptWindowClose q s) := by
  simp [execInterruptWindowClose, h]

@[simp] theorem execQueueArm_canonical (h : s.Canonical) : Answer.Canonical (execQueueArm q v s) := by simp [execQueueArm, h]

@[simp] theorem execCompletionHeadWrite_canonical (h : s.Canonical) : Answer.Canonical (execCompletionHeadWrite q v s) := by
  simp [execCompletionHeadWrite, h]

@[simp] theorem execQueueEnable_canonical (h : s.Canonical) : Answer.Canonical (execQueueEnable q v s) := by simp [execQueueEnable, h]

/-! ### Frame launches (Machine/FrameLaunch) -/

@[simp] theorem execFrameLaunchSetup_canonical (h : s.Canonical) : Answer.Canonical (execFrameLaunchSetup q s) := by
  unfold execFrameLaunchSetup
  split
  · simp
  · dsimp only
    split
    · simp [h]
    · simp only [Answer.canonical_ite, Answer.canonical_next]
      split
      · simp [h]
      · simp [h]
      · simp [h]

@[simp] theorem execSegmentReady_canonical (h : s.Canonical) : Answer.Canonical (execSegmentReady b s) := by simp [execSegmentReady, h]

@[simp] theorem execFrameLaunchComplete_canonical (h : s.Canonical) : Answer.Canonical (execFrameLaunchComplete s) := by
  unfold execFrameLaunchComplete
  split <;> simp [h]

/-! ### A frame launch saved and resumed (Machine/FrameSave) -/

@[simp] theorem execFramePause_canonical (h : s.Canonical) : Answer.Canonical (execFramePause s) := by
  have hsaves {save : Nat} {u : State} (l : List Nat) (hu : u.Canonical) : (l.foldl (fun v b => v.saveBench save b) u).Canonical :=
    foldl_canonical _ hu fun _ _ hv => State.saveBench_canonical hv
  unfold execFramePause
  split
  · split
    · simp
    · have hu {save} : (s.finishWrites.saveHeader save).Canonical := State.saveHeader_canonical (State.finishWrites_canonical h)
      simpa [h] using hsaves (List.range Config.benches) hu
  · simp

@[simp] theorem execNopause_canonical (h : s.Canonical) : Answer.Canonical (execNopause s) := by
  unfold execNopause
  split <;> simp [h]

/-! ### Weave launches (Machine/WeaveLaunch) -/

@[simp] theorem execQueueDoorbell_canonical (h : s.Canonical) : Answer.Canonical (execQueueDoorbell q v s) := by
  simp [execQueueDoorbell, h]

@[simp] theorem execLaunchRecordReady_canonical (h : s.Canonical) : Answer.Canonical (execLaunchRecordReady id s) := by
  unfold execLaunchRecordReady
  split <;> simp [h]

@[simp] theorem execPriorityAgeing_canonical (h : s.Canonical) : Answer.Canonical (execPriorityAgeing id s) := by
  unfold execPriorityAgeing
  split <;> simp [h]

@[simp] theorem execDeferralExpiry_canonical (h : s.Canonical) : Answer.Canonical (execDeferralExpiry id s) := by
  unfold execDeferralExpiry
  split <;> simp [h]

@[simp] theorem execDispatchStep_canonical (h : s.Canonical) : Answer.Canonical (execDispatchStep die s) := by simp [execDispatchStep, h]

@[simp] theorem execWeaveLaunchComplete_canonical (h : s.Canonical) : Answer.Canonical (execWeaveLaunchComplete id s) := by
  unfold execWeaveLaunchComplete
  split <;> simp [h]

/-! ### Pre-emption (Machine/Preempt) -/

@[simp] theorem execRoleHalt_canonical {gang role : Nat} (h : s.Canonical) : Answer.Canonical (execRoleHalt gang role s) := by
  unfold execRoleHalt
  split <;> simp +contextual [h]

@[simp] theorem execGangSave_canonical {gang : Nat} (h : s.Canonical) : Answer.Canonical (execGangSave gang s) := by
  have hd (l : List Nat) : (l.foldl (fun u k => u.drainAll k) s).Canonical := foldl_canonical _ h fun _ _ hu => State.drained_canonical hu
  unfold execGangSave
  split
  · simp
  · split
    · simp
    · split
      · simp
      · simp [hd]

@[simp] theorem execPreempt_canonical (h : s.Canonical) : Answer.Canonical (execPreempt q save s) := by simp [execPreempt, h]

@[simp] theorem execPreemptForward_canonical {p : Nat} {chosen : Option Nat} (h : s.Canonical) :
    Answer.Canonical (execPreemptForward p save chosen s) := by
  unfold execPreemptForward
  repeat' split
  all_goals simp [h]

@[simp] theorem execResume_canonical (h : s.Canonical) : Answer.Canonical (execResume q save s) := by simp [execResume, h]
@[simp] theorem execDestroy_canonical (h : s.Canonical) : Answer.Canonical (execDestroy q s) := by simp [execDestroy, h]
@[simp] theorem execDestroyForce_canonical (h : s.Canonical) : Answer.Canonical (execDestroyForce q s) := by simp [execDestroyForce, h]

/-! ### Waits that end (Machine/Wakes) -/

@[simp] theorem execYieldResume_canonical (h : s.Canonical) : Answer.Canonical (execYieldResume c s) := by
  unfold execYieldResume
  split <;> simp [h]

@[simp] theorem execWatermarkStallResume_canonical (h : s.Canonical) : Answer.Canonical (execWatermarkStallResume c s) := by
  simp [execWatermarkStallResume, h]

@[simp] theorem execStoreBufferDrain_canonical {core : Nat} (h : s.Canonical) : Answer.Canonical (execStoreBufferDrain core s) := by
  simp [execStoreBufferDrain, s.drainOne_canonical core h]

@[simp] theorem execReplayExecution_canonical (h : s.Canonical) : Answer.Canonical (execReplayExecution c s) := by
  unfold execReplayExecution
  split <;> simp [h]

/-! ### Block transfers (Machine/BlockTransfer) -/

@[simp] theorem execBteCopyPart_canonical {cl : Nat} (h : s.Canonical) : Answer.Canonical (execBteCopyPart cl id s) := by
  unfold execBteCopyPart
  split
  · simp
  · dsimp only
    split
    · simp
    · split <;> simp [h]

@[simp] theorem execBteCopyComplete_canonical {cl : Nat} (h : s.Canonical) : Answer.Canonical (execBteCopyComplete cl id s) := by
  unfold execBteCopyComplete
  split <;> simp [h]

/-! ### The fabric (Machine/Fabric) -/

@[simp] theorem execRmaCompletion_canonical {status : Nat} (h : s.Canonical) : Answer.Canonical (execRmaCompletion id status data s) := by
  unfold execRmaCompletion
  split <;> simp [h]

@[simp] theorem execWeavePortAccess_canonical (h : s.Canonical) : Answer.Canonical (execWeavePortAccess b s) := by
  unfold execWeavePortAccess
  split
  · simp
  · dsimp only
    split
    · simp [h]
    · split <;> simp [h]

@[simp] theorem execRmaIncomingRequest_canonical {rq : RemoteRequest} (h : s.Canonical) :
    Answer.Canonical (execRmaIncomingRequest rq s) := by
  unfold execRmaIncomingRequest
  split
  · simp
  · split
    · simp [h]
    · have hu := State.useConn_canonical (conn := rq.conn).2 h
      dsimp only
      split
      · split <;> simp [hu]
      · split
        · split <;> simp [hu]
        · simp [hu]
      · simp only [Answer.canonical_next]
        split <;> simp [hu]
      · simp

@[simp] theorem execRmaSendMatch_canonical {tag : Nat} (h : s.Canonical) : Answer.Canonical (execRmaSendMatch conn tag data s) := by
  unfold execRmaSendMatch
  split
  · simp
  · split
    · simp [h]
    · dsimp only
      split
      · simp [h]
      · split
        · simp [h]
        · split
          · next hv => simpa using State.fireReq_ensures (P := State.Canonical) (by simp [h]) (fun _ hu => hu) _ hv
          · simp [h]

@[simp] theorem execRmaSendRetry_canonical (h : s.Canonical) : Answer.Canonical (execRmaSendRetry id s) := by
  unfold execRmaSendRetry
  split
  · simp
  · split
    · simp
    · split
      · simp [h]
      · dsimp only
        split
        · next hv => simpa using State.startReq_ensures (P := State.Canonical) (by simp [h]) (fun _ hu => hu) _ hv
        · simp [h]

@[simp] theorem execConnectionContextFetch_canonical {ok : Bool} (h : s.Canonical) :
    Answer.Canonical (execConnectionContextFetch conn ok s) := by
  unfold execConnectionContextFetch
  split <;> simp [h]

@[simp] theorem execLink_canonical (h : s.Canonical) : Answer.Canonical (execLink conn s) := by simp [execLink, h]

@[simp] theorem execConnectionOpen_canonical (h : s.Canonical) : Answer.Canonical (execConnectionOpen asid conn s) := by
  simp [execConnectionOpen, h]

@[simp] theorem execConnectionClose_canonical (h : s.Canonical) : Answer.Canonical (execConnectionClose asid conn s) := by
  simp [execConnectionClose, h]

@[simp] theorem execSwitchContribution_canonical {c : Contribution} (h : s.Canonical) :
    Answer.Canonical (execSwitchContribution c s) := by
  unfold execSwitchContribution
  split <;> simp [h]

@[simp] theorem execSwitchGroupTimeout_canonical (h : s.Canonical) : Answer.Canonical (execSwitchGroupTimeout gid sq s) := by
  unfold execSwitchGroupTimeout
  split <;> simp [h]

@[simp] theorem execSplResultArrival_canonical (h : s.Canonical) : Answer.Canonical (execSplResultArrival gr gid sq data s) := by
  unfold execSplResultArrival
  split <;> simp [h]

@[simp] theorem execGroupIncomplete_canonical (h : s.Canonical) : Answer.Canonical (execGroupIncomplete gr gid sq s) := by
  unfold execGroupIncomplete
  split <;> simp [h]

@[simp] theorem execCollectiveOrder_canonical (h : s.Canonical) : Answer.Canonical (execCollectiveOrder gr gid sq s) := by
  unfold execCollectiveOrder
  split <;> simp [h]

@[simp] theorem execContributionResend_canonical (h : s.Canonical) : Answer.Canonical (execContributionResend gr s) := by
  simp [execContributionResend, h]

@[simp] theorem execShootdownRange_canonical {npages : Nat} (h : s.Canonical) :
    Answer.Canonical (execShootdownRange die asid ectr npages s) := by simp [execShootdownRange, h]

@[simp] theorem execShootdownAsid_canonical (h : s.Canonical) : Answer.Canonical (execShootdownAsid die asid ectr s) := by
  simp [execShootdownAsid, h]

@[simp] theorem execShootdownAll_canonical (h : s.Canonical) : Answer.Canonical (execShootdownAll die ectr s) := by
  simp [execShootdownAll, h]

@[simp] theorem execShootdownComplete_canonical (h : s.Canonical) : Answer.Canonical (execShootdownComplete die s) := by
  unfold execShootdownComplete
  repeat' split
  all_goals simp [h]

@[simp] theorem execTranslationEviction_canonical {where_ idx : Nat} (h : s.Canonical) :
    Answer.Canonical (execTranslationEviction where_ idx s) := by simp [execTranslationEviction, h]

@[simp] theorem execCacheLineEviction_canonical {where_ line : Nat} (h : s.Canonical) :
    Answer.Canonical (execCacheLineEviction where_ line s) := by simp [execCacheLineEviction, h, Mem.writeBack_canonical]

/-! ### The host (Machine/HostSide) -/

@[simp] theorem execRegisterWrite_canonical (h : s.Canonical) : Answer.Canonical (execRegisterWrite off v s) := by
  cases hq : queueAt off <;> simp [execRegisterWrite, hq, h]

@[simp] theorem execEventCounterWrite_canonical {n : Nat} (h : s.Canonical) : Answer.Canonical (execEventCounterWrite n v s) := by
  simp [execEventCounterWrite, h]

@[simp] theorem execCompanderTableWrite_canonical {t w : Nat} (h : s.Canonical) : Answer.Canonical (execCompanderTableWrite t w v s) := by
  simp [execCompanderTableWrite, h]

@[simp] theorem execHostAccess_canonical {a : HostAccess} (h : s.Canonical) : Answer.Canonical (execHostAccess a s) := by
  unfold execHostAccess
  repeat' split
  all_goals simp [h, Mem.putBytes_canonical]

@[simp] theorem execPcapWrite_canonical (h : s.Canonical) : Answer.Canonical (execPcapWrite v s) := by simp [execPcapWrite, h]

@[simp] theorem execEbudgetUpdate_canonical (h : s.Canonical) : Answer.Canonical (execEbudgetUpdate die s) := by
  simp [execEbudgetUpdate, h]

@[simp] theorem execLifetimeRecordUpdate_canonical (h : s.Canonical) : Answer.Canonical (execLifetimeRecordUpdate s) := by
  simp [execLifetimeRecordUpdate, h]

@[simp] theorem execOrderlyPowerDown_canonical : Answer.Canonical (execOrderlyPowerDown s) := by
  simp [execOrderlyPowerDown]

@[simp] theorem execPowerLoss_canonical : Answer.Canonical (execPowerLoss s) := by simp [execPowerLoss]
@[simp] theorem execBoot_canonical {b : BootImage} (h : s.Canonical) : Answer.Canonical (execBoot b s) := by simp [execBoot, h]

@[simp] theorem execFrameClockRequest_canonical {r : Nat × Option Nat} (h : s.Canonical) :
    Answer.Canonical (execFrameClockRequest r s) := by
  simp [execFrameClockRequest, h]

@[simp] theorem execFrameClockChange_canonical (h : s.Canonical) : Answer.Canonical (execFrameClockChange s) := by
  simp [execFrameClockChange, h]

@[simp] theorem execAlignGo_canonical {members dtag : Nat} (h : s.Canonical) : Answer.Canonical (execAlignGo members dtag s) := by
  simp [execAlignGo, h]

@[simp] theorem execAlignDissolve_canonical {members : Nat} (h : s.Canonical) : Answer.Canonical (execAlignDissolve members s) := by
  simp [execAlignDissolve, h]

@[simp] theorem execAlignmentTimeout_canonical (h : s.Canonical) : Answer.Canonical (execAlignmentTimeout s) := by
  simp [execAlignmentTimeout, h]

@[simp] theorem execAlignmentDone_canonical {answers : List (Nat × Nat × Nat)} {routes : List (List Nat)} {ports : List AlignedPort}
    (h : s.Canonical) :
    Answer.Canonical (execAlignmentDone answers routes ports s) := by simp [execAlignmentDone, h]

@[simp] theorem execAlignReadyNotice_canonical {pkg dtag flen nframes : Nat} (h : s.Canonical) :
    Answer.Canonical (execAlignReadyNotice pkg dtag flen nframes s) := by simp [execAlignReadyNotice, h]

@[simp] theorem execStartInstantNotice_canonical {after : Option Nat} (h : s.Canonical) :
    Answer.Canonical (execStartInstantNotice after s) := by
  unfold execStartInstantNotice
  split
  · simp
  · split <;> simp [h]

@[simp] theorem execAlignedStart_canonical (h : s.Canonical) : Answer.Canonical (execAlignedStart s) := by simp [execAlignedStart, h]

@[simp] theorem execHoldNotice_canonical {e port : Nat} (h : s.Canonical) : Answer.Canonical (execHoldNotice m e port s) := by
  simp [execHoldNotice, h]

@[simp] theorem execRemoteHold_canonical (h : s.Canonical) : Answer.Canonical (execRemoteHold s) := by
  unfold execRemoteHold
  repeat' split
  all_goals simp [h]

@[simp] theorem execFaultNotice_canonical {f port : Nat} (h : s.Canonical) : Answer.Canonical (execFaultNotice f port s) := by
  unfold execFaultNotice
  split
  · simp [h]
  · split <;> simp [h]

@[simp] theorem execLinkReplay_canonical {e : Nat × Nat} (h : s.Canonical) : Answer.Canonical (execLinkReplay e s) := by
  simp [execLinkReplay, h]

@[simp] theorem execPortRetrain_canonical {k : Nat} (h : s.Canonical) : Answer.Canonical (execPortRetrain k s) := by
  simp [execPortRetrain, h]

@[simp] theorem execUeLinkRetrain_canonical {p : Nat} (h : s.Canonical) : Answer.Canonical (execUeLinkRetrain p s) := by
  simp [execUeLinkRetrain, h]

/-! ### Traps and system forms (Machine/System) -/

@[simp] theorem execTrap_canonical {t : TrapImm} (h : s.Canonical) : Answer.Canonical (execTrap t s) := by
  have hw : Answer.Canonical (weave 0x7E 0 t.g 0 0 t.i noPre (fun _ u => .ok u) s) := weave_canonical h fun c => by simpa using h
  unfold execTrap
  split
  · next hu =>
    have hu := hw.next hu
    split
    · split <;> simp [h, hu]
    · simpa using hu
  · exact hw

@[simp] theorem execSysrd_canonical {t : DImm} (h : s.Canonical) : Answer.Canonical (execSysrd t s) := by
  refine weave_canonical h fun c => ?_
  split <;> simp [h]

@[simp] theorem execSyswr_canonical {t : AImm} (h : s.Canonical) : Answer.Canonical (execSyswr t s) := by
  refine weave_canonical h fun c => ?_
  split <;> simp [h]

@[simp] theorem execEret_canonical {t : Nul} (h : s.Canonical) : Answer.Canonical (execEret t s) := by simp [execEret, h]

@[simp] theorem execExt_canonical {t : ExtImm} (h : s.Canonical) : Answer.Canonical (execExt t s) := by
  unfold execExt
  split <;> simp [h]

@[simp] theorem execIllegalEncoding_canonical (h : s.Canonical) : Answer.Canonical (execIllegalEncoding c s) := by
  unfold execIllegalEncoding
  split <;> simp [h]

@[simp] theorem execFetchNonexec_canonical (h : s.Canonical) : Answer.Canonical (execFetchNonexec c s) := by
  unfold execFetchNonexec
  split <;> simp [h]

end Sys2Proof.Machine
end

section

/-! ## O60: every instruction -/

namespace Sys2Proof.Machine

variable {s : State}

/-- Every instruction and every event keeps the byte memories canonical. -/
theorem exec_canonical (i : Instr) (h : s.Canonical) : Answer.Canonical (exec i s) := by
  cases i with
  | segmentReady _ => exact execSegmentReady_canonical h
  | blockRelease _ => exact execBlockRelease_canonical h
  | anchorLate _ => exact execAnchorLate_canonical h
  | holdEnd => exact execHoldEnd_canonical h
  | holdTimeout => exact execHoldTimeout_canonical h
  | resultLanding _ =>
    dsimp only [exec]
    exact State.landOn_canonical h
  | matrixResultLanding _ => exact execMatrixResultLanding_canonical h
  | latchLanding _ => exact execLatchLanding_canonical h
  | copyGranuleRequest _ _ => exact execCopyGranuleRequest_canonical h
  | frameSlotStart _ => exact execFrameSlotStart_canonical h
  | copyLanding _ _ => exact execCopyLanding_canonical h
  | eccRereadComplete _ _ _ => exact execEccRereadComplete_canonical h
  | channelEntryLanding _ _ => exact execChannelEntryLanding_canonical h
  | lpassLanding _ => exact execLpassLanding_canonical h
  | winnowCopyLanding _ => exact execWinnowCopyLanding_canonical h
  | jigIteration _ => exact execJigIteration_canonical h
  | mortiseOpen _ => exact execMortiseOpen_canonical h
  | mortiseClose _ => exact execMortiseClose_canonical h
  | holdLatch _ => exact execHoldLatch_canonical h
  | frameLaunchSetup _ => exact execFrameLaunchSetup_canonical h
  | frameLaunchComplete => exact execFrameLaunchComplete_canonical h
  | framePause => exact execFramePause_canonical h
  | nopause => exact execNopause_canonical h
  | launchRecordReady _ => exact execLaunchRecordReady_canonical h
  | dispatchStep _ => exact execDispatchStep_canonical h
  | priorityAgeing _ => exact execPriorityAgeing_canonical h
  | deferralExpiry _ => exact execDeferralExpiry_canonical h
  | weaveLaunchComplete _ => exact execWeaveLaunchComplete_canonical h
  | storeBufferDrain _ => exact execStoreBufferDrain_canonical h
  | weavePortAccess _ => exact execWeavePortAccess_canonical h
  | wfeWake _ | wfeTimeout _ | pipeStallResume _ | hjoinWake _ | gwaitWake _ | waitevWake _ | barWaitWake _ | ldsFillWake _
    | engineSlotFree _ | splPendingWake _ | rmaWaitWake _ =>
    dsimp only [exec]
    exact State.wake_canonical h
  | yieldResume _ => exact execYieldResume_canonical h
  | watermarkStallResume _ => exact execWatermarkStallResume_canonical h
  | replayExecution _ => exact execReplayExecution_canonical h
  | bteCopyPart _ _ => exact execBteCopyPart_canonical h
  | bteCopyComplete _ _ => exact execBteCopyComplete_canonical h
  | rmaCompletion _ _ _ => exact execRmaCompletion_canonical h
  | rmaIncomingRequest _ => exact execRmaIncomingRequest_canonical h
  | rmaSendMatch _ _ _ => exact execRmaSendMatch_canonical h
  | rmaSendRetry _ => exact execRmaSendRetry_canonical h
  | connectionContextFetch _ _ => exact execConnectionContextFetch_canonical h
  | switchContribution _ => exact execSwitchContribution_canonical h
  | switchGroupTimeout _ _ => exact execSwitchGroupTimeout_canonical h
  | splResultArrival _ _ _ _ => exact execSplResultArrival_canonical h
  | collectiveOrder _ _ _ => exact execCollectiveOrder_canonical h
  | shootdownRange _ _ _ _ => exact execShootdownRange_canonical h
  | shootdownAsid _ _ _ => exact execShootdownAsid_canonical h
  | shootdownAll _ _ => exact execShootdownAll_canonical h
  | shootdownComplete _ => exact execShootdownComplete_canonical h
  | eventCounterWrite _ _ => exact execEventCounterWrite_canonical h
  | queueDoorbell _ _ => exact execQueueDoorbell_canonical h
  | queueEnable _ _ => exact execQueueEnable_canonical h
  | queueArm _ _ => exact execQueueArm_canonical h
  | completionHeadWrite _ _ => exact execCompletionHeadWrite_canonical h
  | preempt _ _ => exact execPreempt_canonical h
  | resume _ _ => exact execResume_canonical h
  | destroy _ => exact execDestroy_canonical h
  | destroyForce _ => exact execDestroyForce_canonical h
  | roleHalt _ _ => exact execRoleHalt_canonical h
  | gangSave _ => exact execGangSave_canonical h
  | completionEntryWrite _ => exact execCompletionEntryWrite_canonical h
  | interruptWindowClose _ => exact execInterruptWindowClose_canonical h
  | connectionOpen _ _ => exact execConnectionOpen_canonical h
  | connectionClose _ _ => exact execConnectionClose_canonical h
  | companderTableWrite _ _ _ => exact execCompanderTableWrite_canonical h
  | pcapWrite _ => exact execPcapWrite_canonical h
  | frameClockRequest _ => exact execFrameClockRequest_canonical h
  | frameClockChange => exact execFrameClockChange_canonical h
  | registerWrite _ _ => exact execRegisterWrite_canonical h
  | ebudgetUpdate _ => exact execEbudgetUpdate_canonical h
  | lifetimeRecordUpdate => exact execLifetimeRecordUpdate_canonical h
  | orderlyPowerDown => exact execOrderlyPowerDown_canonical
  | boot _ => exact execBoot_canonical h
  | alignGo _ _ => exact execAlignGo_canonical h
  | alignDissolve _ => exact execAlignDissolve_canonical h
  | alignmentTimeout => exact execAlignmentTimeout_canonical h
  | alignReadyNotice _ _ _ _ => exact execAlignReadyNotice_canonical h
  | startInstantNotice _ => exact execStartInstantNotice_canonical h
  | alignedStart => exact execAlignedStart_canonical h
  | holdNotice _ _ _ => exact execHoldNotice_canonical h
  | remoteHold => exact execRemoteHold_canonical h
  | faultNotice _ _ => exact execFaultNotice_canonical h
  | preemptForward _ _ _ => exact execPreemptForward_canonical h
  | linkReplay _ => exact execLinkReplay_canonical h
  | portRetrain _ => exact execPortRetrain_canonical h
  | illegalEncoding _ => exact execIllegalEncoding_canonical h
  | fetchNonexec _ => exact execFetchNonexec_canonical h
  | link _ => exact execLink_canonical h
  | powerLoss => exact execPowerLoss_canonical
  | hostAccess _ => exact execHostAccess_canonical h
  | contributionResend _ => exact execContributionResend_canonical h
  | groupIncomplete _ _ _ => exact execGroupIncomplete_canonical h
  | translationEviction _ _ => exact execTranslationEviction_canonical h
  | cacheLineEviction _ _ => exact execCacheLineEviction_canonical h
  | alignmentDone _ _ _ => exact execAlignmentDone_canonical h
  | ueLinkRetrain _ => exact execUeLinkRetrain_canonical h
  | frameStart => exact execFrameStart_canonical h
  | add _ | sub _ | addw _ | subw _ | and_ _ | or_ _ | xor_ _ | andn _ | shl _ | shr _ | sar _ | rot _ | mul _ | mulh _ | mulhu _
    | mulw _ | div _ | divu _ | rem _ | remu _ | min_ _ | max_ _ | minu _ | maxu _ | seq _ | slt _ | sltu _ | sne _ | lea _ =>
    dsimp only [exec]
    exact triAlu_canonical h
  | clz _ | ctz _ | popc _ | brev _ =>
    dsimp only [exec]
    exact binAlu_canonical h
  | addi _ | andi _ | ori _ | xori _ | shli _ | shri _ | sari _ | slti _ | sltiu _ =>
    dsimp only [exec]
    exact immAlu_canonical h
  | li _ => exact execLi_canonical h
  | lih _ => exact execLih_canonical h
  | cmpEq _ | cmpLt _ | cmpLtu _ | cmpNe _ =>
    dsimp only [exec]
    exact triCmp_canonical h
  | cmpiEq _ | cmpiLt _ | cmpiLtu _ | cmpiNe _ =>
    dsimp only [exec]
    exact immCmp_canonical h
  | pand _ | por _ | pxor _ | pnot _ =>
    dsimp only [exec]
    exact predOp_canonical h
  | sel _ => exact execSel_canonical h
  | extr _ => exact execExtr_canonical h
  | ins _ => exact execIns_canonical h
  | br _ => exact execBr_canonical h
  | call _ => exact execCall_canonical h
  | jr _ | ret _ =>
    dsimp only [exec]
    exact jumpReg_canonical h
  | jalr _ => exact execJalr_canonical h
  | loopk _ => exact execLoopk_canonical h
  | loope _ =>
    dsimp only [exec]
    exact execLoope_canonical h
  | wfe _ => exact execWfe_canonical h
  | ldB _ | ldH _ | ldW _ | ldD _ | lduB _ | lduH _ | lduW _ =>
    dsimp only [exec]
    exact loadX_canonical h
  | stB _ | stH _ | stW _ | stD _ =>
    dsimp only [exec]
    exact storeX_canonical h
  | ldy _ => exact execLdy_canonical h
  | sty _ => exact execSty_canonical h
  | ldyb _ => exact execLdyb_canonical h
  | ldyf _ => exact execLdyf_canonical h
  | ldsW _ | ldsD _ | ldseW _ | ldseD _ =>
    dsimp only [exec]
    exact loadFull_canonical h
  | stfW _ | stfD _ =>
    dsimp only [exec]
    exact storeFull_canonical h
  | sete _ => exact execSete_canonical h
  | aadd _ | aand _ | aor _ | axor _ | aswp _ | acas _ | amax _ | amin _ =>
    dsimp only [exec]
    exact amo_canonical h
  | fenceAcq _ => exact execFenceAcq_canonical h
  | fenceRel _ => exact execFenceRel_canonical h
  | fenceSc _ => exact execFenceSc_canonical h
  | tfence _ => exact execTfence_canonical h
  | cflush _ => exact execCflush_canonical h
  | cinv _ => exact execCinv_canonical h
  | cpref _ => exact execCpref_canonical h
  | ldl _ | ldld _ =>
    dsimp only [exec]
    exact loadLocalForm_canonical h
  | stl _ | stld _ =>
    dsimp only [exec]
    exact storeLocalForm_canonical h
  | hstart _ => exact execHstart_canonical h
  | hjoin _ => exact execHjoin_canonical h
  | hkill _ => exact execHkill_canonical h
  | hself _ => exact execHself_canonical h
  | qpeek _ => exact execQpeek_canonical h
  | qdepth _ => exact execQdepth_canonical h
  | qclose _ => exact execQclose_canonical h
  | qdrop _ => exact execQdrop_canonical h
  | gbar _ => exact execGbar_canonical h
  | garrive _ => exact execGarrive_canonical h
  | gwait _ => exact execGwait_canonical h
  | grank _ => exact execGrank_canonical h
  | repf _ => exact execRepf_canonical h
  | done _ => exact execDone_canonical h
  | signal _ => exact execSignal_canonical h
  | yield _ => exact execYield_canonical h
  | waitev _ => exact execWaitev_canonical h
  | tenonV _ => exact execTenonV_canonical h
  | tenonW _ => exact execTenonW_canonical h
  | tenonQ _ => exact execTenonQ_canonical h
  | rmaPut _ | rmaGet _ | rmaAmo _ | rmaSend _ =>
    dsimp only [exec]
    exact rmaForm_canonical h
  | rmaFlush _ => exact execRmaFlush_canonical h
  | rmaArm _ => exact execRmaArm_canonical h
  | rmaWait _ => exact execRmaWait_canonical h
  | yaddF32 _ | ysubF32 _ | ymulF32 _ | yfmaF32 _ | yaddBf16 _ | ysubBf16 _ | ymulBf16 _ | yfmaBf16 _ =>
    dsimp only [exec]
    exact yFloat_canonical h
  | yaddI32 _ | ysubI32 _ | ymulI32 _ | ymacI32 _ | yminF32 _ | ymaxF32 _ | yminI32 _ | ymaxI32 _ | yand _ | yor _ | yxor _ | ysel _ =>
    dsimp only [exec]
    exact yInt_canonical h
  | ycvtBf16F32 _ | ycvtF32Bf16 _ | ycvtI32F32 _ | ycvtF32I32 _ | yshf _ =>
    dsimp only [exec]
    exact yForm_canonical h
  | yrsumF32 _ | yrmaxF32 _ | yrsumI32 _ | yrmaxI32 _ =>
    dsimp only [exec]
    exact yReduce_canonical h
  | ybcast _ => exact execYbcast_canonical h
  | yext _ => exact execYext_canonical h
  | yins _ => exact execYins_canonical h
  | vaddF32 _ | vsubF32 _ | vmulF32 _ | vfmaF32 _ | vminF32 _ | vmaxF32 _ | vaddBf16 _ | vsubBf16 _ | vmulBf16 _ | vfmaBf16 _
    | vminBf16 _ | vmaxBf16 _ | vaddF16 _ | vsubF16 _ | vmulF16 _ | vfmaF16 _ | vminF16 _ | vmaxF16 _ | vaddI32 _ | vsubI32 _
    | vmulI32 _ | vmacI32 _ | vminI32 _ | vmaxI32 _ | vaddI16 _ | vsubI16 _ | vmulI16 _ | vmacI16 _ | vminI16 _ | vmaxI16 _ | vaddI8 _
    | vsubI8 _ | vmulI8 _ | vmacI8 _ | vminI8 _ | vmaxI8 _ | vcmpEqF32 _ | vcmpLtF32 _ | vcmpLeF32 _ | vcmpNeF32 _ | vcmpEqI32 _
    | vcmpLtI32 _ | vcmpLeI32 _ | vcmpNeI32 _ | vand _ | vor _ | vxor _ =>
    dsimp only [exec]
    exact vTri_canonical h
  | vabsF32 _ | vnegF32 _ | vabsBf16 _ | vnegBf16 _ | vabsF16 _ | vnegF16 _ | vabsI32 _ | vnegI32 _ | vabsI16 _ | vnegI16 _ | vabsI8 _
    | vnegI8 _ | vexp2 _ | vrcp _ | vrsq _ | vlog2 _ | vnot _ | vmovv _ =>
    dsimp only [exec]
    exact vBin_canonical h
  | vcvtF32Bf16 _ | vcvtF32F16 _ =>
    dsimp only [exec]
    exact vWiden_canonical h
  | vcvtBf16F32 _ | vcvtF16F32 _ | vcvtI16I32 _ | vcvtI8I16 _ =>
    dsimp only [exec]
    exact vNarrow_canonical h
  | vcvtF32I32 _ | vcvtI32F32 _ =>
    dsimp only [exec]
    exact vSame_canonical h
  | vqnt _ => exact execVqnt_canonical h
  | vdq _ => exact execVdq_canonical h
  | vscl _ => exact execVscl_canonical h
  | vcomp _ => exact execVcomp_canonical h
  | vshuf _ | vrot _ | vbcst _ | vtrn _ | vsel _ | vfill _ | vmerge _ =>
    dsimp only [exec]
    exact laneForm_canonical h
  | vmask _ => exact execVmask_canonical h
  | vrsumF32 _ | vrmaxF32 _ | vrsumI32 _ | vrmaxI32 _ =>
    dsimp only [exec]
    exact vReduce_canonical h
  | vld _ => exact execVld_canonical h
  | vst _ => exact execVst_canonical h
  | vldb _ => exact execVldb_canonical h
  | vstm _ => exact execVstm_canonical h
  | vmova _ => exact execVmova_canonical h
  | vsplat _ | viota _ =>
    dsimp only [exec]
    exact vForm_canonical h
  | mmB8 _ | mmI8 _ | mmI4 _ | mmBf16 _ | mmsB8 _ | mmsI8 _ | mmsBf16 _ =>
    dsimp only [exec]
    exact mmForm_canonical h
  | spsel _ => exact execSpsel_canonical h
  | arel _ => exact execArel_canonical h
  | ard _ => exact execArd_canonical h
  | awr _ => exact execAwr_canonical h
  | azero _ => exact execAzero_canonical h
  | osmUpd _ => exact execOsmUpd_canonical h
  | osmMrg _ => exact execOsmMrg_canonical h
  | osmFin _ => exact execOsmFin_canonical h
  | osmRst _ => exact execOsmRst_canonical h
  | lload _ => exact execLload_canonical h
  | lpass _ => exact execLpass_canonical h
  | lswap _ => exact execLswap_canonical h
  | lstat _ => exact execLstat_canonical h
  | vdot4I8 _ | vdot4sI8 _ | vdot2I16 _ | vdot2sI16 _ =>
    dsimp only [exec]
    exact vdot_canonical h
  | winSig _ => exact execWinSig_canonical h
  | winCmp _ => exact execWinCmp_canonical h
  | winSkip _ => exact execWinSkip_canonical h
  | winKeep _ => exact execWinKeep_canonical h
  | winStep _ => exact execWinStep_canonical h
  | winMap _ => exact execWinMap_canonical h
  | winSet _ => exact execWinSet_canonical h
  | winClr _ => exact execWinClr_canonical h
  | cpyBox _ | cpyMcast _ | cpyRed _ | cpyLin _ =>
    dsimp only [exec]
    exact cpy_canonical h
  | barInit _ => exact execBarInit_canonical h
  | barArrive _ => exact execBarArrive_canonical h
  | barWait _ => exact execBarWait_canonical h
  | barTest _ => exact execBarTest_canonical h
  | jigLoad _ => exact execJigLoad_canonical h
  | jigGo _ => exact execJigGo_canonical h
  | jigStop _ => exact execJigStop_canonical h
  | jigStat _ => exact execJigStat_canonical h
  | wmSet _ => exact execWmSet_canonical h
  | wmRd _ => exact execWmRd_canonical h
  | clSend _ => exact execClSend_canonical h
  | clChk _ => exact execClChk_canonical h
  | chPut _ => exact execChPut_canonical h
  | chGet _ => exact execChGet_canonical h
  | chRed _ => exact execChRed_canonical h
  | chStat _ => exact execChStat_canonical h
  | splGrp _ => exact execSplGrp_canonical h
  | splRst _ => exact execSplRst_canonical h
  | splLdr _ => exact execSplLdr_canonical h
  | splStat _ => exact execSplStat_canonical h
  | ringSet _ => exact execRingSet_canonical h
  | ringNext _ => exact execRingNext_canonical h
  | ringSkip _ => exact execRingSkip_canonical h
  | ringRd _ => exact execRingRd_canonical h
  | anchor _ => exact execAnchor_canonical h
  | mlatch _ => exact execMlatch_canonical h
  | slipchk _ => exact execSlipchk_canonical h
  | fcnt _ => exact execFcnt_canonical h
  | seql _ => exact execSeql_canonical h
  | seqlRead _ => exact execSeqlRead_canonical h
  | bhalt _ => exact execBhalt_canonical h
  | pause _ => exact execPause_canonical h
  | bhdr _ => exact execBhdr_canonical h
  | trap _ => exact execTrap_canonical h
  | sysrd _ => exact execSysrd_canonical h
  | syswr _ => exact execSyswr_canonical h
  | eret _ => exact execEret_canonical h
  | ext _ => exact execExt_canonical h

end Sys2Proof.Machine
end

section

/-! ## O60: groups, bundles, the plan of a tick and the step -/

namespace Sys2Proof.Machine

variable {s s0 : State} {a addr b c pc w : Nat} {ss : List SlotSyl} {run : RunsBundle}

/-! ### Groups (Machine/WeaveIssue) -/

@[simp] theorem State.runSyl_canonical (h : s.Canonical) : Answer.Canonical (s.runSyl c addr w) := by
  unfold State.runSyl
  dsimp only
  split
  · exact exec_canonical _ h
  · simp [h]

@[simp] theorem State.barArrivals_canonical (h : s.Canonical) : (s.barArrivals c a w).Canonical := by
  unfold State.barArrivals
  split <;> simp [h]

@[simp] theorem State.runSecond_canonical {u : State} (hu : u.Canonical) : Answer.Canonical (s.runSecond u c a w) := by
  unfold State.runSecond
  split
  · split
    · next hv => simpa using (State.runSyl_canonical (by simp [hu])).next hv
    · exact State.runSyl_canonical (by simp [hu])
  · exact State.runSyl_canonical hu

@[simp] theorem State.runBoth_canonical {b0 b1 v0 v1 : Nat} (h : s.Canonical) : Answer.Canonical (s.runBoth c b0 v0 b1 v1) := by
  unfold State.runBoth
  extract_lets go swap r
  have hgo (a w b v : Nat) : Answer.Canonical (go a w b v) := by
    unfold go
    split
    · next hu => exact State.runSecond_canonical ((State.runSyl_canonical h).next hu)
    · exact State.runSyl_canonical h
  have hr : Answer.Canonical r := by simp [r, hgo]
  clear_value r
  split
  · simp [hr.next rfl, hgo]
  · exact hr

@[simp] theorem State.runPair_canonical {b0 b1 v0 v1 : Nat} (h : s.Canonical) : Answer.Canonical (s.runPair c b0 v0 b1 v1) := by
  have hb : ((s.barArrivals c b0 v0).barArrivals c b1 v1).Canonical := by simp [h]
  unfold State.runPair
  split
  · next hu hv =>
    have hu := (State.runSyl_canonical h).next hu
    have hv := (State.runSyl_canonical h).next hv
    simp only [Answer.canonical_ite, Answer.canonical_next, State.canonical_ite]
    refine ⟨fun _ => hu, fun _ => ⟨fun _ => by split <;> assumption, fun _ => ⟨fun _ => hu, fun _ => ⟨fun _ => hv, fun _ => ?_⟩⟩⟩⟩
    split
    · next hu hv => simp [(State.runSyl_canonical hb).next hu, (State.runSyl_canonical hb).next hv, hb]
    · exact State.runSyl_canonical hb
    · exact State.runSyl_canonical hb
  · exact State.runSyl_canonical h
  · exact State.runSyl_canonical h

@[simp] theorem State.runExt_canonical {b0 b1 v0 v1 : Nat} (h : s.Canonical) : Answer.Canonical (s.runExt c b0 v0 b1 v1) := by
  unfold State.runExt
  split
  · next hu => exact State.runSyl_canonical ((State.runSyl_canonical h).next hu)
  · exact State.runSyl_canonical h

@[simp] theorem State.testing_canonical {ws : List (Nat × Nat)} : (s.testing c ws).Canonical ↔ s.Canonical := by simp [State.testing]

@[simp] theorem State.runGroup_canonical {ws : List (Nat × Nat)} (h : s0.Canonical) : Answer.Canonical (s0.runGroup c ws) := by
  unfold State.runGroup
  split <;> simp [h]

@[simp] theorem State.beginGroup_canonical {pc after : Nat} : (s.beginGroup c pc after).Canonical ↔ s.Canonical := by
  simp [State.beginGroup]

@[simp] theorem State.tellYields_canonical : (s.tellYields c).Canonical ↔ s.Canonical := by simp [State.tellYields]
@[simp] theorem State.tookSlot_canonical : (s.tookSlot c).Canonical ↔ s.Canonical := by simp [State.tookSlot]

@[simp] theorem State.endGroup_canonical (h : s.Canonical) : (s.endGroup c).Canonical := by
  unfold State.endGroup
  split
  · split <;> simp [h]
  · extract_lets s0 u
    have hu : u.Canonical := by simp [u, s0, h]
    split <;> simp [hu]

theorem State.firstEnds_canonical {u : State} (h : s.Canonical) (e : s.firstEnds c pc = some u) : u.Canonical := by
  unfold State.firstEnds at e
  split at e
  · cases e
  · split at e
    · cases e
    · next ht =>
      have ht := State.fetchSyl_ensures h (P := fun r => r.2.Canonical) (fun _ _ hu => hu) _ ht
      split at e
      · cases e
      · split at e
        · next hu =>
          have hu := (State.runSyl_canonical (State.testing_canonical.2 ht)).next hu
          split at e
          · cases e; exact hu
          · cases e
        · cases e

@[simp] theorem State.issueGroup_canonical (h : s.Canonical) : Answer.Canonical (s.issueGroup c) := by
  unfold State.issueGroup
  split
  · simpa using h
  · next k _ =>
    extract_lets pc s0 r
    have h0 : s0.Canonical := State.beginGroup_canonical.2 h
    have hfirst (e : Stop) : Answer.Canonical (((s0.firstEnds c pc).map .next).getD (finishW s0 c (.error e))) := by
      cases hf : s0.firstEnds c pc with
      | none => simp [h0]
      | some u => simpa using State.firstEnds_canonical h0 hf
    have hr : Answer.Canonical r := by
      unfold r
      split
      · dsimp only
        split
        · split
          · simp [h0]
          · exact hfirst _
        · exact hfirst _
      · next hf =>
        have hu := State.fetchGroup_ensures h0 (P := fun r => r.2.2.Canonical) (fun _ _ _ ht => ht) _ hf
        dsimp only
        split <;> simp [hu]
    clear_value r
    split
    · exact (Answer.canonical_next _).2 (State.endGroup_canonical (by split <;> simpa using hr.next rfl))
    · exact hr

@[simp] theorem State.sameTurn_canonical {t : State} {core : Nat} (h : t.Canonical) : (s.sameTurn t core).Canonical := by
  simp [State.sameTurn, h]

@[simp] theorem State.finishGroup_canonical (h : s.Canonical) : Answer.Canonical (s.finishGroup c) := by
  unfold State.finishGroup
  split
  · next ht => simp [h, (State.issueGroup_canonical h).next ht]
  · exact State.issueGroup_canonical h

@[simp] theorem State.testGroup_canonical (h : s.Canonical) : Answer.Canonical (s.testGroup c) := by
  unfold State.testGroup
  split
  · next ht => simp [h, (State.finishGroup_canonical h).next ht]
  · exact State.finishGroup_canonical h

@[simp] theorem State.runReplay_canonical (h : s.Canonical) : Answer.Canonical (s.runReplay c) := by
  unfold State.runReplay
  split
  · simpa using h
  · dsimp only
    have hrun {c g : Nat} {ws : List (Nat × Nat)} :
        Answer.Canonical (State.runGroup { s with ctl := { s.ctl with group := g, ext := none } } c ws) :=
      State.runGroup_canonical h
    split
    · next ht => simpa using hrun.next ht
    · exact hrun

/-! ### Bundles (Machine/FrameIssue) -/

@[simp] theorem State.runSlot_canonical {y : SlotSyl} (h : s.Canonical) : Answer.Canonical (s.runSlot b y) := by
  unfold State.runSlot
  dsimp only
  split
  · exact exec_canonical _ h
  · simp [h]

theorem State.trapIn_canonical {r : Answer} (h : s.Canonical) (e : s.trapIn b ss = some r) : Answer.Canonical r := by
  induction ss with
  | nil => cases e
  | cons y ss ih =>
    unfold State.trapIn at e
    have hy := State.runSlot_canonical (b := b) (y := y) h
    split at e
    · next hu =>
      split at e
      · cases e; simpa using hy.next hu
      · exact ih e
    · cases e; exact hy

@[simp] theorem State.runSlots_canonical (h : s.Canonical) : Answer.Canonical (s.runSlots b ss) := by
  induction ss generalizing s with
  | nil => simpa [State.runSlots] using h
  | cons y ss ih =>
    unfold State.runSlots
    have hy := State.runSlot_canonical (b := b) (y := y) h
    split
    · next hu => exact ih (hy.next hu)
    · exact hy

@[simp] theorem State.runHalt_canonical {before : BitVec 16} (h : s.Canonical) : Answer.Canonical (s.runHalt b before ss) := by
  unfold State.runHalt
  split
  · simpa using h
  · next y _ =>
    have hy := State.runSlot_canonical (b := b) (y := y) (State.modBench_canonical (b := b) (f := fun k => { k with g := before }).2 h)
    dsimp only
    split
    · next hu => simpa using hy.next hu
    · exact hy

@[simp] theorem State.runBundle_canonical {link : Nat} {ws : List Nat} (h : s.Canonical) :
    Answer.Canonical (s.runBundle b addr link ws ss) := by
  have h0 (k : Ctl) : State.Canonical { s with ctl := k } := h
  unfold State.runBundle
  dsimp only
  split
  · simp [h0]
  · next i _ =>
    split
    · next ht =>
      have ht := (exec_canonical i (h0 _)).next ht
      split
      · next hr => exact State.trapIn_canonical ht hr
      · split
        · next hu => exact State.runHalt_canonical ((State.runSlots_canonical ht).next hu)
        · exact State.runSlots_canonical ht
    · exact exec_canonical i (h0 _)

@[simp] theorem State.feedNext_canonical : (s.feedNext b).Canonical ↔ s.Canonical := by
  unfold State.feedNext
  dsimp only
  split
  · rfl
  · split
    · rfl
    · split <;> simp

/-- A way of running a bundle keeps the canonical form. -/
def RunsBundle.Keeps (run : RunsBundle) : Prop :=
  ∀ s b addr link ws ss, s.Canonical → Answer.Canonical (run s b addr link ws ss)

theorem State.runBundle_keeps : RunsBundle.Keeps State.runBundle := fun _ _ _ _ _ _ h => State.runBundle_canonical h

theorem State.issueAt_canonical {p : Place} (hrun : run.Keeps) (h : s.Canonical) : Answer.Canonical (s.issueAt run b p) := by
  unfold State.issueAt
  dsimp only
  split
  · simp [h]
  · split
    · simp [h]
    · simp [h]
    · split
      · simp [h]
      · split
        · simp [h]
        · simp [h]
        · split
          · next hu => simpa using (hrun _ _ _ _ _ _ (by simp [h])).next hu
          · exact hrun _ _ _ _ _ _ (by simp [h])

theorem State.issueBy_canonical (hrun : run.Keeps) (h : s.Canonical) : Answer.Canonical (s.issueBy run b) := by
  unfold State.issueBy
  dsimp only
  split
  · simpa using h
  · split
    · exact State.issueAt_canonical hrun h
    · simpa using h

@[simp] theorem State.issueBundle_canonical (h : s.Canonical) : Answer.Canonical (s.issueBundle b) :=
  State.issueBy_canonical State.runBundle_keeps h

theorem State.templateBy_canonical (hrun : run.Keeps) (h : s.Canonical) : Answer.Canonical (s.templateBy run b) := by
  unfold State.templateBy
  dsimp only
  split
  · simp [h]
  · exact hrun _ _ _ _ _ _ h

@[simp] theorem State.issueTemplate_canonical (h : s.Canonical) : Answer.Canonical (s.issueTemplate b) :=
  State.templateBy_canonical State.runBundle_keeps h

/-! ### The plan of a tick (Machine/Tick) -/

@[simp] theorem State.plans_canonical {as : List Act} {n : Nat} : (s.plans as n).Canonical ↔ s.Canonical := by simp [State.plans]
@[simp] theorem State.planStart_canonical : s.planStart.Canonical ↔ s.Canonical := by simp [State.planStart]
@[simp] theorem State.planAdmin_canonical (h : s0.Canonical) : s0.planAdmin.Canonical := by simp [State.planAdmin, h]

@[simp] theorem State.planFrame_canonical (h : s.Canonical) : s.planFrame.Canonical := by
  unfold State.planFrame
  repeat' split
  all_goals simp [h]

@[simp] theorem State.testFetch_canonical : s.testFetch.Canonical ↔ s.Canonical := by simp [State.testFetch]
@[simp] theorem State.testCauses_canonical : s.testCauses.Canonical ↔ s.Canonical := by simp [State.testCauses]
@[simp] theorem State.planCauses_canonical : s.planCauses.Canonical ↔ s.Canonical := by simp [State.planCauses]
@[simp] theorem State.planHold_canonical : s.planHold.Canonical ↔ s.Canonical := by simp [State.planHold]
@[simp] theorem State.planLand_canonical : s.planLand.Canonical ↔ s.Canonical := by simp [State.planLand]
@[simp] theorem State.planSwap_canonical : s.planSwap.Canonical ↔ s.Canonical := by simp [State.planSwap]
@[simp] theorem State.planPause_canonical : s.planPause.Canonical ↔ s.Canonical := by simp [State.planPause]

@[simp] theorem State.planEvents_canonical : s.planEvents.Canonical ↔ s.Canonical := by
  unfold State.planEvents
  split <;> simp

@[simp] theorem State.planBundles_canonical (h : s.Canonical) : s.planBundles.Canonical := by
  unfold State.planBundles
  dsimp only
  split <;> simp [h]

@[simp] theorem State.planRequests_canonical : s.planRequests.Canonical ↔ s.Canonical := by simp [State.planRequests]
@[simp] theorem State.planSlots_canonical : s.planSlots.Canonical ↔ s.Canonical := by simp [State.planSlots]
@[simp] theorem State.planStores_canonical : s.planStores.Canonical ↔ s.Canonical := by simp [State.planStores]
@[simp] theorem State.planWeave_canonical : s.planWeave.Canonical ↔ s.Canonical := by simp [State.planWeave]
@[simp] theorem State.planTurn_canonical {core j : Nat} : (s.planTurn core j).Canonical ↔ s.Canonical := by simp [State.planTurn]
@[simp] theorem State.planEnds_canonical (h : s.Canonical) : s.planEnds.Canonical := by simp +contextual [State.planEnds, h]
@[simp] theorem State.planReady_canonical : s.planReady.Canonical ↔ s.Canonical := by simp [State.planReady]
@[simp] theorem State.planPlace_canonical : s.planPlace.Canonical ↔ s.Canonical := by simp [State.planPlace]

@[simp] theorem State.planFrameDone_canonical (h : s.Canonical) : s.planFrameDone.Canonical := by
  have ht := State.finishWrites_canonical h
  unfold State.planFrameDone
  dsimp only
  split
  · simpa using h
  · split
    · simp [ht]
    · split
      · simpa using ht
      · have hu := foldl_canonical s.frame.latches (f := State.applyLatch) ht fun v l hv => State.applyLatch_canonical hv
        simp [hu]

@[simp] theorem State.benchTicks_canonical : s.benchTicks.Canonical ↔ s.Canonical := by simp [State.benchTicks]
@[simp] theorem State.planAdvance_canonical : s.planAdvance.Canonical ↔ s.Canonical := by simp [State.planAdvance]
@[simp] theorem State.planEntries_canonical : s.planEntries.Canonical ↔ s.Canonical := by simp [State.planEntries]
@[simp] theorem State.planEnd_canonical (h : s0.Canonical) : s0.planEnd.Canonical := by simp [State.planEnd, h]

@[simp] theorem State.plan_canonical {n : Nat} (h : s.Canonical) : (s.plan n).Canonical := by
  unfold State.plan
  split
  · simp [h]
  · split <;> simp [h]

@[simp] theorem State.takeEvent_canonical {i : Instr} (h : s.Canonical) : Answer.Canonical (s.takeEvent i) := by
  unfold State.takeEvent
  split
  · simpa using h
  · exact exec_canonical i h

@[simp] theorem State.act_canonical (h : s.Canonical) : Answer.Canonical s.act := by
  unfold State.act
  split
  · simp [h]
  · split <;> simp [h]

/-- Settles O60: what a step does is one act of the agenda, a bundle, a group, an event or a phase of the plan, and each keeps the form. -/
theorem canonicalKept : Obligations.CanonicalKept := by
  unfold Obligations.CanonicalKept
  intro s t h ht
  exact (State.act_canonical h).next ht

end Sys2Proof.Machine
end

section

/-! # O47: remote access, connections, switches and Spline groups (R260, R269, R297, R343, R344, R347 to R349, R402, R404, R418) -/

namespace Sys2Proof.Machine

variable {s t u v : State} {id conn tag asid gr gid sq st core : Nat} {data : List Nat} {r : RmaReq} {k : Conn} {ps : List Part}
  {e : SwitchEntry} {c : Contribution} {g : Group} {gg : Gang} {rq : RemoteRequest} {er : Stop} {old : W64} {cmd : ConnCommand}

/-! ### A packet that meets no cached context (R404) -/

theorem State.connCached_of_tget (h : tget s.eng.conns conn = some k) : s.connCached conn = k.cached := by
  simp [State.connCached, h]

theorem State.turnAway_unknown (h : tget s.eng.conns conn = none) : s.turnAway conn = s.send (.retryLater conn) := by
  simp [State.turnAway, h]

/-- The context is fetched, where no fetch of it is under way, and the packet is turned away. -/
theorem State.turnAway_known (h : tget s.eng.conns conn = some k) (hc : k.cached = false) : s.turnAway conn =
    (if k.fetchAt.isSome = true then s
      else s.setConn conn { k with fetchAt := some (s.ctl.now + Config.contextFetchDelay s.ctl.now conn) }).send (.retryLater conn) := by
  simp [State.turnAway, State.fetchConn, State.setConn, h, hc]

/-! ### Answers (R347, R348) -/

section
variable (hr : tget s.eng.reqs id = some r) (hs : r.status = none) (ha : r.armed = none) (h4 : r.op ≠ 4)
include hr hs ha h4

theorem execRmaCompletion_not_cached (hop : r.op = 1 ∨ r.op = 2 ∨ r.op = 5) (hc : s.connCached r.conn = false) :
    execRmaCompletion id st data s = .next (s.turnAway r.conn) := by
  simp [execRmaCompletion, hr, hs, ha, h4, hop, hc]

/-- An answer that is heard: of a PUT or a SEND always, of the others at a cached context. -/
theorem execRmaCompletion_heard (hc : r.op = 0 ∨ r.op = 3 ∨ s.connCached r.conn = true) : execRmaCompletion id st data s =
    if st ≠ 0 then .next ((s.useConn r.conn).completeReq id st)
    else if r.op = 1 ∨ r.op = 2 then
      (if data.length = r.len then .next ((s.useConn r.conn).placeReq id r data 0) else .fault .noSubject)
    else if r.op = 5 ∧ s.flushWaits id r then .fault .noSubject
    else .next ((s.useConn r.conn).completeReq id 0) := by
  have hnot : ¬((r.op = 1 ∨ r.op = 2 ∨ r.op = 5) ∧ (!s.connCached r.conn) = true) := by
    rintro ⟨hop, hn⟩
    rcases hc with h | h | h
    · omega
    · omega
    · simp [h] at hn
  unfold execRmaCompletion
  simp only [hr, hs, ha, h4, Option.isSome_none, Bool.false_eq_true, or_self, if_false, if_neg hnot]

theorem execRmaCompletion_status (hc : r.op = 0 ∨ r.op = 3 ∨ s.connCached r.conn = true) (hst : st ≠ 0) :
    execRmaCompletion id st data s = .next ((s.useConn r.conn).completeReq id st) := by
  rw [execRmaCompletion_heard hr hs ha h4 hc, if_pos hst]

theorem execRmaCompletion_left (hop : r.op = 0 ∨ r.op = 3) :
    execRmaCompletion id 0 data s = .next ((s.useConn r.conn).completeReq id 0) := by
  have h12 : ¬(r.op = 1 ∨ r.op = 2) := by omega
  have h5 : ¬(r.op = 5 ∧ s.flushWaits id r = true) := by omega
  rw [execRmaCompletion_heard hr hs ha h4 (by tauto), if_neg (by simp), if_neg h12, if_neg h5]

/-- What a GET or an AMO brings is placed at its LADDR. -/
theorem execRmaCompletion_placed (hop : r.op = 1 ∨ r.op = 2) (hc : s.connCached r.conn = true) (hlen : data.length = r.len)
    (hp : (s.useConn r.conn).reach r.asid r.user .write r.laddr r.len = .ok ps) : execRmaCompletion id 0 data s =
      .next ((((s.useConn r.conn).spanWalks r.asid r.laddr ps).spanPut ps (bytesOf data)).completeReq id 0) := by
  rw [execRmaCompletion_heard hr hs ha h4 (.inr (.inr hc)), if_neg (by simp), if_pos hop, if_pos hlen]
  simp [State.placeReq, hlen, hp]
end

/-! ### An AMO of another package (R297, R348) -/

/-- What an AMO with the new value `new`, if it writes one, makes of the word in `ps`. -/
def State.amoPut (s : State) : Option W64 → List Part → State
  | some x, y :: _ => { s with mem := s.mem.putBytes (!y.leaf.nc) y.pa (leBytes 8 x.toNat) }
  | _, _ => s

theorem State.remoteAmo_done (ha : rq.addr % 8 = 0) (hr : u.reach asid true .both rq.addr 8 = .ok ps)
    (ht : ∀ z, z ∈ ps → atomicTarget z.pa rq.aop = true) (hg : u.spanGood ps = .ok ())
    (ho : old = BitVec.ofNat 64 (leNat ((u.spanMeet asid rq.addr ps).spanRead ps))) :
    u.remoteAmo asid rq = .ok (old, (u.spanMeet asid rq.addr ps).amoPut
      (atomicNew rq.aop old (BitVec.ofNat 64 rq.opnd1) (BitVec.ofNat 64 rq.opnd2)) ps) := by
  have hall : ps.all (fun p => atomicTarget p.pa rq.aop) = true := List.all_eq_true.2 ht
  simp only [State.remoteAmo, need, ha, hr, hall, hg, ← ho, bind, Except.bind, beq_self_eq_true, if_true]
  cases atomicNew rq.aop old (BitVec.ofNat 64 rq.opnd1) (BitVec.ofNat 64 rq.opnd2) <;> cases ps <;> rfl

theorem State.remoteAmo_unreached (ha : rq.addr % 8 = 0) (hr : u.reach asid true .both rq.addr 8 = .error er) :
    u.remoteAmo asid rq = .error er := by
  simp [State.remoteAmo, need, ha, hr]
  rfl

theorem State.remoteAmo_unaligned (ha : rq.addr % 8 ≠ 0) : u.remoteAmo asid rq = .error (.cause cAtomic rq.addr 0) := by
  simp [State.remoteAmo, need, ha]
  rfl

theorem State.answerAmo_done (h : t.remoteAmo asid rq = .ok (old, u)) :
    t.answerAmo asid rq = u.send (.answer rq.conn 0 ((leBytes 8 old.toNat).map (·.toNat))) := by
  simp [State.answerAmo, h]

theorem State.answerAmo_failed (h : t.remoteAmo asid rq = .error er) : t.answerAmo asid rq = t.send (.answer rq.conn 1 []) := by
  simp [State.answerAmo, h]

/-- The request's word lies in tensor SRAM, at bench `b`. -/
def State.AmoAt (s : State) (asid : Nat) (rq : RemoteRequest) (b : Nat) : Prop :=
  rq.addr % 8 = 0 ∧ ∃ y ys off, s.span asid true .both rq.addr 8 = .ok (y :: ys) ∧ regionOf y.pa = .sram b off

theorem State.amoBench_eq_some {b : Nat} : s.amoBench asid rq = some b ↔ s.AmoAt asid rq b := by
  unfold State.amoBench State.AmoAt
  split
  · simp [*]
  · split
    · split <;> simp_all
    · simp_all

/-! ### Requests of other packages (R348) -/

section
variable (hk : tget s.eng.conns rq.conn = some k)
include hk

theorem execRmaIncomingRequest_not_cached (hc : k.cached = false) :
    execRmaIncomingRequest rq s = .next (s.turnAway rq.conn) := by
  simp [execRmaIncomingRequest, hk, hc]

variable (hc : k.cached = true)
include hc

theorem execRmaIncomingRequest_put (hop : rq.op = 0)
    (hr : (s.useConn rq.conn).reach k.asid true .write rq.addr rq.data.length = .ok ps) : execRmaIncomingRequest rq s =
      .next ((((s.useConn rq.conn).spanWalks k.asid rq.addr ps).spanPut ps (bytesOf rq.data)).send (.answer rq.conn 0 [])) := by
  simp [execRmaIncomingRequest, hk, hc, hop, hr]

theorem execRmaIncomingRequest_put_failed (hop : rq.op = 0)
    (hr : (s.useConn rq.conn).reach k.asid true .write rq.addr rq.data.length = .error er) :
    execRmaIncomingRequest rq s = .next ((s.useConn rq.conn).send (.answer rq.conn 1 [])) := by
  simp [execRmaIncomingRequest, hk, hc, hop, hr]

theorem execRmaIncomingRequest_get (hop : rq.op = 1) (hr : (s.useConn rq.conn).reach k.asid true .read rq.addr rq.len = .ok ps)
    (hg : (s.useConn rq.conn).spanGood ps = .ok ()) : execRmaIncomingRequest rq s =
      .next (((s.useConn rq.conn).spanMeet k.asid rq.addr ps).send
        (.answer rq.conn 0 (((s.useConn rq.conn).spanRead ps).map (·.toNat)))) := by
  simp [execRmaIncomingRequest, hk, hc, hop, hr, hg]

theorem execRmaIncomingRequest_get_failed (hop : rq.op = 1)
    (hr : (s.useConn rq.conn).reach k.asid true .read rq.addr rq.len = .error er) :
    execRmaIncomingRequest rq s = .next ((s.useConn rq.conn).send (.answer rq.conn 1 [])) := by
  simp [execRmaIncomingRequest, hk, hc, hop, hr]

theorem execRmaIncomingRequest_amo_at_port {b : Nat} (hop : rq.op = 2) (hb : (s.useConn rq.conn).AmoAt k.asid rq b) :
    execRmaIncomingRequest rq s =
      .next ((s.useConn rq.conn).modBench b (fun n => { n with port := n.port ++ [.amo k.asid rq] })) := by
  simp [execRmaIncomingRequest, hk, hc, hop, State.amoBench_eq_some.2 hb]

theorem execRmaIncomingRequest_amo (hop : rq.op = 2) (hb : ∀ b, ¬(s.useConn rq.conn).AmoAt k.asid rq b) :
    execRmaIncomingRequest rq s = .next ((s.useConn rq.conn).answerAmo k.asid rq) := by
  have hnone : (s.useConn rq.conn).amoBench k.asid rq = none :=
    Option.eq_none_iff_forall_ne_some.2 fun b h => hb b (State.amoBench_eq_some.1 h)
  simp [execRmaIncomingRequest, hk, hc, hop, hnone]
end

/-! ### SENDs (R349) -/

section
variable (hk : tget s.eng.conns conn = some k)
include hk

theorem execRmaSendMatch_not_cached (hc : k.cached = false) : execRmaSendMatch conn tag data s = .next (s.turnAway conn) := by
  simp [execRmaSendMatch, hk, hc]

variable (hc : k.cached = true)
include hc

theorem execRmaSendMatch_unmatched
    (hf : (s.useConn conn).eng.reqs.find? (fun z => z.2.conn == conn && z.2.armed == some tag) = none) :
    execRmaSendMatch conn tag data s = .next ((s.useConn conn).send (.sendAnswer conn tag false)) := by
  simp only [execRmaSendMatch, hk, hc, hf]
  rfl

variable (hf : (s.useConn conn).eng.reqs.find? (fun z => z.2.conn == conn && z.2.armed == some tag) = some (id, r))
include hf

theorem execRmaSendMatch_received (h4 : r.op = 4) : execRmaSendMatch conn tag data s =
    .next (((s.useConn conn).send (.sendAnswer conn tag true)).placeReq id r (data.take r.len)
      (if r.len < data.length then 3 else 0)) := by
  simp only [execRmaSendMatch, hk, hc, hf, h4]
  rfl

theorem execRmaSendMatch_starts (h4 : r.op ≠ 4) (hv : ((s.useConn conn).send (.sendAnswer conn tag true)).fireReq id r = .ok v) :
    execRmaSendMatch conn tag data s = .next v := by
  simp only [execRmaSendMatch, hk, hc, hf, if_neg h4, hv]
  rfl
end

/-- A request that a SEND starts goes after the earlier stores of its role's core; a GET does not wait for them. -/
theorem State.fireReq_of_core (hg : s.weave.gangs.find? (fun z => z.2.launch == r.launch && z.2.idx == r.gidx) = some (gr, gg))
    (hcore : gg.cores[r.role]? = some core) : s.fireReq id r = (if r.op = 1 then s else s.drainAll core).startReq id := by
  simp [State.fireReq, hg, hcore]

section
variable (hr : tget s.eng.reqs id = some r) (h3 : r.op = 3) (hs : r.status = none) (ha : r.armed = none)
  (hk : tget s.eng.conns r.conn = some k)
include hr h3 hs ha hk

theorem execRmaSendRetry_spent (hn : k.retry ≤ r.retries) : execRmaSendRetry id s = .next (s.completeReq id 2) := by
  simp [execRmaSendRetry, hr, h3, hs, ha, hk, hn]

theorem execRmaSendRetry_again (hn : r.retries < k.retry)
    (hv : (s.setReq id { r with retries := r.retries + 1 }).startReq id = .ok v) : execRmaSendRetry id s = .next v := by
  simp_all [execRmaSendRetry, Nat.not_le.2 hn]
end

/-! ### Connections (R404, R418) -/

@[simp] theorem State.endConn_conns (s : State) (conn : Nat) : tget (s.endConn conn).eng.conns conn = none := by simp [State.endConn]

/-- A cached context that is used keeps all but the time of its use. -/
theorem State.tget_useConn (hk : tget s.eng.conns conn = some k) (hc : k.cached = true) :
    tget (s.useConn conn).eng.conns conn = some { k with used := s.weave.nextId } := by
  simp [State.useConn, hk, hc]

section
variable (hk : tget s.eng.conns conn = some k)
include hk

theorem execLink_known : execLink conn s = .next (s.endConn conn) := by simp [execLink, hk]

variable (hc : k.cached = false)
include hc

theorem execConnectionContextFetch_failed : execConnectionContextFetch conn false s = .next (s.endConn conn) := by
  simp [execConnectionContextFetch, hk, hc]

theorem execConnectionContextFetch_bad (hb : s.eccBad (s.spillAddr conn) 256 = true) : execConnectionContextFetch conn true s =
    .next ((s.endConn conn).life (0x10C + stackOf (s.spillAddr conn)) 1) := by
  simp [execConnectionContextFetch, hk, hc, hb]

theorem execConnectionContextFetch_good (hb : s.eccBad (s.spillAddr conn) 256 = false) :
    ∃ t, execConnectionContextFetch conn true s = .next t ∧ t.connCached conn = true := by
  simp only [execConnectionContextFetch, hk, hc, hb]
  refine ⟨_, rfl, ?_⟩
  rw [State.connCached_of_tget (State.tget_useConn (tget_tset_self _ _ _) rfl)]
end

theorem State.ccBegin_taken {opens : Bool} (hb : s.bootHold = false) (hn : s.host.ccCmd = none) : s.ccBegin opens asid conn =
    { s with host := { s.host with
        ccstat := setFld s.host.ccstat 63 1 1
        ccCmd := some ⟨opens, asid, conn, s.host.ccdesc.readBytes 0 256, s.ctl.now + Config.connectionDelay s.ctl.now conn⟩ } } := by
  simp [State.ccBegin, hb, hn]

theorem State.ccBegin_ignored {opens : Bool} (h : s.bootHold = true ∨ s.host.ccCmd.isSome = true) : s.ccBegin opens asid conn = s := by
  simp [State.ccBegin, h]

/-! ### The end of a command (R418) -/

theorem State.ccFinish_early (hc : s.host.ccCmd = some cmd) (hd : s.ctl.now < cmd.due) : s.ccFinish = s := by
  simp [State.ccFinish, hc, hd]

theorem State.ccFinish_close (hc : s.host.ccCmd = some cmd) (hd : cmd.due ≤ s.ctl.now) (ho : cmd.opens = false) :
    s.ccFinish = State.closeConn { s with host := { s.host with ccCmd := none } } cmd.asid cmd.conn := by
  simp [State.ccFinish, hc, Nat.not_lt.2 hd, ho]

theorem State.ccFinish_open (hc : s.host.ccCmd = some cmd) (hd : cmd.due ≤ s.ctl.now) (ho : cmd.opens = true) :
    s.ccFinish = State.openConn { s with host := { s.host with ccCmd := none } } cmd.asid cmd.conn cmd.desc := by
  simp [State.ccFinish, hc, Nat.not_lt.2 hd, ho]

theorem State.closeConn_unknown (h : tget s.eng.conns conn = none) : s.closeConn asid conn = s.ccResult 2 := by
  simp [State.closeConn, h]

theorem State.closeConn_of_other (h : tget s.eng.conns conn = some k) (ha : k.asid ≠ asid) : s.closeConn asid conn = s.ccResult 3 := by
  simp [State.closeConn, h, ha]

theorem State.closeConn_own (h : tget s.eng.conns conn = some k) (ha : k.asid = asid) :
    s.closeConn asid conn = (s.endConn conn).ccResult 0 := by
  simp [State.closeConn, h, ha]

/-- A descriptor is well formed (R418). -/
theorem descLegal_iff {desc : List Byte} : descLegal desc = true ↔
    let w := leNat ((desc.drop 0x18).take 8)
    fld w 48 8 ≠ 0 ∧ 1024 ≤ fld w 32 16 ∧ fld w 32 16 ≤ 9216 ∧ ∀ x, x ∈ desc.drop 0x20 → x = 0 := by
  simp [descLegal, and_assoc]

section
variable {desc : List Byte}

theorem State.openConn_no_spill (h : s.host.ccspill = 0) : s.openConn asid conn desc = s.ccResult 5 := by simp [State.openConn, h]

variable (hs : s.host.ccspill ≠ 0)
include hs

theorem State.openConn_known (hk : (tget s.eng.conns conn).isSome = true) : s.openConn asid conn desc = s.ccResult 1 := by
  rw [State.openConn, if_neg hs, if_pos hk]

variable (hk : tget s.eng.conns conn = none)
include hk

theorem State.openConn_malformed (hd : ¬descLegal desc = true) : s.openConn asid conn desc = s.ccResult 4 := by
  rw [State.openConn, if_neg hs]
  simp [hk, hd]

theorem State.openConn_opened (hd : descLegal desc = true) : (s.openConn asid conn desc).host.ccstat = 0 ∧
    ∃ n, tget (s.openConn asid conn desc).eng.conns conn = some ⟨asid, desc, true, n, none⟩ := by
  have ho : s.openConn asid conn desc =
      ((s.makeRoom.setConn conn ⟨asid, desc, true, 0, none⟩).useConn conn).ccResult 0 := by
    rw [State.openConn, if_neg hs]
    simp [hk, hd]
  have hk : tget (s.makeRoom.setConn conn ⟨asid, desc, true, 0, none⟩).eng.conns conn = some ⟨asid, desc, true, 0, none⟩ :=
    tget_tset_self _ _ _
  rw [ho]
  exact ⟨rfl, _, State.tget_useConn hk rfl⟩
end

/-! ### Switches (R402) -/

section
variable (he : tget s.eng.switch (switchKey c.gid c.seq) = some e)
include he

theorem execSwitchContribution_spoiled (hs : e.spoiled = true) :
    execSwitchContribution c s = .next (s.send (.collective c.gid c.seq 2 [c.midx] [])) := by
  simp [execSwitchContribution, he, hs]

theorem execSwitchContribution_agrees (hs : e.spoiled = false) (ha : e.agrees c = true) :
    execSwitchContribution c s = .next (s.joinEntry e c) := by
  simp [execSwitchContribution, he, hs, ha]
end

theorem State.joinEntry_more (h : e.parts.length + 1 < e.nmem) :
    s.joinEntry e c = s.setSwitch c.gid c.seq { e with parts := e.parts ++ [partOf c] } := by
  simp [State.joinEntry, Nat.ne_of_lt h]

theorem State.joinEntry_last (h : e.parts.length + 1 = e.nmem) :
    s.joinEntry e c = (s.dropSwitch c.gid c.seq).send (.collective c.gid c.seq 0 ((e.parts ++ [partOf c]).map (·.1))
      ({ e with parts := e.parts ++ [partOf c] } : SwitchEntry).sum) := by
  simp [State.joinEntry, h]

theorem execSwitchGroupTimeout_late (he : tget s.eng.switch (switchKey gid sq) = some e) (hs : e.spoiled = false)
    (hd : e.deadline ≤ s.ctl.now) : execSwitchGroupTimeout gid sq s =
      .next ((s.dropSwitch gid sq).send (.collective gid sq 1 (List.range e.nmem) [])) := by
  simp [execSwitchGroupTimeout, State.switchLate, he, hs, hd]

/-! ### Spline groups (R343, R344) -/

theorem State.awaiting_of (ha : (s.group gr).asid.isSome = true) (h1 : (s.group gr).state = 1) :
    s.awaiting gr (s.group gr).gid (s.group gr).sent = some (s.group gr) := by
  simp [State.awaiting, ha, h1]

section
variable (hw : s.awaiting gr gid sq = some g)
include hw

theorem execSplResultArrival_awaited : execSplResultArrival gr gid sq data s =
    .next ((s.putSum g.pas data).setGroup gr { g with state := 2, vals := [], pas := [] }) := by
  simp [execSplResultArrival, hw]

theorem execGroupIncomplete_awaited : execGroupIncomplete gr gid sq s =
    .next (s.setGroup gr { g with state := 3, vals := [], pas := [] }) := by
  simp [execGroupIncomplete, hw]

theorem execCollectiveOrder_awaited : execCollectiveOrder gr gid sq s =
    .next (s.faultLaunch g.launch ⟨cOrder, sq, gr, 0, 2, 0, 0⟩) := by
  simp [execCollectiveOrder, hw]
end

theorem execContributionResend_waiting (ha : (s.group gr).asid.isSome = true) (h1 : (s.group gr).state = 1) :
    execContributionResend gr s = .next (s.send (.contribute (s.group gr).contribution)) := by
  simp [execContributionResend, ha, h1]

/-! ### Settled -/

/-- Settles O47, event by event: each clause is a lemma above at the states that it names. -/
theorem fabricEvents : Obligations.FabricEvents := by
  unfold Obligations.FabricEvents
  intro s id conn tag asid gr gid sq st data r k ps e c g rq v gg core cmd away doing
  have haway (n : Nat) (h : s.connCached n = false) : s.turnAway n = away n := by
    unfold away
    cases hn : tget s.eng.conns n with
    | none => exact State.turnAway_unknown hn
    | some z => exact State.turnAway_known hn (State.connCached_of_tget hn ▸ h)
  refine ⟨?answers, ?requests, ?sends, ?sendAway, ?retries, ?contexts, ?commands, ?ignored, ?ends, ?switches, ?late, ?groups⟩
  case answers =>
    intro hr hs ha h4
    exact ⟨fun hc hst => execRmaCompletion_status hr hs ha h4 hc hst, fun hop => execRmaCompletion_left hr hs ha h4 hop,
      fun hop hc hlen hp => execRmaCompletion_placed hr hs ha h4 hop hc hlen hp,
      fun hop hc => haway r.conn hc ▸ execRmaCompletion_not_cached hr hs ha h4 hop hc⟩
  case requests =>
    intro hk
    refine ⟨fun hc => ?_, fun hc hop hr => execRmaIncomingRequest_put hk hc hop hr,
      fun hc hop hr hg => execRmaIncomingRequest_get hk hc hop hr hg, ?amo, fun u er ha hr => State.remoteAmo_unreached ha hr, ?port,
      fun er hc hop hr => execRmaIncomingRequest_put_failed hk hc hop hr,
      fun er hc hop hr => execRmaIncomingRequest_get_failed hk hc hop hr⟩
    · rw [← haway rq.conn (State.connCached_of_tget hk ▸ hc)]
      exact execRmaIncomingRequest_not_cached hk hc
    case amo =>
      rintro u old new ha hr ht hg ho rfl
      refine (State.remoteAmo_done ha hr ht hg ho).trans ?_
      cases atomicNew rq.aop old (BitVec.ofNat 64 rq.opnd1) (BitVec.ofNat 64 rq.opnd2) <;> cases ps <;> rfl
    case port =>
      intro atPort hc hop
      refine ⟨fun b hb => execRmaIncomingRequest_amo_at_port hk hc hop hb, fun hb => ?_⟩
      have hexec := execRmaIncomingRequest_amo hk hc hop hb
      exact ⟨fun old w h => hexec.trans (congrArg _ (State.answerAmo_done h)),
        fun er h => hexec.trans (congrArg _ (State.answerAmo_failed h)),
        fun ha => hexec.trans (congrArg _ (State.answerAmo_failed (State.remoteAmo_unaligned ha)))⟩
  case sends =>
    intro hk hc t
    refine ⟨fun hf => execRmaSendMatch_unmatched hk hc hf, fun hf h4 => execRmaSendMatch_received hk hc hf h4,
      fun hf h4 hg hcore hv => execRmaSendMatch_starts hk hc hf h4 ?_⟩
    exact (State.fireReq_of_core (s := t.send (.sendAnswer conn tag true)) hg hcore).trans hv
  case sendAway =>
    intro hk hc
    rw [← haway conn (State.connCached_of_tget hk ▸ hc)]
    exact execRmaSendMatch_not_cached hk hc
  case retries =>
    intro hr h3 hs ha hk
    exact ⟨execRmaSendRetry_spent hr h3 hs ha hk, execRmaSendRetry_again hr h3 hs ha hk⟩
  case contexts =>
    intro hk
    exact ⟨execConnectionContextFetch_failed hk,
      fun hc => ⟨execConnectionContextFetch_good hk hc, execConnectionContextFetch_bad hk hc⟩, execLink_known hk⟩
  case commands =>
    intro hb hn
    exact ⟨congrArg _ (State.ccBegin_taken hb hn), congrArg _ (State.ccBegin_taken hb hn)⟩
  case ignored =>
    intro h
    exact ⟨congrArg _ (State.ccBegin_ignored h), congrArg _ (State.ccBegin_ignored h)⟩
  case ends =>
    intro hcmd z ends conn_ w formed
    refine ⟨State.ccFinish_early hcmd, fun hd => ⟨fun ho => ?_, fun ho => ?_⟩⟩
    · rw [State.ccFinish_close hcmd hd ho]
      refine ⟨State.closeConn_unknown (s := z), fun o hk => ⟨State.closeConn_of_other (s := z) hk, fun ha => ?_⟩⟩
      rw [State.closeConn_own (s := z) hk ha]
      exact ⟨rfl, State.endConn_conns _ _⟩
    · rw [State.ccFinish_open hcmd hd ho]
      exact ⟨State.openConn_no_spill (s := z), State.openConn_known (s := z),
        fun hs hk hf => State.openConn_malformed (s := z) hs hk (mt descLegal_iff.1 hf),
        fun hs hk hf => State.openConn_opened (s := z) hs hk (descLegal_iff.2 hf)⟩
  case switches =>
    intro key part he
    exact ⟨execSwitchContribution_spoiled he,
      fun hs ha hn => (execSwitchContribution_agrees he hs ha).trans (congrArg _ (State.joinEntry_more hn)),
      fun hs ha hn => (execSwitchContribution_agrees he hs ha).trans (congrArg _ (State.joinEntry_last hn))⟩
  case late => exact execSwitchGroupTimeout_late
  case groups =>
    rintro rfl ha h1 rfl rfl
    have hw := State.awaiting_of ha h1
    exact ⟨execSplResultArrival_awaited hw, execGroupIncomplete_awaited hw, execCollectiveOrder_awaited hw,
      execContributionResend_waiting ha h1⟩

end Sys2Proof.Machine
end

section

/-! # O42: store drains, the weave port, block transfers, evictions and shoot-downs (R257 to R263, R279, R280, R286, R297, R302 to R318) -/

namespace Sys2Proof.Machine

variable {s t u : State} {cl id i j n asid fl die m p : Nat} {q : BteCopy} {c : Cut} {l later : List Nat} {e : CopyElem} {er e1 : Stop}
  {d : Spot} {r : Shootdown} {x : Ctx} {rq : RemoteRequest} {as : List PortAccess}

/-! ### The store buffer and the weave port (R260, R286, R297) -/

theorem execStoreBufferDrain_head {k : Nat} {w : BufStore} {ws : List BufStore} (h : (s.core k).sb = w :: ws) :
    execStoreBufferDrain k s = .next ((s.modCore k (fun r => { r with sb := ws })).performStore k w) := by
  simp [execStoreBufferDrain, State.drainOne, h]

/-- Bench `b`'s port without the access that came first. -/
def State.portTail (s : State) (b : Nat) (as : List PortAccess) : State := s.setBench b { s.bench b with port := as }

section
variable {b : Nat}

theorem execWeavePortAccess_amo (h : (s.bench b).port = .amo asid rq :: as) :
    execWeavePortAccess b s = .next ((s.portTail b as).answerAmo asid rq) := by
  simp [execWeavePortAccess, State.portTail, State.modBench, h]

variable {k : Nat} (h : (s.bench b).port = .ctx k :: as)
include h

theorem execWeavePortAccess_ended (hx : s.ctx? k = none) : execWeavePortAccess b s = .next (s.portTail b as) := by
  have hx : (s.portTail b as).ctx? k = none := hx
  simp_all [execWeavePortAccess, State.portTail, State.modBench]

theorem execWeavePortAccess_ctx (hx : s.ctx? k = some x) : execWeavePortAccess b s = .next (if x.wait = some (.port b) then
    ((s.portTail b as).setCtx k { x with wait := none, granted := true }).push [.finish k] else s.portTail b as) := by
  have hx : (s.portTail b as).ctx? k = some x := hx
  simp_all [execWeavePortAccess, State.portTail, State.modBench]
end

/-! ### The parts of a copy (R302, R311, R316, R335) -/

section
variable (hq : tget (s.cluster cl).bte id = some q) (hn : 0 < min q.clr.cut.partSize (q.clr.cut.count - q.done))
include hq hn

theorem execBteCopyPart_performed (hrun : s.bteRun cl id q q.clr.cut
      (q.elemsOf q.clr.cut (q.done + min q.clr.cut.partSize (q.clr.cut.count - q.done)) q.clr.cut.count)
      (q.elemsOf q.clr.cut q.done (q.done + min q.clr.cut.partSize (q.clr.cut.count - q.done))) 0 = (t, fl, none)) :
    execBteCopyPart cl id s =
      let n := min q.clr.cut.partSize (q.clr.cut.count - q.done)
      .next ((t.setBte cl id { q with
        done := q.done + n, flags := q.flags ||| BitVec.ofNat 64 fl
        counted := q.counted + (q.subtracts q.clr.cut (q.done + n)).sum
        leaves := t.bteLeaves cl id }).bteNotice cl q q.clr.cut n) := by
  simp [execBteCopyPart, hq, Nat.ne_of_gt hn, hrun]

theorem execBteCopyPart_faulted {code faddr info lidx : Nat} (hrun : s.bteRun cl id q q.clr.cut
      (q.elemsOf q.clr.cut (q.done + min q.clr.cut.partSize (q.clr.cut.count - q.done)) q.clr.cut.count)
      (q.elemsOf q.clr.cut q.done (q.done + min q.clr.cut.partSize (q.clr.cut.count - q.done))) 0 =
        (t, fl, some (.elem code faddr info lidx))) :
    execBteCopyPart cl id s = .next ((t.dropBte cl id).faultLaunch q.launch ⟨code, info, faddr, q.epc, 0, q.ctx, firstErr lidx⟩) := by
  simp [execBteCopyPart, hq, Nat.ne_of_gt hn, hrun]
end

section
variable (hq : tget (s.cluster cl).bte id = some q) (hd : q.clr.cut.count ≤ q.done)
include hq hd

theorem execBteCopyComplete_orphan (hi : s.issuer q = false) : execBteCopyComplete cl id s = .next (s.dropBte cl id) := by
  simp [execBteCopyComplete, hq, Nat.not_lt.2 hd, hi]

theorem execBteCopyComplete_issuer (hi : s.issuer q = true) : execBteCopyComplete cl id s =
    .next ((s.dropBte cl id).modCtx q.ctx (fun x => (x.orFlags q.flags.toNat).xfr)) := by
  simp [execBteCopyComplete, hq, Nat.not_lt.2 hd, hi]
end

/-! ### A run of elements, and the fault of the lowest logical index (R57) -/

theorem State.bteRun_nil : s.bteRun cl id q c later [] fl = (s, fl, none) := rfl

theorem State.bteRun_cons_ok {f : Nat} (h : s.bteStep cl id q c i = .ok (t, f)) :
    s.bteRun cl id q c later (i :: l) fl = t.bteRun cl id q c later l (fl ||| f) := by
  simp [State.bteRun, h]

theorem State.bteRun_cons_error (h : s.bteStep cl id q c i = .error er) :
    s.bteRun cl id q c later (i :: l) fl = (s, fl, some (s.bteLowest cl id q c (i :: l ++ later) er)) := by
  simp [State.bteRun, h]

theorem State.bteLowest_in_order (hl : q.linear = none) (hn : c.narrow = false) : s.bteLowest cl id q c l er = er := by
  simp [State.bteLowest, hl, hn]

/-- The first number below `n`, of those that `p` picks, at which `f` answers. -/
theorem findSome?_filter_range {α : Type} {f : Nat → Option α} {p : Nat → Bool} {v : α} (hj : j < n) (hp : p j = true) (hf : f j = some v)
    (hk : ∀ k, k < j → p k = true → f k = none) : ((List.range n).filter p).findSome? f = some v := by
  obtain ⟨m, rfl⟩ := Nat.exists_eq_add_of_lt hj
  have hnone : ((List.range j).filter p).findSome? f = none := by
    simpa [List.findSome?_eq_none_iff] using hk
  rw [Nat.add_assoc, List.range_add, List.range_succ_eq_map]
  simp [List.filter_append, List.findSome?_append, hnone, List.filter_cons_of_pos, hp, hf]

theorem State.bteLowest_of_least (ho : q.linear ≠ none ∨ c.narrow = true) (hl : j ∈ l) (hj : j < c.count)
    (he : s.bteStep cl id q c j = .error e1) (hk : ∀ k, k < j → k ∈ l → ∃ v, s.bteStep cl id q c k = .ok v) :
    s.bteLowest cl id q c l er = e1 := by
  have ho : (q.linear.isSome || c.narrow) = true := by
    rcases ho with h | h
    · simp [Option.isSome_iff_ne_none.2 h]
    · simp [h]
  rw [State.bteLowest, if_pos ho, findSome?_filter_range hj (by simpa using hl) (by simp only [he]; rfl)]
  · rfl
  · intro k hlt hm
    obtain ⟨v, hv⟩ := hk k hlt (by simpa using hm)
    simp [hv]

/-! ### The order of a linear copy (R318) -/

theorem insertDa_perm : ∀ l : List Nat, (insertDa c i l).Perm (i :: l)
  | [] => .refl _
  | j :: l => by
    unfold insertDa
    split
    · exact .refl _
    · exact ((insertDa_perm l).cons j).trans (.swap i j l)

/-- Ascending addresses. -/
def Cut.Ascends (c : Cut) (l : List Nat) : Prop := l.Pairwise (fun i j => c.da i ≤ c.da j)

theorem insertDa_ascends (h : c.Ascends l) : c.Ascends (insertDa c i l) := by
  induction l with
  | nil => exact List.pairwise_singleton _ _
  | cons j l ih =>
    obtain ⟨hj, hl⟩ := List.pairwise_cons.1 h
    unfold insertDa
    split
    · next hlt =>
      refine List.pairwise_cons.2 ⟨fun k hk => ?_, h⟩
      rcases List.mem_cons.1 hk with rfl | hk
      · exact Nat.le_of_lt hlt
      · exact Nat.le_trans (Nat.le_of_lt hlt) (hj k hk)
    · next hge =>
      refine List.pairwise_cons.2 ⟨fun k hk => ?_, ih hl⟩
      rcases List.mem_cons.1 ((insertDa_perm l).mem_iff.1 hk) with rfl | hk
      · exact Nat.not_lt.1 hge
      · exact hj k hk

/-- All elements of a copy, in the order in which a skewed linear one performs them. -/
def Cut.daOrder (c : Cut) : List Nat := (List.range c.count).foldl (fun l i => insertDa c i l) []

theorem foldl_insertDa_perm (is l : List Nat) : (is.foldl (fun l i => insertDa c i l) l).Perm (is ++ l) := by
  induction is generalizing l with
  | nil => exact .refl _
  | cons i is ih => exact (ih _).trans (((insertDa_perm l).append_left is).trans List.perm_middle)

theorem foldl_insertDa_ascends (is : List Nat) (h : c.Ascends l) : c.Ascends (is.foldl (fun l i => insertDa c i l) l) := by
  induction is generalizing l with
  | nil => exact h
  | cons i is ih => exact ih (insertDa_ascends h)

theorem Cut.daOrder_perm (c : Cut) : c.daOrder.Perm (List.range c.count) := by
  have h := foldl_insertDa_perm (c := c) (List.range c.count) []
  rwa [List.append_nil] at h

theorem Cut.daOrder_length (c : Cut) : c.daOrder.length = c.count := by simpa using c.daOrder_perm.length_eq

theorem Cut.daOrder_ascends (c : Cut) : c.Ascends c.daOrder := foldl_insertDa_ascends _ List.Pairwise.nil

theorem BteCopy.elemAt_in_order (h : q.linear = none ∨ q.clr.cut.skew = 0) : q.elemAt i = i := by
  rcases h with h | h
  · simp [BteCopy.elemAt, h]
  · simp [BteCopy.elemAt, Cut.linAt, h]

section
variable (hl : q.linear ≠ none) (hs : q.clr.cut.skew ≠ 0)
include hl hs

theorem BteCopy.elemAt_skewed (hi : i < q.clr.cut.count) :
    q.elemAt i = q.clr.cut.daOrder[i]'(q.clr.cut.daOrder_length ▸ hi) := by
  have hi := q.clr.cut.daOrder_length ▸ hi
  simp only [BteCopy.elemAt, Option.isSome_iff_ne_none.2 hl, if_true, Cut.linAt, if_neg hs]
  exact List.getD_eq_getElem _ _ hi

theorem BteCopy.elemAt_ascends (him : i < m) (hm : m < q.clr.cut.count) : q.clr.cut.da (q.elemAt i) ≤ q.clr.cut.da (q.elemAt m) := by
  rw [elemAt_skewed hl hs (him.trans hm), elemAt_skewed hl hs hm]
  exact List.pairwise_iff_getElem.1 q.clr.cut.daOrder_ascends i m _ _ him

theorem BteCopy.exists_elemAt (hi : i < q.clr.cut.count) : ∃ p, p < q.clr.cut.count ∧ q.elemAt p = i := by
  obtain ⟨p, hp, he⟩ := List.mem_iff_getElem.1 (q.clr.cut.daOrder_perm.mem_iff.2 (List.mem_range.2 hi))
  have hlt : p < q.clr.cut.count := q.clr.cut.daOrder_length ▸ hp
  exact ⟨p, hlt, (elemAt_skewed hl hs hlt).trans he⟩
end

/-! ### Elements that share a word (R313) -/

theorem BteCopy.elemsOf_wide (hn : c.narrow = false) :
    q.elemsOf c i m = (List.range (m - i)).map (fun j => q.elemAt (j + i)) := by
  have hall : ∀ p ∈ (List.range (m - i)).map (· + i), (decide (i ≤ q.firstAt c p) && decide (q.firstAt c p < m)) = true := by
    intro p hp
    obtain ⟨k, hk, rfl⟩ := List.mem_map.1 hp
    have hk := List.mem_range.1 hk
    simp [BteCopy.firstAt, hn]
    omega
  simp only [BteCopy.elemsOf, hn, Bool.false_eq_true, if_false]
  rw [List.filter_eq_self.2 hall, List.map_map]
  rfl

/-- Place `g` is the first whose element lies in the word of the `p`-th. -/
def BteCopy.FirstOf (q : BteCopy) (c : Cut) (p g : Nat) : Prop :=
  g ≤ p ∧ c.wordOf (q.elemAt g) = c.wordOf (q.elemAt p) ∧ ∀ r, r < g → c.wordOf (q.elemAt r) ≠ c.wordOf (q.elemAt p)

theorem BteCopy.firstAt_firstOf (hn : c.narrow = true) : q.FirstOf c p (q.firstAt c p) := by
  simp only [BteCopy.firstAt, hn, if_true]
  cases hf : (List.range p).find? (fun r => c.wordOf (q.elemAt r) == c.wordOf (q.elemAt p)) with
  | none => exact ⟨Nat.le_refl p, rfl, fun r hr => by simpa using List.find?_eq_none.1 hf r (List.mem_range.2 hr)⟩
  | some g =>
    obtain ⟨hg, hm, hr⟩ := List.find?_range_eq_some.1 hf
    exact ⟨Nat.le_of_lt (List.mem_range.1 hm), by simpa using hg, fun r hlt => by simpa using hr r hlt⟩

theorem BteCopy.FirstOf.unique {g h : Nat} (hg : q.FirstOf c p g) (hh : q.FirstOf c p h) : g = h := by
  obtain ⟨-, wg, lg⟩ := hg
  obtain ⟨-, wh, lh⟩ := hh
  rcases Nat.lt_trichotomy g h with hlt | rfl | hlt
  · exact absurd wg (lh g hlt)
  · rfl
  · exact absurd wh (lg h hlt)

/-- The elements performed with the places from `i` up to `m`: those whose word is first met there. -/
theorem BteCopy.mem_elemsOf_narrow (hn : c.narrow = true) : j ∈ q.elemsOf c i m ↔
    ∃ p g, p < c.count ∧ q.elemAt p = j ∧ g ≤ p ∧ i ≤ g ∧ g < m ∧ c.wordOf (q.elemAt g) = c.wordOf j ∧
      ∀ r, r < g → c.wordOf (q.elemAt r) ≠ c.wordOf j := by
  simp only [BteCopy.elemsOf, hn, if_true, List.mem_map, List.mem_filter, List.mem_range, Bool.and_eq_true, decide_eq_true_iff]
  constructor
  · rintro ⟨p, ⟨⟨k, hk, rfl⟩, hi, hm⟩, rfl⟩
    obtain ⟨hle, hw, hr⟩ := q.firstAt_firstOf (p := k + i) hn
    exact ⟨k + i, _, by omega, rfl, hle, hi, hm, hw, hr⟩
  · rintro ⟨p, g, hp, rfl, hle, hi, hm, hw, hr⟩
    obtain rfl := FirstOf.unique ⟨hle, hw, hr⟩ (firstAt_firstOf hn)
    exact ⟨p, ⟨⟨p - i, by omega, by omega⟩, hi, hm⟩, rfl⟩

/-! ### The two sides of an element (R278, R305, R309) -/

theorem State.bteElem_ok (h : s.bteElem cl id q c i = .ok e) : e.idx = i ∧ e.va = c.ta c.base i ∧
    s.engineLeaf cl id q.asid e.va = some e.leaf ∧ e.pa = e.leaf.phys e.va ∧ e.odd = c.ta2 c.base i % 2 := by
  unfold State.bteElem at h
  dsimp only at h
  split at h
  · cases h
  · cases h
  · next hl =>
    split_ifs at h
    all_goals
      cases h
      exact ⟨rfl, rfl, hl, rfl, rfl⟩

theorem State.bteElem_of_bteChecked (h : s.bteChecked cl id q c i = .ok e) : s.bteElem cl id q c i = .ok e := by
  unfold State.bteChecked at h
  cases he : s.bteElem cl id q c i with
  | error er => rw [he] at h; cases h
  | ok e0 =>
    rw [he] at h
    simp only [bind, Except.bind] at h
    split at h
    · exact h
    · cases h

theorem State.bteDense_local (h2 : c.dsp = 2) (hr : c.red ≠ 0 → c.dir ≠ 0) :
    s.bteDense cl id q c i = .ok (.loc (localIndex cl c.lmode (coreOf q.ctx % 8) (c.da i)), s) := by
  have hr : ¬(c.red ≠ 0 ∧ c.dir = 0) := fun h => hr h.1 h.2
  simp only [State.bteDense, if_pos h2, if_neg hr]

theorem State.bteDense_virtual (h2 : c.dsp ≠ 2) (h : s.bteDense cl id q c i = .ok (d, u)) :
    ∃ l, s.engineLeaf cl id q.asid (c.da i) = some l ∧ d = .mem (l.phys (c.da i)) l.nc := by
  simp only [State.bteDense, if_neg h2] at h
  split at h
  · cases h
  · cases h
  · next l _ hl =>
    split_ifs at h
    all_goals
      cases h
      exact ⟨l, hl, rfl⟩

/-! ### One element (R305 to R309, R313) -/

/-- A read where no error stands passes and changes nothing (R269). -/
theorem State.eccSpot_clean (h : u.frame.flagEcc = []) : u.eccSpot d n i = .ok u := by
  unfold State.eccSpot
  split
  · simp [State.eccBad, State.eccCorrect, h]
  · rfl

theorem State.bteStep_skipped (hin : c.inBounds i = false) (hd : c.dir = 1 ∨ c.red ≠ 0) : s.bteStep cl id q c i = .ok (s, 0) := by
  simp [State.bteStep, hin, hd]

theorem State.bteStep_filled (hin : c.inBounds i = false) (hdir : c.dir ≠ 1) (hr : c.red = 0)
    (hd : s.bteDense cl id q c i = .ok (d, u)) :
    s.bteStep cl id q c i = .ok (u.putSpot d c.dHalf (c.da2 i % 2) c.fillValue, 0) := by
  simp only [State.bteStep, hin, hdir, hr, hd]
  rfl

section
variable (hin : c.inBounds i = true) (hc : s.bteChecked cl id q c i = .ok e) (hf : u.frame.flagEcc = [])
  (hd : (s.engineFill cl id q.asid (c.ta c.base i) e.leaf).bteDense cl id q c i = .ok (d, u))
include hin hc hf hd

/-- What an element in bounds does once both of its sides are reached, and no error stands there. -/
theorem State.bteStep_moved : s.bteStep cl id q c i =
    let tp := Spot.mem e.pa e.leaf.nc
    let scale := if c.scaled e.leaf then leNat (u.readSpot (.mem (scalePa e.leaf e.pa) e.leaf.nc) 1) else 127
    let load := c.loadValue u e.leaf (codeOf c.tHalf e.odd (u.readSpot tp (spanOf c.tHalf))) scale
    let store := c.storeValue u e.leaf (codeOf c.dHalf (c.da2 i % 2) (u.readSpot d (spanOf c.dHalf))) scale (drawOf q.seed q.draw i)
    let into := redStep c.red (leNat (u.readSpot d 4)) (redSource c.red (codeOf c.tHalf e.odd (u.readSpot tp (spanOf c.tHalf))))
    let out := redStep c.red (leNat (u.readSpot tp 4)) (redSource c.red (codeOf c.dHalf (c.da2 i % 2) (u.readSpot d (spanOf c.dHalf))))
    if c.dir = 0 then
      (if c.red = 0 then .ok (u.putSpot d c.dHalf (c.da2 i % 2) load.1, load.2) else .ok (u.writeSpot d (leBytes 4 into.1), into.2))
    else
      (if c.red = 0 then .ok (u.putSpot tp c.tHalf e.odd store.1, store.2) else .ok (u.writeSpot tp (leBytes 4 out.1), out.2)) := by
  simp only [State.bteStep, hin, hc, hd, bind, Except.bind, State.eccSpot_clean hf, pure, Except.pure, ite_self, Bool.not_true,
    Bool.false_eq_true, if_false]
end

/-! ### Evictions (R261, R279) -/

section
variable {k line : Nat}

theorem execTranslationEviction_core (h : k < 1024) :
    execTranslationEviction k i s = .next (s.modCore k (fun r => { r with tlb := r.tlb.eraseIdx i })) := by
  simp [execTranslationEviction, h]

theorem execTranslationEviction_cluster (h : cl < 128) :
    execTranslationEviction (1024 + cl) i s = .next (s.modCluster cl (fun r => { r with tlb := r.tlb.eraseIdx i })) := by
  have h : 1024 + cl < 1152 := by omega
  simp [execTranslationEviction, h]

theorem execCacheLineEviction_core (h : k < 1024) : execCacheLineEviction k line s = .next (s.modCore k (fun r =>
    { r with remote := terase r.remote (lineOf line), fetched := terase r.fetched (lineOf line) })) := by
  simp [execCacheLineEviction, h]

theorem execCacheLineEviction_home (h : homeDie (lineOf line) = die) : execCacheLineEviction (1024 + die) line s =
    .next { s with mem := s.mem.writeBack (lineOf line) 64 } := by
  simp [execCacheLineEviction, h]
end

/-! ### Shoot-downs (R279, R280) -/

/-- A table whose values were all changed by `f` reads as the old one, changed by `f`. -/
theorem tget_map {α : Type} (m : Tbl α) (f : α → α) (k : Nat) : tget (m.map (fun e => (e.1, f e.2))) k = (tget m k).map f := by
  induction m with
  | nil => rfl
  | cons e m ih =>
    obtain ⟨j, v⟩ := e
    simp only [List.map_cons, tget]
    split <;> simp [ih]

section
variable {k : Nat} {z : TlbEntry}

theorem State.core_tlb_purge : ((s.purge r).core k).tlb = (s.core k).tlb.filter (fun z => !r.covers z) := by
  have h : tget (s.purge r).weave.cores k = _ :=
    tget_map s.weave.cores (fun c : Core => { c with tlb := c.tlb.filter (fun z => !r.covers z) }) k
  rw [State.core, tgetD, h, State.core, tgetD]
  cases tget s.weave.cores k <;> rfl

theorem State.cluster_tlb_purge : ((s.purge r).cluster k).tlb = (s.cluster k).tlb.filter (fun z => !r.covers z) := by
  have h : tget (s.purge r).weave.clusters k = _ :=
    tget_map s.weave.clusters (fun c : Cluster => { c with tlb := c.tlb.filter (fun z => !r.covers z) }) k
  rw [State.cluster, tgetD, h, State.cluster, tgetD]
  cases tget s.weave.clusters k <;> rfl

theorem Shootdown.covers_eq_false_of_mem {l : List TlbEntry} (h : z ∈ l.filter (fun z => !r.covers z)) : r.covers z = false := by
  simpa using List.of_mem_filter h
end

/-- After a request no store of translations holds one that it covers. -/
def State.Purged (s : State) (r : Shootdown) : Prop :=
  (∀ k z, z ∈ (s.core k).tlb → r.covers z = false) ∧ (∀ k z, z ∈ (s.cluster k).tlb → r.covers z = false) ∧
    ∀ z, z ∈ s.frame.pinned → r.covers z = false

theorem State.purge_purged (s : State) (r : Shootdown) : (s.purge r).Purged r :=
  ⟨fun _ _ h => Shootdown.covers_eq_false_of_mem (State.core_tlb_purge ▸ h),
    fun _ _ h => Shootdown.covers_eq_false_of_mem (State.cluster_tlb_purge ▸ h), fun _ h => Shootdown.covers_eq_false_of_mem h⟩

/-- Outside boot hold a request joins a queue that has room; one that stands first reaches every store at once. -/
theorem State.askShootdown_queued (hb : s.bootHold = false) (hq : (tgetD s.eng.sdq die []).length < Config.shootdownQueue) :
    tgetD (s.askShootdown die r).eng.sdq die [] = tgetD s.eng.sdq die [] ++ [r] ∧ (s.askShootdown die r).mem = s.mem ∧
      (s.askShootdown die r).weave.ctxs = s.weave.ctxs ∧ (tgetD s.eng.sdq die [] = [] → (s.askShootdown die r).Purged r) := by
  have hq : ¬Config.shootdownQueue ≤ (tgetD s.eng.sdq die []).length := Nat.not_le.2 hq
  simp only [State.askShootdown, hb, Bool.false_eq_true, if_false, if_neg hq]
  cases tgetD s.eng.sdq die [] with
  | nil => exact ⟨tgetD_tset_self _ _ _ _, rfl, rfl, fun _ => State.purge_purged _ r⟩
  | cons r0 rest => exact ⟨tgetD_tset_self _ _ _ _, rfl, rfl, fun h => nomatch h⟩

theorem execShootdownRange_asked {pages : Nat} (hb : s.bootHold = false) (hp : pages ≠ 0) : execShootdownRange die asid n pages s =
    .next (s.askShootdown die ⟨0, asid, n, (tgetD s.eng.sdva die 0).toNat / 4096 * 4096, pages⟩) := by
  simp [execShootdownRange, hb, hp]

theorem execShootdownComplete_head {rest : List Shootdown} (hq : tgetD s.eng.sdq die [] = r :: rest) (hu : s.usesOpen r = false) :
    ∃ t, execShootdownComplete die s = .next t ∧ t.evctr r.ectr = s.evctr r.ectr + 1 ∧ tgetD t.eng.sdq die [] = rest ∧
      (∀ k z, z ∈ (t.core k).tlb → r.covers z = false) ∧ t.mem = s.mem := by
  have hcov (k : Nat) {z : TlbEntry} (h : z ∈ ((s.purge r).core k).tlb) : r.covers z = false := (s.purge_purged r).1 k z h
  simp only [execShootdownComplete, hq, hu, Bool.false_eq_true, if_false]
  refine ⟨_, rfl, ?_⟩
  cases rest with
  | nil => exact ⟨tgetD_tset_self _ _ _ _, tgetD_tset_self _ _ _ _, fun k z h => hcov k h, rfl⟩
  | cons r1 rest =>
    refine ⟨tgetD_tset_self _ _ _ _, tgetD_tset_self _ _ _ _, fun k z h => hcov k ?_, rfl⟩
    exact List.mem_of_mem_filter (State.core_tlb_purge ▸ h)

/-! ### Settled -/

/-- Settles O42, event by event: each clause is a lemma above at the states that it names. -/
theorem memoryAndShootdownEvents : Obligations.MemoryAndShootdownEvents := by
  unfold Obligations.MemoryAndShootdownEvents
  refine ⟨?events, ?shootdowns⟩
  case events =>
    intro s k b c cl id i line e es cs x q rq
    refine ⟨execStoreBufferDrain_head, ?port, ?part, ?element, ?complete, execTranslationEviction_core, execTranslationEviction_cluster,
      execCacheLineEviction_core, execCacheLineEviction_home⟩
    case port =>
      intro t
      refine ⟨fun h => ⟨fun v u hv => ?_, fun er he => ?_⟩, fun h => ⟨execWeavePortAccess_ended h, fun hx hw => ?_, fun hx hw => ?_⟩⟩
      · exact (execWeavePortAccess_amo h).trans (congrArg _ (State.answerAmo_done hv))
      · exact (execWeavePortAccess_amo h).trans (congrArg _ (State.answerAmo_failed he))
      · exact (execWeavePortAccess_ctx h hx).trans (congrArg _ (if_pos hw))
      · exact (execWeavePortAccess_ctx h hx).trans (congrArg _ (if_neg hw))
    case part =>
      intro cut n els later hq hn r fl
      exact ⟨execBteCopyPart_performed hq hn, fun code faddr info lidx => execBteCopyPart_faulted hq hn⟩
    case element =>
      intro m i fl f els later t u d e cut th dh odd tp code scale step word run
      refine ⟨⟨State.bteRun_nil, State.bteRun_cons_ok, fun e0 he => ⟨fun hl hn => ?_, fun j e1 ho hm hj hej hk => ?_⟩⟩,
        ⟨BteCopy.elemAt_in_order, fun hl hs => ⟨BteCopy.elemAt_ascends hl hs, BteCopy.exists_elemAt hl hs⟩, decide_eq_true_iff,
          BteCopy.elemsOf_wide, fun hn j => BteCopy.mem_elemsOf_narrow hn⟩,
        fun h => State.bteElem_ok (State.bteElem_of_bteChecked h), State.bteDense_local, State.bteDense_virtual,
        fun hin => ⟨State.bteStep_skipped hin, State.bteStep_filled hin⟩, fun hin hc hf hd => ?_⟩
      · exact (State.bteRun_cons_error he).trans (by rw [State.bteLowest_in_order hl hn])
      · exact (State.bteRun_cons_error he).trans (by rw [State.bteLowest_of_least ho hm hj hej hk])
      · have hstep := State.bteStep_moved hin hc hf hd
        refine ⟨fun h0 hr => ?_, fun h0 hr => ?_, fun h1 hr => ?_, fun h1 hr => ?_⟩
        · exact hstep.trans ((if_pos h0).trans (if_pos hr))
        · exact hstep.trans ((if_pos h0).trans (if_neg hr))
        · exact hstep.trans ((if_neg (by omega)).trans (if_pos hr))
        · exact hstep.trans ((if_neg (by omega)).trans (if_neg hr))
    case complete =>
      intro hq hd t
      refine ⟨execBteCopyComplete_orphan hq hd, fun hi => execBteCopyComplete_issuer hq hd hi⟩
  case shootdowns =>
    intro s die asid n pages r rest q asks
    have hasks {i : Instr} {r : Shootdown} (h : s.bootHold = false → exec i s = .next (s.askShootdown die r)) : asks i r :=
      fun hb hq => ⟨_, h hb, State.askShootdown_queued hb hq⟩
    exact ⟨fun hp => hasks fun hb => execShootdownRange_asked hb hp, hasks fun _ => rfl, hasks fun _ => rfl,
      execShootdownComplete_head⟩

end Sys2Proof.Machine
end
